-- ==== Sys2Proof/Word.lean ====
section
/-!
DEFINITION. The word and byte of the Skaldango parts: folio registers and data-memory words are 32
bits wide (R5, R6).
-/

namespace Sys2Proof

/-- A folio word, a data-memory word, an instruction word (R6, R72). -/
abbrev Word := BitVec 32

/-- A byte of a memory (R5). -/
abbrev Byte := BitVec 8

end Sys2Proof
end

