-- ==== Sys2Proof/Syntax.lean ====
section
/-!
DEFINITION. The commands of the Skaldango parts, one constructor per row of the opcode table, with
their operands. A command names an occurrence offered to the block: an instruction a core issues, a
register write, a packet received, a timer that runs out, a pin that changes, a measurement that ends.
-/

namespace Sys2Proof

/-- The two parts (spec/00_scope.md). -/
inductive Part where
  | sender | tile
  deriving DecidableEq, Repr

/-- A Folko core: C0 to C3 of the sender, C0 of the tile (R39). -/
inductive CoreId where
  | sender (n : Fin 4)
  | tile
  deriving DecidableEq, Repr

/-- The part a core belongs to. -/
def CoreId.part : CoreId → Part
  | .sender _ => .sender
  | .tile => .tile

/-- The number of a core within its part. -/
def CoreId.idx : CoreId → Nat
  | .sender n => n.val
  | .tile => 0

/-- A LNK port: a chain port of the sender, the U or the D port of the tile (R45). -/
inductive LnkPort where
  | chain (k : Fin 16)
  | u
  | d
  deriving DecidableEq, Repr

/-- The part a LNK port belongs to. -/
def LnkPort.part : LnkPort → Part
  | .chain _ => .sender
  | .u => .tile
  | .d => .tile

/-- The instance number of a LNK port (R45). -/
def LnkPort.idx : LnkPort → Nat
  | .chain k => k.val
  | .u => 0
  | .d => 1

/-- The two senders of a wall (R13). -/
inductive Letter where
  | a | b
  deriving DecidableEq, Repr

/-- A Zugon packet as the words on the link, header first, CRC last (R277). -/
abbrev Packet := List Word

/-- Where a REGISTER_WRITE goes: a folio address of a part, or a BAR0 offset of the sender (R62). -/
inductive WriteTarget where
  | folio (p : Part) (addr : Word)
  | bar0 (off : Word)
  deriving DecidableEq, Repr

/-- What the PCS of a NET port reports of a codeword or block (R119). -/
inductive PcsErr where
  | corrected
  | uncorrectable
  /-- a 66-bit block with an invalid header or type -/
  | badBlock
  deriving DecidableEq, Repr

/-- What the back-channel of an alignment block says of the direction this port transmits (R266, R268,
R272, R273). The BACK bytes' layout is not given, so the command carries what they say. -/
inductive FarEnd where
  /-- the far receiver carries traffic -/
  | up
  /-- the far receiver has lost an active lane with no healthy spare, or both (R273) -/
  | lost
  /-- the far receiver has 2 lanes with FOM at MIN or above under an agreed entry (R267) -/
  | trained
  /-- the far receiver has 2 lanes in block lock, deskewed, with 8 good alignment blocks (R267) -/
  | locked
  deriving DecidableEq, Repr

/-- What an error check of a stored word finds (R339, R340). -/
inductive Ecc where
  | good
  /-- a single-bit error, corrected in the value read -/
  | corrected
  /-- a double-bit error -/
  | double
  deriving DecidableEq, Repr

/-- An error the correction-store scrubber finds: bank, block, line, and whether it is a double-bit error (R340). -/
structure ScrubErr where
  bank : Bool
  block : Fin 64
  line : Fin 32
  double : Bool
  deriving DecidableEq, Repr

/-- What the tile senses in one line slot: pad voltages in mV at the samples of R373 and R376 (a pad that is not
listed lies between the thresholds), the cells of the checked block found conducting while commanded off and
without current while commanded on (R379), and the gate outputs at their on level in the gate test (R388). -/
structure LineObs where
  volts : List (Nat × Nat)
  probeVolts : List (Nat × Nat)
  leaks : List (Fin 50)
  dead : List (Fin 50)
  gates : List (Fin 128)
  deriving DecidableEq, Repr

/-- Where an update command comes from (R458): a write of `UPD_CMD` in a part, or a CONTROL packet at a port of the
tile. -/
inductive UpdSrc where
  | core (p : Part)
  | packet (port : LnkPort) (pkt : Packet)
  deriving DecidableEq, Repr

/-- The part that an update command acts on. -/
def UpdSrc.part : UpdSrc → Part
  | .core p => p
  | .packet _ _ => .tile

/-- The kinds of reset (R478). -/
inductive ResetKind where
  | por | pin | brownout | soft | core | wake
  deriving DecidableEq, Repr

/-- One command per row of the opcode table. -/
inductive Instr where
  /-- ADD g[d], g[a], g[b] on core c (R76) -/
  | add (c : CoreId) (d a b : BitVec 5)
  /-- SUB g[d], g[a], g[b] on core c (R76) -/
  | sub (c : CoreId) (d a b : BitVec 5)
  /-- AND g[d], g[a], g[b] on core c (R76) -/
  | and (c : CoreId) (d a b : BitVec 5)
  /-- OR g[d], g[a], g[b] on core c (R76) -/
  | or (c : CoreId) (d a b : BitVec 5)
  /-- XOR g[d], g[a], g[b] on core c (R76) -/
  | xor (c : CoreId) (d a b : BitVec 5)
  /-- SHL g[d], g[a], g[b] on core c (R76) -/
  | shl (c : CoreId) (d a b : BitVec 5)
  /-- SHR g[d], g[a], g[b] on core c (R76) -/
  | shr (c : CoreId) (d a b : BitVec 5)
  /-- SAR g[d], g[a], g[b] on core c (R76) -/
  | sar (c : CoreId) (d a b : BitVec 5)
  /-- MUL g[d], g[a], g[b] on core c (R76) -/
  | mul (c : CoreId) (d a b : BitVec 5)
  /-- MULHU g[d], g[a], g[b] on core c (R76) -/
  | mulhu (c : CoreId) (d a b : BitVec 5)
  /-- MIN g[d], g[a], g[b] on core c (R76) -/
  | min (c : CoreId) (d a b : BitVec 5)
  /-- MAX g[d], g[a], g[b] on core c (R76) -/
  | max (c : CoreId) (d a b : BitVec 5)
  /-- SLT g[d], g[a], g[b] on core c (R76) -/
  | slt (c : CoreId) (d a b : BitVec 5)
  /-- SLTU g[d], g[a], g[b] on core c (R76) -/
  | sltu (c : CoreId) (d a b : BitVec 5)
  /-- CLZ g[d], g[a] on core c (R76) -/
  | clz (c : CoreId) (d a : BitVec 5)
  /-- ADDI g[d], g[a], imm16 (R76) -/
  | addi (c : CoreId) (d a : BitVec 5) (imm : BitVec 16)
  /-- ANDI g[d], g[a], imm16 (R76) -/
  | andi (c : CoreId) (d a : BitVec 5) (imm : BitVec 16)
  /-- ORI g[d], g[a], imm16 (R76) -/
  | ori (c : CoreId) (d a : BitVec 5) (imm : BitVec 16)
  /-- XORI g[d], g[a], imm16 (R76) -/
  | xori (c : CoreId) (d a : BitVec 5) (imm : BitVec 16)
  /-- LUI g[d], imm16 (R76) -/
  | lui (c : CoreId) (d : BitVec 5) (imm : BitVec 16)
  /-- SHI g[d], g[a], kind and amount (R77) -/
  | shi (c : CoreId) (d a : BitVec 5) (imm : BitVec 16)
  /-- LDW g[d], off(g[a]) (R80) -/
  | ldw (c : CoreId) (d a : BitVec 5) (off : BitVec 16)
  /-- STW g[d], off(g[a]) (R80) -/
  | stw (c : CoreId) (d a : BitVec 5) (off : BitVec 16)
  /-- FRD g[d], off(g[a]) (R80) -/
  | frd (c : CoreId) (d a : BitVec 5) (off : BitVec 16)
  /-- FWR g[d], off(g[a]) (R80) -/
  | fwr (c : CoreId) (d a : BitVec 5) (off : BitVec 16)
  /-- BEQ g[a], g[b], off16 (R78) -/
  | beq (c : CoreId) (a b : BitVec 5) (off : BitVec 16)
  /-- BNE g[a], g[b], off16 (R78) -/
  | bne (c : CoreId) (a b : BitVec 5) (off : BitVec 16)
  /-- BLT g[a], g[b], off16 (R78) -/
  | blt (c : CoreId) (a b : BitVec 5) (off : BitVec 16)
  /-- BGE g[a], g[b], off16 (R78) -/
  | bge (c : CoreId) (a b : BitVec 5) (off : BitVec 16)
  /-- BLTU g[a], g[b], off16 (R78) -/
  | bltu (c : CoreId) (a b : BitVec 5) (off : BitVec 16)
  /-- BGEU g[a], g[b], off16 (R78) -/
  | bgeu (c : CoreId) (a b : BitVec 5) (off : BitVec 16)
  /-- JMP off26 (R79) -/
  | jmp (c : CoreId) (off : BitVec 26)
  /-- CALL off26 (R79) -/
  | call (c : CoreId) (off : BitVec 26)
  /-- JR g[d], g[a] (R79) -/
  | jr (c : CoreId) (d a : BitVec 5)
  /-- core c fetches a word that no row of R74 and R75 gives a meaning -/
  | illegalOpcode (c : CoreId) (w : Word)
  /-- core c fetches from outside its instruction memory (R79) -/
  | ifetch (c : CoreId)
  /-- WAITT g[a] (R83) -/
  | waitt (c : CoreId) (a : BitVec 5)
  /-- the wall time that core c waits for is reached (R83) -/
  | waittWake (c : CoreId)
  /-- WAITE in the timed mode (R84) -/
  | waiteTimed (c : CoreId) (d a : BitVec 5) (ev : BitVec 12)
  /-- WAITE in the NOTIME mode (R84) -/
  | waiteNotime (c : CoreId) (d : BitVec 5) (ev : BitVec 12)
  /-- WAITE in the POLL mode (R84) -/
  | waitePoll (c : CoreId) (d : BitVec 5) (ev : BitVec 12)
  /-- an event is pending: every core of the part that waits on it and sees it resumes (R85, R416) -/
  | waiteWake (p : Part) (ev : BitVec 12)
  /-- CMT g[d], mask g[a], time g[b] (R88) -/
  | cmt (c : CoreId) (d a b : BitVec 5)
  /-- the validation of the CMT that core c runs completes (R50) -/
  | cmtComplete (c : CoreId)
  /-- CMTQ g[d], mask g[a], time g[b] (R89) -/
  | cmtq (c : CoreId) (d a b : BitVec 5)
  /-- BCST g[d], time g[a], descriptor g[b] (R57, R90) -/
  | bcst (c : CoreId) (d a b : BitVec 5)
  /-- TSND g[d], descriptor g[a], destination g[b] (R91) -/
  | tsnd (c : CoreId) (d a b : BitVec 5)
  /-- the head of a port's transmit command queue leaves (R94) -/
  | tsndCommandSend (port : LnkPort)
  /-- TRCV g[d], buffer g[a] (R95) -/
  | trcv (c : CoreId) (d a : BitVec 5)
  /-- EVSET; `reg` is cond 0b0001, the event in g[a] (R86) -/
  | evset (c : CoreId) (reg : Bool) (a : BitVec 5) (ev : BitVec 12)
  /-- EVACK; `reg` is cond 0b0001, the event in g[a] (R86) -/
  | evack (c : CoreId) (reg : Bool) (a : BitVec 5) (ev : BitVec 12)
  /-- XFER g[d], descriptor g[a] (R97) -/
  | xfer (c : CoreId) (d a : BitVec 5)
  /-- the transfer engine of core c ends; `flashErrAt` is the index of the first word whose flash read fails (R99) -/
  | xferDone (c : CoreId) (flashErrAt : Option Nat)
  /-- FENCE (R82) -/
  | fence (c : CoreId)
  /-- the last earlier FWR of core c has arrived (R82) -/
  | fenceDone (c : CoreId)
  /-- the oldest posted write of core c reaches its block node (R46) -/
  | folioWriteArrival (c : CoreId)
  /-- the value of the FRD that core c runs returns (R46) -/
  | frdReturn (c : CoreId)
  /-- NOW fn 0; the value lies `lag` ns, at most 8, before the wall time (R101) -/
  | nowWall (c : CoreId) (d : BitVec 5) (lag : Fin 9)
  /-- NOW fn 1 (R101) -/
  | nowFrame (c : CoreId) (d : BitVec 5)
  /-- NOW fn 2 (R101) -/
  | nowCycles (c : CoreId) (d : BitVec 5)
  /-- BRK; the low bits are ignored (R102) -/
  | brk (c : CoreId) (code : BitVec 26)
  /-- TRAP (R103) -/
  | trap (c : CoreId) (code : BitVec 26)
  /-- a requested halt takes effect at the next instruction boundary (R64) -/
  | coreHalt (c : CoreId)
  /-- the host writes LEN and DOORBELL = 1 (R66) -/
  | hostDoorbell (len : BitVec 7)
  /-- the host writes HOST_MBX_OUT_CTRL.ACK = 1 (R67) -/
  | hostMbxOutAck
  /-- a core writes SYS_MBX_IN_CTRL.ACK = 1 (R66) -/
  | sysMbxInAck
  /-- a core writes SYS_MBX_OUT_CTRL with SEND = 1 and LEN (R67) -/
  | sysMbxOutSend (len : BitVec 7)
  /-- the host writes HOST_CORE_CTL[n].HALT = 1 (R62) -/
  | hostCoreHalt (n : Fin 4)
  /-- the host writes HOST_CORE_CTL[n].STEP = 1 (R62) -/
  | hostCoreStep (n : Fin 4)
  /-- the host writes HOST_CORE_CTL[n].RESUME = 1 (R62) -/
  | hostCoreResume (n : Fin 4)
  /-- the host writes HOST_CORE_PC[n] (R62) -/
  | hostCorePcWrite (n : Fin 4) (v : Word)
  /-- debug command 1 (R63) -/
  | dbgReadReg (idx : BitVec 5)
  /-- debug command 2 (R63) -/
  | dbgWriteReg (idx : BitVec 5)
  /-- debug command 3 (R63) -/
  | dbgLdw
  /-- debug command 4 (R63) -/
  | dbgStw
  /-- debug command 5 (R63) -/
  | dbgFrd
  /-- debug command 6 (R63) -/
  | dbgFwr
  /-- the host writes a word of IMEM window n (R65) -/
  | hostImemWrite (n : Fin 4) (off : BitVec 17) (v : Word)
  /-- the host reads or writes a word of the frame-memory window (R65) -/
  | hostFrameWindow (write : Bool) (off : BitVec 30) (v : Word)
  /-- the host unmasks an MSI-X vector (R68) -/
  | msixUnmask (vec : Fin 64)
  /-- a register write (R7) -/
  | registerWrite (t : WriteTarget) (v : Word)
  /-- a CMD WRITE packet arrives at a port of the tile (R54, R281) -/
  | cmdWrite (port : LnkPort) (pkt : Packet)
  /-- a CMD READ packet arrives at a port of the tile (R54, R281) -/
  | cmdRead (port : LnkPort) (pkt : Packet)
  /-- a CMD CLOSE packet arrives at a port of the tile (R54, R281) -/
  | cmdClose (port : LnkPort) (pkt : Packet)
  /-- a CMD SWAP packet arrives at a port of the tile (R54, R281) -/
  | cmdSwap (port : LnkPort) (pkt : Packet)
  /-- a CMD MSG packet arrives at a port of the tile (R54, R281) -/
  | cmdMsg (port : LnkPort) (pkt : Packet)
  /-- a TEL packet of KIND 4 arrives at a chain port (R95) -/
  | telMsg (k : Fin 16) (pkt : Packet)
  /-- a TEL packet of KIND 5 arrives at a chain port (R95) -/
  | telReadData (k : Fin 16) (pkt : Packet)
  /-- a TEL packet of KIND 6 arrives at a chain port (R95) -/
  | telReport (k : Fin 16) (pkt : Packet)
  /-- a TEL packet of KIND 7 arrives at a chain port (R418) -/
  | telEventRecords (k : Fin 16) (pkt : Packet)
  /-- the conditions of a port's link change: lanes in block lock, lanes aligned, RS-FEC codeword lock, HI_BER, local
  and remote fault; `inRx` when a frame is in reception (R112) -/
  | netLink (i : Fin 4) (lanes : BitVec 4) (align fec hiBer lfault rfault inRx : Bool)
  /-- a frame ends on a port: its bytes from the destination address to the last before the FCS, whether the FCS is
  good, and how many ns before now its first bit crossed the balls (R114, R146) -/
  | netRxFrame (i : Fin 4) (bytes : List Byte) (fcsOk : Bool) (lag : Word)
  /-- WIN has passed since a merge timer of flow f started (R131) -/
  | flowMergeTimeout (f : Fin 16)
  /-- PATH_TO has passed on path 1 or 2 of flow f without a packet (R130) -/
  | flowPathTimeout (f : Fin 16) (two : Bool)
  /-- a write of `RING_TAIL` (R138) -/
  | ringTailWrite (r : Fin 64) (v : Word)
  /-- 1 is written to `NET_SNAP` of a port (R121) -/
  | netSnap (i : Fin 4)
  /-- 1 is written to `FLOW_SNAP` (R136) -/
  | flowSnap
  /-- a write of `NET_TXR_TAIL[t]` of a port (R117) -/
  | netTxrTailWrite (i : Fin 4) (t : Fin 2) (v : Word)
  /-- a port ends the next frame of its transmit rings; `poisoned` when read link ECC found an uncorrectable error in
  it (R117, R190); its first bit crossed the balls `lag` ns before now (R146) -/
  | txFrameSent (i : Fin 4) (poisoned : Bool) (lag : Word)
  /-- an RS-FEC codeword or a PCS block arrives with an error (R119) -/
  | rsFecCodeword (i : Fin 4) (err : PcsErr)
  /-- a core of a part reads `TIME_NOW_LO` (R145) -/
  | timeNowRead (p : Part)
  /-- a write of `TIME_SRV_OFS` (R149) -/
  | timeSrvOfsWrite (v : Word)
  /-- a write of `TIME_SET_LO` (R151) -/
  | timeSet (lo : Word)
  /-- `TIME_CTRL.SRC` is written (R152) -/
  | timeSrcChange (src : BitVec 2)
  /-- 1 is written to `TIME_TXQ_POP[i]` (R147) -/
  | timeTxqPop (i : Fin 4)
  /-- a rising edge on PPS_IN (R153) -/
  | ppsEdge
  /-- EXP + WIN is reached without an accepted edge (R153) -/
  | ppsMissing
  /-- no sample for `TIME_HOLD_TO` (R152) -/
  | servoHoldover
  /-- the 10 MHz reference has no edge for 1 µs (R154) -/
  | refLost
  /-- 10 ms after edges of the reference resume (R154) -/
  | refResume
  /-- the TIME packets of `TIME_TXINT` are due (R156) -/
  | timeTx
  /-- a TIME packet arrives at a port of the tile (R158) -/
  | timeRxTile (port : LnkPort) (pkt : Packet)
  /-- a TIME packet arrives at chain port k of the sender (R157) -/
  | timeRxSender (k : Fin 16) (pkt : Packet)
  /-- no TIME from the tile's source for 4 × `TIME_TXINT` (R158) -/
  | timeSrcLost
  /-- a LNK port sends a PROBE; its header leaves at t1, in units of 62.5 ps (R155) -/
  | probeSend (port : LnkPort) (id : Word) (t1 : BitVec 64)
  /-- a PROBE arrives; the ECHO leaves `turn` units of 62.5 ps later (R155) -/
  | probe (port : LnkPort) (pkt : Packet) (turn : Word)
  /-- an ECHO arrives at t4, in units of 62.5 ps (R155) -/
  | echo (port : LnkPort) (pkt : Packet) (t4 : BitVec 64)
  /-- a rising edge on PHASE_IN[j] (R165) -/
  | phaseEdge (j : Fin 4)
  /-- no edge on PHASE_IN[j] for 2 × DIV frame periods (R166) -/
  | phaseLost (j : Fin 4)
  /-- the frame origin of a part is reached (R160) -/
  | frameOrigin (p : Part)
  /-- a SYNC arrives at the cross-link port of a sender (R168) -/
  | crossLinkSync (k : Fin 16) (pkt : Packet)
  /-- `DRC_CTRL.EN` is written 1 (R174) -/
  | drcEnable
  /-- `DRC_CTRL.EN` is written 0 (R179) -/
  | drcDisable
  /-- a write of `DRC_CFG` (R179) -/
  | drcCfgWrite (v : Word)
  /-- a training attempt of channel ch ends; the taps that passed, by tap, in the read and write sweeps of lanes 0
  and 1 (R175, R176) -/
  | drcTrainAttemptEnd (ch : Fin 8) (rd0 rd1 wr0 wr1 : BitVec 256)
  /-- the read-eye check of channel ch; the taps that passed around the centre of lanes 0 and 1, bit 4 at the centre
  (R177) -/
  | drcTrack (ch : Fin 8) (pass0 pass1 : BitVec 9)
  /-- MR4 of the devices of channel ch is read: the refresh-rate code, log2 of the multiplier it requires, whether a
  device is above its limit, and the write link ECC errors reported (R186, R188, R189) -/
  | drcMr4Poll (ch : Fin 8) (code : BitVec 3) (m : Fin 3) (hot : Bool) (wrEcc : Word)
  /-- a per-bank refresh of a bank of channel ch falls due; banks 16 to 31 are those of rank 1 (R187) -/
  | drcRefresh (ch : Fin 8) (bank : Fin 32)
  /-- a port reads a unit; on ports 0 to 3, the chain whose pipe reads and the deadline it attaches (R181, R184) -/
  | dramReadRequest (port : Fin 12) (unit : BitVec 29) (chain : Fin 16) (deadline : Word)
  /-- a port writes the bytes of a unit that `en` enables (R183) -/
  | dramWriteRequest (port : Fin 12) (unit : BitVec 29) (en : BitVec 64) (data : List Byte)
  /-- the engine of channel ch issues its next request; what read link ECC finds in the read of a merge (R182, R185) -/
  | dramIssue (ch : Fin 8) (ecc : Ecc)
  /-- the data of the oldest issued read of channel ch return (R189) -/
  | dramReadComplete (ch : Fin 8) (ecc : Ecc)
  /-- a bandwidth window ends (R193) -/
  | drcBwWindow
  /-- `DRC_TEST_CTRL.FILL` is written 1 (R196) -/
  | drcTestFill
  /-- `DRC_TEST_CTRL.CHECK` is written 1 (R196) -/
  | drcTestCheck
  /-- the test engine finishes (R196) -/
  | testDone
  /-- the pipe of chain k begins the composition of a slot (R206) -/
  | compositionStart (k : Fin 16) (slot : Fin 8)
  /-- the pipe of chain k issues the fetch of line `row` of the source of descriptor d (R209) -/
  | layerFetch (k : Fin 16) (d : Fin 64) (row : BitVec 14)
  /-- a parity error in unit u of pipe p (R207) -/
  | layerUnitParity (p : Fin 17) (u : Fin 16)
  /-- an uncorrectable ECC error in pipe p (R207) -/
  | pipeEccError (p : Fin 17)
  /-- the preview flow starts at a frame origin; `sent` packets of an unfinished preview frame have left (R216) -/
  | previewStart (sent : Nat)
  /-- the last packet of a preview frame leaves; the packets, by number, that read link ECC poisoned (R190, R216) -/
  | pvFrame (poisoned : List Nat)
  /-- the next raster line starts; the highest level of each chain's transmit pixel queue in it (R243, R246) -/
  | rasterLineStart (levels : List Nat)
  /-- the sender latch point (R245) -/
  | frameLatch
  /-- `LNK_CTRL.EN` of a port is written (R267) -/
  | lnkEnable (port : LnkPort) (en : Bool)
  /-- `LNK_CTRL.RESTART` of a port is written 1 (R292) -/
  | lnkRestart (port : LnkPort)
  /-- `LNK_CTRL.TX_SLEEP` of a port is written (R275) -/
  | lnkTxSleepWrite (port : LnkPort) (sleep : Bool)
  /-- the 1 ms attempt of DETECT: lanes with a far-end termination in each direction, and whether the
  reference is present at a sender B port (R267) -/
  | detectAttempt (port : LnkPort) (txLanes rxLanes : Fin 4) (ref : Bool)
  /-- DETECT has lasted 100 ms (R267) -/
  | lnkNopeer (port : LnkPort)
  /-- the FOMs of receive lanes 0 to 2 under entry e are measured; `far` lanes of the reverse direction
  have FOM at MIN or above under an agreed entry (R268) -/
  | trainEntryMeasured (port : LnkPort) (e : Fin 8) (fom0 fom1 fom2 : Byte) (far : Fin 4)
  /-- TRAIN has lasted 20 ms (R267) -/
  | lnkTrainFail (port : LnkPort)
  /-- LOCK has lasted 2 ms (R267) -/
  | lockTimeout (port : LnkPort)
  /-- the 16 payload bytes of an alignment block arrive on logical lane 0, 1 or 2 (R266) -/
  | alignmentBlock (port : LnkPort) (lane : Fin 3) (bytes : List Byte) (deskewed : Bool) (far : FarEnd)
  /-- an EXCH packet arrives (R269) -/
  | exch (port : LnkPort) (pkt : Packet)
  /-- the 20 µs EXCH of EXCHANGE is due (R269) -/
  | exchSend (port : LnkPort)
  /-- EXCHANGE has lasted 10 ms (R267) -/
  | exchangeTimeout (port : LnkPort)
  /-- a receive physical lane fails (R271) -/
  | laneFail (port : LnkPort) (lane : Fin 3)
  /-- the agreed boundary of a swap is reached; `tx` is the transmit direction (R272) -/
  | laneSwap (port : LnkPort) (tx : Bool)
  /-- the FOM of a failed lane has stayed at MIN or above for 100 ms (R272) -/
  | spareRestore (port : LnkPort) (tx : Bool) (lane : Fin 3) (fom : Byte)
  /-- the FOM of a receive lane has stayed below WARN for 100 ms (R271) -/
  | lnkEqWeak (port : LnkPort) (lane : Fin 3) (fom : Byte)
  /-- SLEEP blocks arrive (R275) -/
  | lnkSleep (port : LnkPort)
  /-- a sleeping direction starts to wake: `tx`, the port wakes its transmit direction; else TRAIN blocks
  arrive (R276) -/
  | lnkWakeStart (port : LnkPort) (tx : Bool)
  /-- 200 µs of filler have passed in a direction that wakes (R276) -/
  | lnkWake (port : LnkPort) (tx : Bool)
  /-- the reference of the tile's U port, or of a sender B port, shows no edge for 1 µs (R263, R294) -/
  | lnkRefLost (port : LnkPort)
  /-- the reference has had edges for 10 ms (R263) -/
  | refRestored (port : LnkPort)
  /-- a packet that the tile does not consume arrives at a port of the tile (R283) -/
  | packetForward (port : LnkPort) (pkt : Packet)
  /-- a packet that a sender discards arrives at a chain port (R283) -/
  | lnkDiscard (k : Fin 16) (pkt : Packet)
  /-- a packet boundary of an outbound port of the tile, with `level` words in its bypass buffer, and
  `peak` words at most while an own packet goes out (R285) -/
  | ownPacketSend (port : LnkPort) (level peak : Fin 129)
  /-- GO on chain port k; the pair has been idle for 60 µs (R289) -/
  | pvGo (k : Fin 16)
  /-- ABORT on chain port k (R294) -/
  | pvAbort (k : Fin 16)
  /-- the random wait after a collision ends (R289) -/
  | pvRetry (k : Fin 16)
  /-- a response frame, preamble to CRC, arrives at chain port k (R289) -/
  | pvResponse (k : Fin 16) (bytes : List Byte)
  /-- 120 µs pass without a response (R289) -/
  | pvNoAnswer (k : Fin 16)
  /-- the pair of chain port k stays below 2.0 V for 10 ms while idle (R294) -/
  | pvBias (k : Fin 16)
  /-- the sender finishes sending its request frame (R289) -/
  | pvRequestEnd (k : Fin 16)
  /-- 46 µs after a PING the sender samples the pair, low if a tile pulls it (R290) -/
  | pingPresenceSample (k : Fin 16) (low : Bool)
  /-- the sender sees the pair low in a half-bit it sends high (R289) -/
  | porvalCollisionSeen (k : Fin 16)
  /-- a ROLL_RESET frame, preamble to CRC, reaches the tile (R290) -/
  | rollReset (bytes : List Byte)
  /-- a PING frame reaches the tile (R290) -/
  | ping (bytes : List Byte)
  /-- a NOTE frame reaches the tile (R290) -/
  | note (bytes : List Byte)
  /-- an IDENT frame reaches the tile (R290) -/
  | ident (bytes : List Byte)
  /-- an ACC_READ frame reaches the tile (R290) -/
  | accRead (bytes : List Byte)
  /-- a CHALLENGE frame reaches the tile (R437) -/
  | challenge (bytes : List Byte)
  /-- a FETCH frame reaches the tile (R437) -/
  | fetch (bytes : List Byte)
  /-- a WAKE frame reaches the tile (R290) -/
  | wake (bytes : List Byte)
  /-- the renewals of chain k are due (R302) -/
  | renewSend (k : Fin 16)
  /-- the claims of chain k are due (R302) -/
  | claimSend (k : Fin 16)
  /-- a RELEASE copy of chain k is due (R302, R310) -/
  | releaseSend (k : Fin 16)
  /-- a LOAN RENEW arrives at a port of the tile (R298) -/
  | loanRenew (port : LnkPort) (pkt : Packet)
  /-- a LOAN CLAIM arrives at a port of the tile (R298) -/
  | loanClaim (port : LnkPort) (pkt : Packet)
  /-- a LOAN RELEASE arrives at a port of the tile (R298) -/
  | loanRelease (port : LnkPort) (pkt : Packet)
  /-- the release time E of the tile's record arrives (R298) -/
  | loanReleased
  /-- the expiry of the tile's record is reached (R298) -/
  | loanExpired
  /-- the tile has been in NONE for `LOAN_ORPHAN_TO` (R309) -/
  | loanOrphan
  /-- the tile's STATE report is due (R297) -/
  | stateSend
  /-- a LOAN STATE arrives at chain port k (R304) -/
  | loanState (k : Fin 16) (pkt : Packet)
  /-- no STATE from a position of chain k for 3 ms (R304) -/
  | seenTimeout (k : Fin 16) (pos : Fin 64)
  /-- the BEATs of an interval are due (R306) -/
  | beatSend
  /-- a BEAT arrives at chain port k (R307) -/
  | beat (k : Fin 16) (pkt : Packet)
  /-- no beat on chain k for MISS × INT (R307) -/
  | chainBeatLost (k : Fin 16)
  /-- no beat on the cross path for MISS × INT (R307) -/
  | xpathLost
  /-- a write of `LOAN_XBEAT` (R306) -/
  | loanXbeat (v : Word)
  /-- a write of `LOAN_EXCL_LO[k]` or `LOAN_EXCL_HI[k]` (R305) -/
  | loanExclWrite (k : Fin 16) (hi : Bool) (v : Word)
  /-- a write of `LOAN_STK_CMD` with GO (R310) -/
  | loanStkGo (chains : BitVec 16)
  /-- a scheduled stocktake falls due at frame F (R310) -/
  | stocktakeDue (f : Word)
  /-- E − 1 ms of the one-shot or of the scheduled stocktake (R310) -/
  | stocktakeCheck (oneShot : Bool)
  /-- E + 3 ms of the one-shot or of the scheduled stocktake (R311) -/
  | stocktakeResult (oneShot : Bool)
  /-- a PIX arrives at a port of the tile (R319) -/
  | pix (port : LnkPort) (pkt : Packet)
  /-- an ABORT arrives at a port of the tile (R321) -/
  | abort (port : LnkPort) (pkt : Packet)
  /-- a SYNC arrives at a port of the tile (R322) -/
  | sync (port : LnkPort) (pkt : Packet)
  /-- a SIG arrives at a port of the tile (R328) -/
  | sig (port : LnkPort) (pkt : Packet)
  /-- START of slot 0 of the closed frame is reached (R324) -/
  | pixSwap
  /-- the window of a slot of frame f starts (R324, R356) -/
  | slotWindowStart (f : Word) (slot : Fin 8)
  /-- the tile's latch point (R359, R360) -/
  | tileLatchPoint
  /-- a region engine takes the pixel (x, y) of the slot that is scanned; what the checks of its pixel-store
  word, in row `row` of its block, and of its correction word find (R331, R339, R340) -/
  | pixelCorrect (x : BitVec 8) (y : BitVec 7) (pix : Ecc) (row : BitVec 9) (cor : Ecc)
  /-- the scrubber has read both correction banks (R340) -/
  | corScrub (errs : List ScrubErr)
  /-- a write of `PIX_DARK_CLR` (R339) -/
  | pixDarkClr (m : BitVec 4)
  /-- a write of the correction-store window, by folio address (R334) -/
  | correctionWindowWrite (addr v : Word)
  /-- 1 is written to `COR_COPY.GO` (R336) -/
  | corCopyGo
  /-- the copy of the active bank ends (R336) -/
  | corCopyDone
  /-- the identity fill after reset ends (R338) -/
  | identityFillDone
  /-- the next line slot of the running scan (R352) -/
  | lineSlot (obs : LineObs)
  /-- a lamp has had no reading for 256 scanned frames (R375) -/
  | lampUnmeasured (line : Fin 32) (pad : Fin 3072)
  /-- a write of `DIAG_SG_OFF` (R386) -/
  | diagSgOffWrite (v : BitVec 16)
  /-- 1 is written to `DIAG_FLIST_CLR` (R383) -/
  | diagFlistClr
  /-- a colour-trim cycle is due; in the test of the reference sinks each is driven alone: bit c of `own` tells that sink c
  carries current, bits 2c and 2c + 1 of `near` that one of sinks c and c + 1 carries current while the other is driven, and
  the list holds the pad voltages of the driven sinks in mV (R365, R389) -/
  | trimCycleStart (own : BitVec 3) (near : BitVec 4) (mv : List Nat)
  /-- an I²C transfer of the cycle completes, with the bytes it read (R365) -/
  | trimI2cTransfer (bytes : List Byte)
  /-- a NACK, a stretch past TO or a busy bus ends a transfer (R367) -/
  | trimI2cErr
  /-- 10 ms after a failed transfer (R367) -/
  | trimI2cRetry
  /-- a conversion window ends with the counts of the part's sensors (R396) -/
  | thmConversion (p : Part) (counts : List (BitVec 20))
  /-- 1 is written to `THM_LEHR_EXIT` (R406) -/
  | thmLehrExitWrite (p : Part)
  /-- a core writes 1 to `EVT_LOG_POP` (R418) -/
  | evtLogPop
  /-- a core writes 1 to `EVT_TLOG_POP` (R418) -/
  | evtTlogPop
  /-- a write of `EVT_ROUTE[i]` reaches EVT (R417) -/
  | evtRouteWrite (p : Part) (i : Nat) (v : Word)
  /-- the tile forms a TEL packet of event records (R419) -/
  | telBatchSend
  /-- the due time of ATTEND slot a is reached (R421) -/
  | fltEscalated (p : Part) (a : Fin 16)
  /-- `FLT_SAFE_CMD` is written (R423) -/
  | fltSafeCmd (p : Part) (v : Word)
  /-- 1 is written to `FLT_CLR_FIRST` (R426) -/
  | fltClrFirst (p : Part)
  /-- the collector's self-check of a part ends: `fail` is a parity error or a test report missing or late,
  `recSound` the parity of the accession record (R428) -/
  | collCheck (p : Part) (fail recSound : Bool)
  /-- a parity error in the control node of block n (R429) -/
  | nodeBlock (p : Part) (n : Fin 64)
  /-- a parity error in a region or quadrant control node (R429) -/
  | nodeRegion (p : Part) (r : Fin 4)
  /-- a fabric error within quadrant q touches the traffic of the chain ports 4q + m with bit m set, and of
  NET port q (R429) -/
  | fabricErr (q : Fin 4) (chains : BitVec 4) (net : Bool)
  /-- a fabric error outside one quadrant (R429) -/
  | fabricChip
  /-- GO is written to `IDN_CHAL_CMD` (R436) -/
  | idnChalGo (p : Part)
  /-- the signing engine of a part completes (R436, R437) -/
  | chalDone (p : Part)
  /-- OP 1 is written to `IDN_VFY_CMD` (R438) -/
  | idnVfyHash (p : Part)
  /-- OP 2 is written to `IDN_VFY_CMD`, with CH (R438) -/
  | idnVfyChallenge (p : Part) (ch : Bool)
  /-- the verify engine of a part completes (R438) -/
  | vfyDone (p : Part)
  /-- a core of a part reads `IDN_RAND` (R438) -/
  | idnRandRead (p : Part)
  /-- a write of `IDN_GEN` (R442) -/
  | idnGenWrite (p : Part) (v : Word)
  /-- a catalogue recomputation of a part ends (R442) -/
  | catReady (p : Part)
  /-- CHAIN is written to `IDN_DIG_CMD` for the chain ports of a mask (R443) -/
  | idnDigChain (chains : BitVec 16)
  /-- REQUEST is written to `IDN_DIG_CMD` for the chain ports of a mask (R443) -/
  | idnDigRequest (chains : BitVec 16)
  /-- a DIGEST REQUEST arrives at a port of the tile (R443) -/
  | digestRequest (port : LnkPort) (pkt : Packet)
  /-- a DIGEST CHAIN arrives at a port (R444) -/
  | digestChain (port : LnkPort) (pkt : Packet)
  /-- a DIGEST CATALOGUE arrives at chain port k (R444) -/
  | digestCatalogue (k : Fin 16) (pkt : Packet)
  /-- OPEN with its TARGET (R459); the length is `UPD_DL_LEN`, or word 1 of the packet -/
  | updOpen (src : UpdSrc) (target : Bool)
  /-- the erase of OPEN ends, with or without an error of the flash (R459, R460) -/
  | updEraseDone (p : Part) (ok : Bool)
  /-- LOAD (R459) -/
  | updLoad
  /-- the copy of LOAD ends (R459) -/
  | updLoadDone (ok : Bool)
  /-- a UPD DATA packet arrives at a port of the tile (R460) -/
  | updData (port : LnkPort) (pkt : Packet)
  /-- the oldest DATA packet that waits is programmed (R460) -/
  | updDataProgrammed (ok : Bool)
  /-- a UPD CONTROL QUERY arrives at a port of the tile (R460) -/
  | updQuery (port : LnkPort) (pkt : Packet)
  /-- VERIFY (R462) -/
  | updVerify (src : UpdSrc)
  /-- the checks of VERIFY end (R462) -/
  | updVerifyDone (p : Part)
  /-- ACTIVATE (R463, R466) -/
  | updActivate (src : UpdSrc)
  /-- the punty loader has copied the next 64 KiB block (R463) -/
  | puntyBlockCopied (p : Part)
  /-- the punty loader hashes the active slot (R463) -/
  | puntyCopyDone (p : Part)
  /-- CONFIRM (R464) -/
  | updConfirm (src : UpdSrc)
  /-- ABORT (R458) -/
  | updAbort (src : UpdSrc)
  /-- the confirmation timer of a part expires (R464) -/
  | confirmTimeout (p : Part)
  /-- a UPD ACK arrives at chain port k (R461) -/
  | updAck (k : Fin 16) (pkt : Packet)
  /-- OP DATA is written to `UPD_TX_CMD` (`start`), or the running engine sends its next DATA packet (R461) -/
  | updTxData (start : Bool)
  /-- OP CONTROL is written to `UPD_TX_CMD` with a control OP (R461) -/
  | updTxControl (op : BitVec 4)
  /-- position `pos` of chain k has made no progress for `UPD_TX_TO` (R461) -/
  | updTxTimeout (k : Fin 16) (pos : Fin 64)
  /-- a write of `UPD_OWNER_CMD` (R450) -/
  | updOwnerFuse (p : Part) (v : Word)
  /-- ACCEPT is written to `UPD_SET_CMD` (R468) -/
  | updSetAccept (p : Part)
  /-- ERASE is written to `UPD_FW_CMD` (R469) -/
  | updFwErase (p : Part)
  /-- PROGRAM is written to `UPD_FW_CMD` with NW (R469) -/
  | updFwProgram (p : Part) (nw : BitVec 7)
  /-- the ERASE or PROGRAM of R469 ends -/
  | updFwDone (p : Part) (ok : Bool)
  /-- the boot of a part: after a full reset or a core restart (R457) -/
  | boot (p : Part)
  /-- power-on reset of a part; `others` are the causes of the same cycle (R478, R479) -/
  | por (p : Part) (others : List ResetKind)
  /-- RESET_N has been low for 1 µs (R478) -/
  | pinReset (p : Part) (others : List ResetKind)
  /-- a core or IO rail has been below 92 % for 1 µs (R478) -/
  | brownout (p : Part) (others : List ResetKind)
  /-- 0xA5F1 is written to `SYS_RST_CMD` (R478) -/
  | softReset (p : Part) (others : List ResetKind)
  /-- 0xA5C0 is written to `SYS_RST_CMD` (R478) -/
  | coreRestart (p : Part) (others : List ResetKind)
  /-- the internal reset of a part is released; the strap balls (R478, R482) -/
  | internalResetRelease (p : Part) (straps : BitVec 8)
  /-- 0xA5D0 is written to `SYS_PWR_CMD`; WAKE_N is low (R476) -/
  | lowPowerEntry (wakeN : Bool)
  /-- WAKE_N has been low for 1 µs (R476) -/
  | wakeN (others : List ResetKind)
  /-- PERST_N falls, or rises (R478, R476) -/
  | hostPerst (rising : Bool)
  /-- a monitored rail leaves ±5 % of nominal (R488) -/
  | railWarn (p : Part)
  /-- rail n of a part moves into or out of tolerance; n = 31 is the tile's Porval feed from the pair (R487) -/
  | railToleranceChange (p : Part) (n : Fin 32) (ok : Bool)
  /-- the first edge of the tile's U reference (R484) -/
  | uRefFirstEdge
  /-- the Porval domain's own power-on reset is released (R475) -/
  | porvalDomainPor
  /-- the 10 ms pulse of WAKE_OUT_N ends (R477) -/
  | wakeOutPulseEnd
  /-- TAP instruction BYPASS (R509) -/
  | bypass (p : Part)
  /-- TAP instruction SAMPLE/PRELOAD (R509) -/
  | samplePreload (p : Part)
  /-- TAP instruction EXTEST (R509) -/
  | extest (p : Part)
  /-- TAP instruction IDCODE (R509) -/
  | idcode (p : Part)
  /-- TAP instruction CLAMP (R509) -/
  | clamp (p : Part)
  /-- TAP instruction HIGHZ (R509) -/
  | highz (p : Part)
  /-- TRST_N, or five TCK cycles with TMS high (R509) -/
  | tapReset (p : Part)
  /-- the wall time W of a pending commit is reached while no frame schedule runs (R49) -/
  | commitWReached (p : Part)
  /-- a timed WAITE of core c reaches its wall time (R84) -/
  | waiteTimeout (c : CoreId)
  deriving DecidableEq, Repr

end Sys2Proof
end

