-- ==== Sys2Proof/Decode.lean ====
section
/-!
DEFINITION. Words that spell commands. The opcode table gives no row bits: commands are occurrences, not words, so no
word spells one. The instruction words of the Folko cores (R72 to R75) are read by `Machine.decodeFolko`.
-/

namespace Sys2Proof

/-- The command that a word of the opcode table's bits spells: none, since no row has bits. -/
def decodeTableWord (_nbits _w : Nat) : Option Instr := none

end Sys2Proof
end

