-- ==== Sys2Proof/Config.lean ====
section
/-!
DEFINITION. What one implementation fixes and what the spec leaves open. Every constant here is opaque:
nothing can evaluate it, so a claim that names it holds for every value of it. The assumption log says
for each which rule leaves it open.
-/

namespace Sys2Proof.Config

/-- The random source of R438 and the random waits of R289, one word per draw. -/
opaque randomWord : Nat → BitVec 32

/-- `LNK_DEVID`, the device identifier in OTP (R293, R433). -/
opaque devId : Part → BitVec 64

/-- The random bits behind a part's private key, which no access path can read out (R434). -/
opaque keyBits : Part → Nat

/-- The random bits behind Yemaesk's production key (R434). -/
opaque rootBits : Nat

/-- The random bits behind the per-signature secret of a part's certificate (R434). -/
opaque certBits : Part → Nat

/-- `THM_TRIM_N0`, sensor trims in OTP (R409). -/
opaque thmN0 : Part → Nat → BitVec 20

/-- `THM_TRIM_K`, sensor trims in OTP (R409). -/
opaque thmK : Part → Nat → BitVec 16

/-- Whether a value that is not exact is taken up or down where no rule states the rounding: the site's
number and the integer part of the value. -/
opaque roundUp : Nat → Int → Bool

/-- A value that the spec leaves open, by the place that needs it and the count of free values drawn. -/
opaque freeValue : Nat → Nat → BitVec 32

/-- A byte of frame memory that nothing has written since training, by how often training has run and the address
(R176). -/
opaque frameByte : Nat → Nat → BitVec 8

/-- The power of the OOTF, Ys^(γ − 1), of a positive LF24 Ys and GAMMA = 100 × γ: the circuit's value is known to a
relative error below 2⁻¹⁵ only (R228). -/
opaque ootfPower : BitVec 24 → Nat → BitVec 24

/-- The recovery program in mask ROM (R464). -/
opaque recoveryProgram : Part → List (BitVec 8)

/-- What a flash address holds after an erase or a program operation that failed, by the count of free values drawn. -/
opaque flashLeft : Nat → Nat → BitVec 8

/-- The back-channel bytes of an alignment block, whose layout R266 does not give: from `LNK_EQ_SEL`, `LNK_FOM` and where
the port stands in its training. -/
opaque backBytes : BitVec 32 → BitVec 32 → Nat → BitVec 56

/-- The equalisation entry that received back-channel bytes ask for on a transmit physical lane (R268). -/
opaque backEntry : BitVec 56 → Nat → BitVec 3

end Sys2Proof.Config
end

