-- ==== Sys2Proof/Machine/Bits.lean ====
section
/-!
DEFINITION. Bit fields, sign extension, byte order and wall-time comparison, and the sparse maps that
hold register files and memories: a list of key and value pairs with strictly rising keys and no entry
equal to what an unlisted key reads as.
-/

namespace Sys2Proof.Machine

/-! ### Fields -/

/-- Bits [hi:lo] of a word, as a number (spec/00_scope.md). -/
def fld (w : Word) (hi lo : Nat) : Nat := (w.toNat >>> lo) % 2 ^ (hi - lo + 1)

/-- Bit `i` of a word. -/
def bit (w : Word) (i : Nat) : Bool := w.getLsbD i

/-- A word with bits [hi:lo] replaced by the low bits of `v`. -/
def putFld (w : Word) (hi lo v : Nat) : Word :=
  let m : Word := BitVec.ofNat 32 ((2 ^ (hi - lo + 1) - 1) <<< lo)
  (w &&& ~~~m) ||| (BitVec.ofNat 32 (v <<< lo) &&& m)

/-- A word with bit `i` set to `b`. -/
def putBit (w : Word) (i : Nat) (b : Bool) : Word := putFld w i i b.toNat

/-- A word from a number, modulo 2³². -/
abbrev wd (n : Nat) : Word := BitVec.ofNat 32 n

/-- A word from an integer, two's complement, modulo 2³². -/
abbrev wdi (n : Int) : Word := BitVec.ofInt 32 n

/-- Bits [hi:lo] of a word read as two's complement (spec/00_scope.md). -/
def sfld (w : Word) (hi lo : Nat) : Int :=
  let n := fld w hi lo
  let k := hi - lo + 1
  if 2 ^ (k - 1) ≤ n then (n : Int) - 2 ^ k else n

/-- Clamp of an integer between two bounds. -/
def clampI (x lo hi : Int) : Int := max lo (min x hi)

/-- `(a × 2^k)` style arithmetic shift right of an integer, rounding down. -/
def asr (x : Int) (k : Nat) : Int := x / (2 ^ k : Nat)

/-! ### Wall time (R144) -/

/-- W − now as a signed 32-bit value (R144). -/
def timeDiff (w now : Word) : Int := (w - now).toInt

/-- A wall time is reached when W − now is 0 or less (R83, R144). -/
def reached (w now : Word) : Bool := timeDiff w now ≤ 0

/-- `a` is at or after `b` by serial-number arithmetic (R144). -/
def atOrAfter (a b : Word) : Bool := 0 ≤ timeDiff a b

/-! ### Sparse maps -/

/-- The value at a key of a list of pairs. -/
def AMap.find {α : Type} : List (Nat × α) → Nat → Option α
  | [], _ => none
  | (a, v) :: m, k => if a = k then some v else AMap.find m k

/-- The list without a key. -/
def AMap.del {α : Type} : List (Nat × α) → Nat → List (Nat × α)
  | [], _ => []
  | (a, v) :: m, k => if a = k then AMap.del m k else (a, v) :: AMap.del m k

/-- A pair put before the first larger key. -/
def AMap.ins {α : Type} (k : Nat) (v : α) : List (Nat × α) → List (Nat × α)
  | [] => [(k, v)]
  | (a, w) :: m => if k < a then (k, v) :: (a, w) :: m else (a, w) :: AMap.ins k v m

/-- The list with a key's value replaced or added. -/
def AMap.put {α : Type} (m : List (Nat × α)) (k : Nat) (v : α) : List (Nat × α) :=
  AMap.ins k v (AMap.del m k)

/-- The value at a key, with what an unlisted key reads as. -/
def SMap.get {α : Type} (d : Nat → α) (m : List (Nat × α)) (k : Nat) : α := (AMap.find m k).getD (d k)

/-- The map with a key's value set; a value equal to what the key would read as unlisted is not listed. -/
def SMap.set {α : Type} [DecidableEq α] (d : Nat → α) (m : List (Nat × α)) (k : Nat) (v : α) :
    List (Nat × α) :=
  if v = d k then AMap.del m k else AMap.put m k v

/-- Keys strictly rise. -/
def AMap.sorted {α : Type} : List (Nat × α) → Bool
  | [] => true
  | (a, _) :: m => m.all (fun p => decide (a < p.1)) && AMap.sorted m

/-- The canonical form: keys strictly rise and no entry equals what its key reads as unlisted. -/
def SMap.wf {α : Type} [DecidableEq α] (d : Nat → α) (m : List (Nat × α)) : Bool :=
  AMap.sorted m && m.all (fun p => decide (p.2 ≠ d p.1))

/-! ### Byte memories (R5) -/

/-- Four bytes as a word, the lowest address least significant (R5). -/
def wordOf (b0 b1 b2 b3 : Byte) : Word := b3 ++ b2 ++ b1 ++ b0

/-- Byte `i` of a word, 0 the least significant (R5). -/
def byteOf (w : Word) (i : Nat) : Byte := (w >>> (8 * i)).setWidth 8

/-- A byte memory is in its canonical form. -/
def Memory.wf (d : Nat → Byte) (m : List Host.Cell) : Bool := SMap.wf d m

/-- A word read from a byte memory, little-endian (R5). -/
def Mem.readWord (d : Nat → Byte) (m : List Host.Cell) (a : Nat) : Word :=
  wordOf (SMap.get d m a) (SMap.get d m (a + 1)) (SMap.get d m (a + 2)) (SMap.get d m (a + 3))

/-- A word written to a byte memory, little-endian (R5). -/
def Mem.writeWord (d : Nat → Byte) (m : List Host.Cell) (a : Nat) (w : Word) : List Host.Cell :=
  SMap.set d (SMap.set d (SMap.set d (SMap.set d m a (byteOf w 0)) (a + 1) (byteOf w 1)) (a + 2) (byteOf w 2))
    (a + 3) (byteOf w 3)

/-- Consecutive bytes read from a byte memory. -/
def Mem.readBytes (d : Nat → Byte) (m : List Host.Cell) (a : Nat) : Nat → List Byte
  | 0 => []
  | n + 1 => SMap.get d m a :: Mem.readBytes d m (a + 1) n

/-- Consecutive bytes written to a byte memory. -/
def Mem.writeBytes (d : Nat → Byte) (m : List Host.Cell) (a : Nat) : List Byte → List Host.Cell
  | [] => m
  | b :: bs => Mem.writeBytes d (SMap.set d m a b) (a + 1) bs

/-- Consecutive words read from a byte memory. -/
def Mem.readWords (d : Nat → Byte) (m : List Host.Cell) (a : Nat) : Nat → List Word
  | 0 => []
  | n + 1 => Mem.readWord d m a :: Mem.readWords d m (a + 4) n

/-- Consecutive words written to a byte memory. -/
def Mem.writeWords (d : Nat → Byte) (m : List Host.Cell) (a : Nat) : List Word → List Host.Cell
  | [] => m
  | w :: ws => Mem.writeWords d (Mem.writeWord d m a w) (a + 4) ws

/-- Words of a list of bytes, four bytes a word, most significant byte first (R278). -/
def wordsBE : List Byte → List Word
  | a :: b :: c :: d :: t => wordOf d c b a :: wordsBE t
  | _ => []

/-- Bytes of words, most significant byte first (R278). -/
def bytesBE : List Word → List Byte
  | [] => []
  | w :: ws => byteOf w 3 :: byteOf w 2 :: byteOf w 1 :: byteOf w 0 :: bytesBE ws

/-- Bytes of words, least significant byte first (R5). -/
def bytesLE : List Word → List Byte
  | [] => []
  | w :: ws => byteOf w 0 :: byteOf w 1 :: byteOf w 2 :: byteOf w 3 :: bytesLE ws

/-- Words of a list of bytes, four bytes a word, least significant byte first (R5). -/
def wordsLE : List Byte → List Word
  | a :: b :: c :: d :: t => wordOf a b c d :: wordsLE t
  | _ => []

/-- A number from bytes, most significant first. -/
def natBE (bs : List Byte) : Nat := bs.foldl (fun n b => n * 256 + b.toNat) 0

/-- `n` bytes of a number, most significant first. -/
def bytesOfNatBE : Nat → Nat → List Byte
  | 0, _ => []
  | n + 1, v => BitVec.ofNat 8 (v / 256 ^ n) :: bytesOfNatBE n v

/-- A number from words, most significant first. -/
def natOfWordsBE (ws : List Word) : Nat := ws.foldl (fun n w => n * 2 ^ 32 + w.toNat) 0

/-- The list with its `i`-th element changed, if it has one. -/
def listModify {α : Type} (l : List α) (i : Nat) (f : α → α) : List α :=
  match l, i with
  | [], _ => []
  | x :: xs, 0 => f x :: xs
  | x :: xs, i + 1 => x :: listModify xs i f

end Sys2Proof.Machine
end

