-- ==== Sys2Proof/Machine/Crc.lean ====
section
/-!
DEFINITION. The three checks of the links: CRC-32C (R218), CRC-8 of a packet header (R277) and CRC-16
of Porval frames and alignment blocks (R288, R266).
-/

namespace Sys2Proof.Machine

/-- One bit of the reflected CRC-32C (R218). -/
def crc32cBit (c : Nat) : Nat := if c % 2 = 1 then (c / 2) ^^^ 0x82F63B78 else c / 2

/-- Eight bits of the reflected CRC-32C. -/
def crc32cBits8 (c : Nat) : Nat :=
  crc32cBit (crc32cBit (crc32cBit (crc32cBit (crc32cBit (crc32cBit (crc32cBit (crc32cBit c)))))))

/-- The CRC-32C register after a list of bytes. -/
def crc32cUpd (c : Nat) (bs : List Byte) : Nat :=
  bs.foldl (fun c b => crc32cBits8 (c ^^^ b.toNat)) c

/-- CRC-32C of a list of bytes (R218). -/
def crc32c (bs : List Byte) : Word := BitVec.ofNat 32 (crc32cUpd 0xFFFFFFFF bs ^^^ 0xFFFFFFFF)

/-- One bit of an unreflected CRC of width `n`. -/
def crcMsbBit (n poly c : Nat) : Nat :=
  let d := c * 2
  if 2 ^ n ≤ d then (d - 2 ^ n) ^^^ poly else d

/-- An unreflected CRC of width `n` over bytes, most significant bit first. -/
def crcMsb (n poly init : Nat) (bs : List Byte) : Nat :=
  bs.foldl (fun c b =>
    let c := c ^^^ (b.toNat * 2 ^ (n - 8))
    (List.replicate 8 ()).foldl (fun c _ => crcMsbBit n poly c) c) init

/-- CRC-8 of R277 over the seven header bytes before HCRC. -/
def crc8 (bs : List Byte) : Nat := crcMsb 8 0x07 0xFF bs

/-- CRC-16 of R288. -/
def crc16 (bs : List Byte) : Nat := crcMsb 16 0x1021 0xFFFF bs

end Sys2Proof.Machine
end

