-- ==== Sys2Proof/Machine/RegMap.lean ====
section
/-!
DEFINITION. The folio register map: the address of every register (`Reg.<NAME>`), and one row per
register with its access code (R7), its defined bits (R8), its reset value and, where an access has an
effect of its own, the name of that effect (`Hook`). Written from the register maps of spec/02 to
spec/19; each row's comment cites the rule of its map.
-/

namespace Sys2Proof.Machine

/-- Access codes of R7. Registers with mixed fields carry a `Hook`. -/
inductive Acc where | ro | rw | w1c | wo | rc | sh
  deriving DecidableEq, Repr

/-- The registers whose reads or writes have an effect of their own. -/
inductive Hook where
  | none
  | SYS_RST_CMD
  | SYS_PWR_CMD
  | SYS_MBX_IN_CTRL
  | SYS_MBX_OUT_CTRL
  | EVT_CTRL
  | EVT_LOG_POP
  | EVT_TLOG_POP
  | EVT_ROUTE
  | FLT_CTRL
  | FLT_GRACE
  | FLT_SAFE_CMD
  | FLT_CLR_FIRST
  | THM_LEHR_EXIT
  | TIME_CTRL
  | TIME_SRV_OFS
  | TIME_INTEG
  | TIME_TXINT
  | TIME_SET_LO
  | TIME_SET_HI
  | TIME_TXQ_POP
  | NET_CTRL
  | NET_SNAP
  | NET_TXR_CFG
  | NET_TXR_TAIL
  | FLOW_SNAP
  | RING_CFG
  | RING_TAIL
  | DRC_CTRL
  | DRC_CFG
  | DRC_PORT_LAT
  | DRC_TEST_CTRL
  | LNK_CTRL
  | LNK_ROLE
  | LNK_PV_CTRL
  | LNK_PV_CMD
  | LOAN_XBEAT
  | LOAN_STK_CMD
  | LOAN_EXCL_LO
  | LOAN_EXCL_HI
  | IDN_CHAL_CMD
  | IDN_GEN
  | IDN_DIG_CMD
  | IDN_VFY_CMD
  | UPD_CMD
  | UPD_CONF_TO
  | UPD_SET_CMD
  | UPD_FW_CMD
  | UPD_OWNER_CMD
  | UPD_TX_CMD
  | PIX_DARK_CLR
  | COR_COPY
  | DIAG_SG_OFF
  | DIAG_FLIST_CLR
  | TIME_NOW_LO
  | IDN_RAND
  | DIAG_LAMP_STAT
  | SYS_TRCV_LEVEL
  | EVT_LOG_STAT
  | EVT_LOG_W
  | EVT_TLOG_STAT
  | EVT_TLOG_W
  | EVT_TLOG_SRC
  | EVT_TELQ_LEVEL
  | TIME_TXQ_STAT
  | TIME_TXQ_TS
  | FLT_STAT
  | FLT_FIRST
  | FLT_ACC
  | FLT_ATT_ID
  | FLT_ATT_DUE
  | DRC_BAND_MULT
  | IDN_NONCE
  | SCAN_LATCH
  | SCAN_STAT
  | TRIM_STAT
  | DIAG_BLK_STAT
  | LOAN_REC
  | CHN_STAT
  | CHN_RAS_STAT
  | CHN_RAS_NEXT
  | CMP_PIPE_STAT
  | UPD_CONF_LEFT
  deriving DecidableEq, Repr

/-- How the reset value of a register is found. -/
inductive Rst where
  /-- the value of the Reset column -/
  | c (w : Nat)
  /-- the register's own last index -/
  | idx
  | CLR_ENC
  | CLR_MTX
  | CLR_PROF_CTRL
  | CLR_PROF_GAIN
  | CLR_TF
  | CLR_TONE
  | CLR_TONE_END
  | CMP_COEF
  | COR_DEC
  | DRC_PORT_LAT
  | EVT_ROUTE
  | IDN_CERT
  | IDN_PUBKEY
  | IDN_ROOT
  | LNK_DEVID_HI
  | LNK_DEVID_LO
  | LNK_EQ
  | SCAN_ORDER
  | THM_TRIM_K
  | THM_TRIM_N0
  | UPD_EPOCH
  | UPD_OWNER
  deriving DecidableEq, Repr

/-- One row of the register map: base address, index dimensions (count, stride) from the widest
stride down, access code, defined bits, reset value, effect. -/
structure RegRow where
  base : Nat
  dims : List (Nat × Nat)
  acc  : Acc
  mask : Nat
  rst  : Rst
  hook : Hook
  deriving DecidableEq, Repr

/-- pending commit state (R53). -/
def Reg.SYS_CMT_STAT : Nat := 0x10200
/-- folio mask of the pending commit, or of the last applied one (R53). -/
def Reg.SYS_CMT_MASK : Nat := 0x10204
/-- full frame number of the pending commit, or of the last applied one (R53). -/
def Reg.SYS_CMT_PFRAME : Nat := 0x10208
/-- last CMT, BCST or swap result word (R53). -/
def Reg.SYS_CMT_LAST : Nat := 0x1020C
/-- applied commits since reset, wraps at 2³² (R53). -/
def Reg.SYS_CMT_GEN : Nat := 0x10210
/-- rejected commits and refused swaps (R53). -/
def Reg.SYS_CMT_REJ : Nat := 0x10214
/-- writes discarded by R51 (R53). -/
def Reg.SYS_CMT_LOCKDROP : Nat := 0x10218
/-- tile only: remote-write tag state (R53). -/
def Reg.SYS_RW_STAT : Nat := 0x10240
/-- tile only: words written under the current tag (R53). -/
def Reg.SYS_RW_COUNT : Nat := 0x10244
/-- last fault of core n (R107). -/
def Reg.SYS_CORE_FCODE (n : Nat) : Nat := 0x10280 + 0x4 * n
/-- address of the faulting instruction (R107). -/
def Reg.SYS_CORE_FPC (n : Nat) : Nat := 0x10290 + 0x4 * n
/-- value given in R105 (R107). -/
def Reg.SYS_CORE_FADDR (n : Nat) : Nat := 0x102A0 + 0x4 * n
/-- transfer engine of core n (R107). -/
def Reg.SYS_XFER_STAT (n : Nat) : Nat := 0x102B0 + 0x4 * n
/-- [8:0] messages waiting in the receive queue (R107). -/
def Reg.SYS_TRCV_LEVEL : Nat := 0x102C0
/-- messages discarded by R96 (R107). -/
def Reg.SYS_TRCV_DROP : Nat := 0x102C4
/-- [1] FEC_BI: bypass indication; [0] EN: port enabled (R118). -/
def Reg.NET_CTRL (i : Nat) : Nat := 0x80000 + 0x4000 * i
/-- [10] RFAULT; [9] LFAULT; [8] HI_BER; [7:4] LANE_LOCK; [1] ALIGN; [0] LINK (R118). -/
def Reg.NET_STAT (i : Nat) : Nat := 0x80004 + 0x4000 * i
/-- [13:0] largest frame with FCS, 1,518–9,216 bytes (R118). -/
def Reg.NET_MAXLEN (i : Nat) : Nat := 0x80008 + 0x4000 * i
/-- address bytes 2–5, byte 5 in [7:0] (R118). -/
def Reg.NET_MAC_LO (i : Nat) : Nat := 0x8000C + 0x4000 * i
/-- [15:0] address bytes 0–1, byte 1 in [7:0] (R118). -/
def Reg.NET_MAC_HI (i : Nat) : Nat := 0x80010 + 0x4000 * i
/-- [6] DEF_DROP; [5:0] DEF_RING (R118). -/
def Reg.NET_RX_CTRL (i : Nat) : Nat := 0x80014 + 0x4000 * i
/-- [0] 1: snapshot and clear (R118). -/
def Reg.NET_SNAP (i : Nat) : Nat := 0x80020 + 0x4000 * i
/-- snapshots taken since reset (R118). -/
def Reg.NET_SNAP_GEN (i : Nat) : Nat := 0x80024 + 0x4000 * i
/-- counters 0–31 crossed half range (R118). -/
def Reg.NET_HALF0 (i : Nat) : Nat := 0x80030 + 0x4000 * i
/-- counters 32–63 crossed half range (R118). -/
def Reg.NET_HALF1 (i : Nat) : Nat := 0x80034 + 0x4000 * i
/-- event enable for counters 0–31 (R118). -/
def Reg.NET_HALF_EN0 (i : Nat) : Nat := 0x80038 + 0x4000 * i
/-- event enable for counters 32–63 (R118). -/
def Reg.NET_HALF_EN1 (i : Nat) : Nat := 0x8003C + 0x4000 * i
/-- counter j, j = 0–63 (R118). -/
def Reg.NET_CNT (i : Nat) (j : Nat) : Nat := 0x80400 + 0x4000 * i + 0x4 * j
/-- counter j at the last snapshot (R118). -/
def Reg.NET_SNAPV (i : Nat) (j : Nat) : Nat := 0x80500 + 0x4000 * i + 0x4 * j
/-- ring t = 0, 1: descriptor array, units of 16 bytes (R118). -/
def Reg.NET_TXR_BASE (i : Nat) (t : Nat) : Nat := 0x81000 + 0x4000 * i + 0x20 * t
/-- [31] EN; [3:0] SIZE: 2^SIZE descriptors, 4–12 (R118). -/
def Reg.NET_TXR_CFG (i : Nat) (t : Nat) : Nat := 0x81004 + 0x4000 * i + 0x20 * t
/-- [11:0] next descriptor the port sends (R118). -/
def Reg.NET_TXR_HEAD (i : Nat) (t : Nat) : Nat := 0x81008 + 0x4000 * i + 0x20 * t
/-- [11:0] one past the last descriptor given (R118). -/
def Reg.NET_TXR_TAIL (i : Nat) (t : Nat) : Nat := 0x8100C + 0x4000 * i + 0x20 * t
/-- pattern k byte word (R122). -/
def Reg.NET_WPAT (i : Nat) (k : Nat) (w : Nat) : Nat := 0x82000 + 0x4000 * i + 0x80 * k + 0x4 * w
/-- mask bytes 0–31 (R122). -/
def Reg.NET_WMASK_LO (i : Nat) (k : Nat) : Nat := 0x82040 + 0x4000 * i + 0x80 * k
/-- mask bytes 32–63 (R122). -/
def Reg.NET_WMASK_HI (i : Nat) (k : Nat) : Nat := 0x82044 + 0x4000 * i + 0x80 * k
/-- [31] EN; [13:0] MINLEN (R122). -/
def Reg.NET_WCFG (i : Nat) (k : Nat) : Nat := 0x82048 + 0x4000 * i + 0x80 * k
/-- [7:0] pattern k matched (R118). -/
def Reg.NET_WAKE_STAT (i : Nat) : Nat := 0x82400 + 0x4000 * i
/-- [31] EN; [30] P1_EN; [29] P2_EN; [19:16] NBUF; [6:0] PT (R136). -/
def Reg.FLOW_CTRL (f : Nat) : Nat := 0x90000 + 0x100 * f
/-- [31:30] SAMP: 0 4:2:2, 1 4:4:4, 2 RGB; [29:28] DEPTH: 0 10, 1 12, 2 16 bits (R136). -/
def Reg.FLOW_FMT (f : Nat) : Nat := 0x90004 + 0x100 * f
/-- [28:16] HEIGHT; [12:0] WIDTH (R136). -/
def Reg.FLOW_SIZE (f : Nat) : Nat := 0x90008 + 0x100 * f
/-- buffer 0 address, units of 64 bytes (R136). -/
def Reg.FLOW_BASE (f : Nat) : Nat := 0x9000C + 0x100 * f
/-- [19:0] line pitch in bytes (R136). -/
def Reg.FLOW_PITCH (f : Nat) : Nat := 0x90010 + 0x100 * f
/-- buffer stride, units of 64 bytes (R136). -/
def Reg.FLOW_BUFSZ (f : Nat) : Nat := 0x90014 + 0x100 * f
/-- [31:16] PATH_TO in µs; [15:0] WIN in µs (R136). -/
def Reg.FLOW_MERGE (f : Nat) : Nat := 0x90018 + 0x100 * f
/-- destination IPv4 address (R136). -/
def Reg.FLOW_DST_IP (f : Nat) (p : Nat) : Nat := 0x90020 + 0x100 * f + 0x10 * p
/-- [31:30] NETPORT; [29] SRC_CHK; [28] VLAN_CHK; [27:16] VID; [15:0] PORT (R136). -/
def Reg.FLOW_PORT (f : Nat) (p : Nat) : Nat := 0x90024 + 0x100 * f + 0x10 * p
/-- source IPv4 address (R136). -/
def Reg.FLOW_SRC_IP (f : Nat) (p : Nat) : Nat := 0x90028 + 0x100 * f + 0x10 * p
/-- [31] P1_LIVE; [30] P2_LIVE; [27:24] OPEN; [19:16] LATEST buffer (R136). -/
def Reg.FLOW_STAT (f : Nat) : Nat := 0x90080 + 0x100 * f
/-- RTP timestamp of the latest closed frame (R136). -/
def Reg.FLOW_LATEST_TS (f : Nat) : Nat := 0x90084 + 0x100 * f
/-- [31] VALID; [12:0] stale lines in it (R136). -/
def Reg.FLOW_LATEST_STALE (f : Nat) : Nat := 0x90088 + 0x100 * f
/-- wall time of its close (R136). -/
def Reg.FLOW_LATEST_WT (f : Nat) : Nat := 0x9008C + 0x100 * f
/-- [31] VALID; [19:16] buffer; [12:0] complete lines (R136). -/
def Reg.FLOW_WPROG (f : Nat) : Nat := 0x90090 + 0x100 * f
/-- [0] 1: snapshot and clear all FLOW counters (R136). -/
def Reg.FLOW_SNAP : Nat := 0x91000
/-- [17:0] line tallies in use (R136). -/
def Reg.FLOW_TALLY_USED : Nat := 0x91004
/-- ring filters of R125 (R136). -/
def Reg.FLOW_RF (x : Nat) : Nat := 0x93000 + 0x10 * x
/-- j: 0 PKT_P1, 1 PKT_P2, 2 DUP, 3 LATE, 4 FMT_ERR, 5 HDR_ERR, 6 FRAMES, 7 STALE_FRAMES, 8 STALE_LINES, 9 RECOVERED (R136). -/
def Reg.FLOW_CNT (f : Nat) (j : Nat) : Nat := 0x94000 + 0x40 * f + 0x4 * j
/-- j: 0 FRAMES, 1 NOBUF, 2 TOOLONG (R136). -/
def Reg.RING_CNT (r : Nat) (j : Nat) : Nat := 0x94400 + 0x10 * r + 0x4 * j
/-- each counter at 0x4000–0x47FC, at + 0x1000 (R136). -/
def Reg.snapshot_values (x : Nat) : Nat := 0x95000 + 0x4 * x
/-- half-range bits, counter at 0x4000 + 4m, for m = 0–511, in bit m mod 32 of word m div 32 (R136). -/
def Reg.FLOW_HALF (x : Nat) : Nat := 0x96000 + 0x4 * x
/-- descriptor array, units of 16 bytes (R140). -/
def Reg.RING_BASE (r : Nat) : Nat := 0x92000 + 0x40 * r
/-- [31] EN; [27:24] MAXBUF − 1; [15:8] BUFLEN, 4–255; [3:0] SIZE, 4–12 (R140). -/
def Reg.RING_CFG (r : Nat) : Nat := 0x92004 + 0x40 * r
/-- [11:0] next descriptor the port fills (R140). -/
def Reg.RING_HEAD (r : Nat) : Nat := 0x92008 + 0x40 * r
/-- [11:0] one past the last free descriptor (R140). -/
def Reg.RING_TAIL (r : Nat) : Nat := 0x9200C + 0x40 * r
/-- wall time; a read latches the next two (R169). -/
def Reg.TIME_NOW_LO : Nat := 0x50000
/-- S: count bits [63:32] (R169). -/
def Reg.TIME_NOW_HI : Nat := 0x50004
/-- [31:16] fraction of ns (R169). -/
def Reg.TIME_NOW_FRAC : Nat := 0x50008
/-- [12] STEP_EN; [11:8] PORT; [4] REFSEL; [1:0] SRC; S only (R169). -/
def Reg.TIME_CTRL : Nat := 0x5000C
/-- [8] SCHED running; [4] REF_OK; [2:0] STATE (sender R152; tile 0 UNSYNC, 1 LOCKED, 2 HOLD) (R169). -/
def Reg.TIME_STAT : Nat := 0x50010
/-- S: signed ns sample (R169). -/
def Reg.TIME_SRV_OFS : Nat := 0x50014
/-- S: [23:0] KP, 16.8 (R169). -/
def Reg.TIME_KP : Nat := 0x50018
/-- S: [23:0] KI, 16.8 (R169). -/
def Reg.TIME_KI : Nat := 0x5001C
/-- y, signed, units 2⁻³² (R169). -/
def Reg.TIME_RATE : Nat := 0x50020
/-- S: [23:0] clamp (R169). -/
def Reg.TIME_RATE_MAX : Nat := 0x50024
/-- S: I, signed; writes act in FREE and HOLDOVER only (R169). -/
def Reg.TIME_INTEG : Nat := 0x50028
/-- S: ns (R169). -/
def Reg.TIME_LOCK_THR : Nat := 0x5002C
/-- ns; sender reset 0x0000_2710 (R169). -/
def Reg.TIME_STEP_THR : Nat := 0x50030
/-- S: ms (R169). -/
def Reg.TIME_HOLD_TO : Nat := 0x50034
/-- last sample or tile error, signed ns (R169). -/
def Reg.TIME_LAST_OFS : Nat := 0x50038
/-- sender: µs between TIME packets; tile: the interval R158 uses; 10–1,000 µs; a write outside the range is discarded (R169). -/
def Reg.TIME_TXINT : Nat := 0x5003C
/-- S: last PPS edge (R169). -/
def Reg.TIME_PPS_CAP : Nat := 0x50040
/-- S: expected wall time of the next edge (R169). -/
def Reg.TIME_PPS_EXP : Nat := 0x50044
/-- S: signed ns (R169). -/
def Reg.TIME_PPS_DLY : Nat := 0x50048
/-- S: ns (R169). -/
def Reg.TIME_PPS_WIN : Nat := 0x5004C
/-- S: sets the count by R151 (R169). -/
def Reg.TIME_SET_LO : Nat := 0x50050
/-- S: held until TIME_SET_LO is written (R169). -/
def Reg.TIME_SET_HI : Nat := 0x50054
/-- S: signed ns (R169). -/
def Reg.TIME_RX_ADJ (i : Nat) : Nat := 0x50080 + 0x8 * i
/-- S: signed ns (R169). -/
def Reg.TIME_TX_ADJ (i : Nat) : Nat := 0x50084 + 0x8 * i
/-- S: [31] VALID; [22:16] LEVEL, 0–64; [15:0] TSID of the head (R169). -/
def Reg.TIME_TXQ_STAT (i : Nat) : Nat := 0x500C0 + 0x10 * i
/-- S: stamp of the head (R169). -/
def Reg.TIME_TXQ_TS (i : Nat) : Nat := 0x500C4 + 0x10 * i
/-- S: [0] 1 removes the head (R169). -/
def Reg.TIME_TXQ_POP (i : Nat) : Nat := 0x500C8 + 0x10 * i
/-- S: stamps dropped (R169). -/
def Reg.TIME_TXQ_DROP (i : Nat) : Nat := 0x500CC + 0x10 * i
/-- frame whose origin last passed (R169). -/
def Reg.TIME_FRM_NUM : Nat := 0x50100
/-- its O_N (R169). -/
def Reg.TIME_FRM_ORIGIN : Nat := 0x50104
/-- S: last accepted edge (R169). -/
def Reg.TIME_PH_CAP (j : Nat) : Nat := 0x50140 + 0x10 * j
/-- S: last e, signed ns (R169). -/
def Reg.TIME_PH_ERR (j : Nat) : Nat := 0x50144 + 0x10 * j
/-- S: [4] WIN_OK; [1:0] state of R166 (R169). -/
def Reg.TIME_PH_STAT (j : Nat) : Nat := 0x50148 + 0x10 * j
/-- current slot offset, signed ns; in the sender never below the lower limit of R165 (R169). -/
def Reg.TIME_SLOT_CUR (s : Nat) : Nat := 0x50180 + 0x4 * s
/-- [23:0] hop delay in ps; tile k = 0 U, 1 D (R169). -/
def Reg.TIME_HOP (k : Nat) : Nat := 0x50200 + 0x4 * k
/-- [31] RUN; [3:0] SLOTS (R169). -/
def Reg.TIME_FRM_CTRL : Nat := 0x51000
/-- integer ns, 8,333,333 (R169). -/
def Reg.TIME_FRM_PER : Nat := 0x51004
/-- fraction, units 2⁻³² ns (R169). -/
def Reg.TIME_FRM_PERF : Nat := 0x51008
/-- wall time of origin of frame SNUM (R169). -/
def Reg.TIME_FRM_START : Nat := 0x5100C
/-- frame number (R169). -/
def Reg.TIME_FRM_SNUM : Nat := 0x51010
/-- [31] LOCK; [30:29] input j; [25:0] offset, ns (R169). -/
def Reg.TIME_SLOT_OFS (s : Nat) : Nat := 0x51020 + 0x8 * s
/-- [25:0] ns (R169). -/
def Reg.TIME_SLOT_LEN (s : Nat) : Nat := 0x51024 + 0x8 * s
/-- S: [31] EN; [19:16] DIV, 1–8, 1 at reset; [15:0] SLEW, ns (R169). -/
def Reg.TIME_PH_CFG (j : Nat) : Nat := 0x51080 + 0x10 * j
/-- S: signed ns (R169). -/
def Reg.TIME_PH_DLY (j : Nat) : Nat := 0x51084 + 0x10 * j
/-- S: signed ns from edge (R169). -/
def Reg.TIME_CAM_OPEN (j : Nat) : Nat := 0x51088 + 0x10 * j
/-- S: ns (R169). -/
def Reg.TIME_CAM_LEN (j : Nat) : Nat := 0x5108C + 0x10 * j
/-- [31] READY; [30] FAIL; [27:24] training attempts; [17:16] log2 of m; [10:8] MR4 refresh-rate code (R194). -/
def Reg.DRC_CH_STAT (i : Nat) : Nat := 0xA0000 + 0x1000 * i
/-- lane L = 0, 1: [23:16] left edge; [15:8] right edge; [7:0] trained centre (R194). -/
def Reg.DRC_TRN_RD (i : Nat) (L : Nat) : Nat := 0xA0004 + 0x1000 * i + 0x4 * L
/-- as DRC_TRN_RD, for write delay (R194). -/
def Reg.DRC_TRN_WR (i : Nat) (L : Nat) : Nat := 0xA000C + 0x1000 * i + 0x4 * L
/-- [15:8] current read centre of lane 1; [7:0] of lane 0 (R194). -/
def Reg.DRC_TRK (i : Nat) : Nat := 0xA0014 + 0x1000 * i
/-- corrected read bursts (R194). -/
def Reg.DRC_ECC_CORR (i : Nat) : Nat := 0xA0020 + 0x1000 * i
/-- uncorrectable read bursts (R194). -/
def Reg.DRC_ECC_UNCORR (i : Nat) : Nat := 0xA0024 + 0x1000 * i
/-- unit of the last uncorrectable burst, units of 64 bytes (R194). -/
def Reg.DRC_ERR_ADDR (i : Nat) : Nat := 0xA0028 + 0x1000 * i
/-- write link ECC errors reported by the devices (R194). -/
def Reg.DRC_WR_ECC (i : Nat) : Nat := 0xA002C + 0x1000 * i
/-- [19:16] highest since reset; [3:0] refreshes now postponed (R194). -/
def Reg.DRC_REF_POST (i : Nat) : Nat := 0xA0030 + 0x1000 * i
/-- accesses to an open page (R194). -/
def Reg.DRC_PAGE_HIT (i : Nat) : Nat := 0xA0040 + 0x1000 * i
/-- accesses that opened a page (R194). -/
def Reg.DRC_PAGE_MISS (i : Nat) : Nat := 0xA0044 + 0x1000 * i
/-- [22:16] highest since reset; [6:0] entries now (R194). -/
def Reg.DRC_WQ_LEVEL (i : Nat) : Nat := 0xA0048 + 0x1000 * i
/-- [1] TRACK_EN; [0] EN (R195). -/
def Reg.DRC_CTRL : Nat := 0xAC000
/-- [13:12] MAP; [8] RANKS: 0 one, 1 two; [5:4] SIZE: 0 512 MiB, 1 1 GiB, 2 2 GiB, 3 4 GiB per channel; [2:0] RATE: 0 3200, 1 4267, 2 5500, 3 6400, 4 7500, 5 8533 MT/s (R195). -/
def Reg.DRC_CFG : Nat := 0xAC004
/-- [23:16] CH_FAIL; [15:8] CH_READY; [0] READY (R195). -/
def Reg.DRC_STAT : Nat := 0xAC008
/-- log2 of m per band: [9:8] CRITICAL; [7:6] HOT; [5:4] WARM; [3:2] NORMAL; [1:0] COLD; value 3 acts as 2 (R195). -/
def Reg.DRC_BAND_MULT : Nat := 0xAC00C
/-- [19:0] limit in MB/s, 100,000 (R195). -/
def Reg.DRC_BW_LIM : Nat := 0xAC010
/-- [19:0] average of the last window, MB/s (R195). -/
def Reg.DRC_BW_LAST : Nat := 0xAC014
/-- [19:0] highest window average since last read (R195). -/
def Reg.DRC_BW_MAX : Nat := 0xAC018
/-- [23:0] latency target of port p in ns, 500–1,000,000; a write outside the range is discarded (R195). -/
def Reg.DRC_PORT_LAT (p : Nat) : Nat := 0xAC040 + 0x4 * p
/-- units moved by port p; rolls over (R195). -/
def Reg.DRC_PORT_UNITS (p : Nat) : Nat := 0xAC080 + 0x4 * p
/-- late requests of port p (R195). -/
def Reg.DRC_PORT_LATE (p : Nat) : Nat := 0xAC0C0 + 0x4 * p
/-- [23:0] longest completion time in ns since last read (R195). -/
def Reg.DRC_PORT_MAXLAT (p : Nat) : Nat := 0xAC100 + 0x4 * p
/-- [1] CHECK; [0] FILL: start the test engine (R195). -/
def Reg.DRC_TEST_CTRL : Nat := 0xAC200
/-- fill value, repeated in every word (R195). -/
def Reg.DRC_TEST_PAT : Nat := 0xAC204
/-- [31] BUSY; [30] MISMATCH; [29:0] unit of the first mismatch (R195). -/
def Reg.DRC_TEST_STAT : Nat := 0xAC208
/-- source, modes and slot mask (R198). -/
def Reg.LYR_CTRL (d : Nat) : Nat := 0x100000 + 0x80 * d
/-- graphics source address, units of 64 bytes (R198). -/
def Reg.LYR_GBASE (d : Nat) : Nat := 0x100004 + 0x80 * d
/-- [19:0] graphics line pitch in bytes, a multiple of 64 (R198). -/
def Reg.LYR_GPITCH (d : Nat) : Nat := 0x100008 + 0x80 * d
/-- [29:16] graphics height 1–4,096; [13:0] width 1–16,384 (R198). -/
def Reg.LYR_GSIZE (d : Nat) : Nat := 0x10000C + 0x80 * d
/-- [15:0] layer alpha A = value ÷ 65,535 (R198). -/
def Reg.LYR_OPAC (d : Nat) : Nat := 0x100010 + 0x80 * d
/-- [29:16] Y0; [13:0] X0 of the crop in the source (R198). -/
def Reg.LYR_CROP_XY (d : Nat) : Nat := 0x100014 + 0x80 * d
/-- [29:16] height; [13:0] width of the crop (R198). -/
def Reg.LYR_CROP_WH (d : Nat) : Nat := 0x100018 + 0x80 * d
/-- [31:16] DY; [15:0] DX; signed canvas position (R198). -/
def Reg.LYR_DST_XY (d : Nat) : Nat := 0x10001C + 0x80 * d
/-- [29:16] height 1–16,384; [13:0] width 1–16,384 (R198). -/
def Reg.LYR_DST_WH (d : Nat) : Nat := 0x100020 + 0x80 * d
/-- [19:0] media delay in µs for frame selection (R198). -/
def Reg.LYR_DELAY (d : Nat) : Nat := 0x100024 + 0x80 * d
/-- [2:0] colour profile, set out in Colour, tone mapping and wall code (R198). -/
def Reg.LYR_CLR (d : Nat) : Nat := 0x100028 + 0x80 * d
/-- [31] HELD; [19:16] held buffer; [12:0] stale lines in the last composition (R198). -/
def Reg.LYR_STAT (d : Nat) : Nat := 0x100040 + 0x80 * d
/-- RTP timestamp of the held frame (R198). -/
def Reg.LYR_TS (d : Nat) : Nat := 0x100044 + 0x80 * d
/-- [19:0] horizontal step in use, 16.16 unsigned (R198). -/
def Reg.LYR_STEP_X (d : Nat) : Nat := 0x100048 + 0x80 * d
/-- [19:0] vertical step in use, 16.16 unsigned (R198). -/
def Reg.LYR_STEP_Y (d : Nat) : Nat := 0x10004C + 0x80 * d
/-- [31] EN; [27:24] CHAIN; [23:16] SLOTM; [5:0] POS (R217). -/
def Reg.SIG_POS (e : Nat) : Nat := 0x280000 + 0x10 * e
/-- [22:16] Y0, 0–127; [7:0] X0, 0–255; tile pixel coordinates (R217). -/
def Reg.SIG_XY (e : Nat) : Nat := 0x280004 + 0x10 * e
/-- [23:16] H, 1–128; [8:0] W, 1–256 (R217). -/
def Reg.SIG_WH (e : Nat) : Nat := 0x280008 + 0x10 * e
/-- last signature computed (R217). -/
def Reg.SIG_VAL (e : Nat) : Nat := 0x28000C + 0x10 * e
/-- frame number of SIG_VAL[e] (R217). -/
def Reg.SIG_VAL_FRAME (e : Nat) : Nat := 0x281000 + 0x4 * e
/-- [2:0] slot of SIG_VAL[e] (R217). -/
def Reg.SIG_VAL_SLOT (e : Nat) : Nat := 0x281100 + 0x4 * e
/-- [4:0] pipe serving chain port k (R221); pipe k after reset (R29). -/
def Reg.CMP_MAP (k : Nat) : Nat := 0x140000 + 0x4 * k
/-- [29:16] height; [13:0] width (R221). -/
def Reg.CMP_CANVAS : Nat := 0x140040
/-- [0] FO_EN (R221). -/
def Reg.CMP_CTRL : Nat := 0x140044
/-- [31] EN; [26:24] WB_SLOT; [17:16] DIV: 0 1, 1 2, 2 4, 3 8 (R221). -/
def Reg.CMP_WB_CTRL : Nat := 0x140050
/-- units of 64 bytes (R221). -/
def Reg.CMP_WB_BASE : Nat := 0x140054
/-- buffer stride, units of 64 bytes (R221). -/
def Reg.CMP_WB_BUFSZ : Nat := 0x140058
/-- [19:0] bytes (R221). -/
def Reg.CMP_WB_PITCH : Nat := 0x14005C
/-- [31] EN; [29:28] NETPORT; [18:16] PV_DIV − 1; [6:0] PT (R221). -/
def Reg.CMP_PV_CTRL : Nat := 0x140060
/-- [13:0] payload bytes per packet (R221). -/
def Reg.CMP_PV_PLEN : Nat := 0x140064
/-- destination MAC bytes 2–5 (R221). -/
def Reg.CMP_PV_DMAC_LO : Nat := 0x140068
/-- [15:0] destination MAC bytes 0–1 (R221). -/
def Reg.CMP_PV_DMAC_HI : Nat := 0x14006C
/-- destination IPv4 address (R221). -/
def Reg.CMP_PV_DST_IP : Nat := 0x140070
/-- source IPv4 address (R221). -/
def Reg.CMP_PV_SRC_IP : Nat := 0x140074
/-- [31:16] UDP source port; [15:0] destination port (R221). -/
def Reg.CMP_PV_PORTS : Nat := 0x140078
/-- RTP SSRC (R221). -/
def Reg.CMP_PV_SSRC : Nat := 0x14007C
/-- [15:8] TTL; [5:0] DSCP (R221). -/
def Reg.CMP_PV_IPH : Nat := 0x140080
/-- [31] FAILED; [30] SERVING; [19:16] chain port; [15:0] working units (R221). -/
def Reg.CMP_PIPE_STAT (p : Nat) : Nat := 0x141000 + 0x4 * p
/-- [31] ACTIVE; [19:16] chain port; [4:0] failed pipe (R221). -/
def Reg.CMP_FO_STAT : Nat := 0x141080
/-- [31] VALID; [17:16] latest complete buffer (R221). -/
def Reg.CMP_WB_STAT : Nat := 0x141084
/-- frame number of that buffer (R221). -/
def Reg.CMP_WB_FRAME : Nat := 0x141088
/-- [31] SENDING; [17:16] buffer being sent (R221). -/
def Reg.CMP_PV_STAT : Nat := 0x14108C
/-- preview frames completed (R221). -/
def Reg.CMP_PV_SENT : Nat := 0x141090
/-- preview frames cut short (R221). -/
def Reg.CMP_PV_LATE : Nat := 0x141094
/-- stale lines read by R201 (R221). -/
def Reg.CMP_STALE_LINES : Nat := 0x1410A0
/-- lines missed by R202 (R221). -/
def Reg.CMP_LL_MISS : Nat := 0x1410A4
/-- source pixels replaced by R190 (R221). -/
def Reg.CMP_POISON : Nat := 0x1410A8
/-- four coefficient banks (R221). -/
def Reg.CMP_COEF (x : Nat) : Nat := 0x144000 + 0x4 * x
/-- [7:0] TONESEL: bank used in slot s, bit s (R239). -/
def Reg.CLR_CTRL : Nat := 0x180000
/-- profile modes, below (R239). -/
def Reg.CLR_PROF_CTRL (n : Nat) : Nat := 0x180100 + 0x40 * n
/-- [23:0] gain, LF24 (R239). -/
def Reg.CLR_PROF_GAIN (n : Nat) : Nat := 0x180104 + 0x40 * n
/-- [23:0] transfer entry 1,024, LF24 (R239). -/
def Reg.CLR_TF_END (n : Nat) : Nat := 0x180108 + 0x40 * n
/-- [16:0] coefficient of row r, column c′, s2.14 (R239). -/
def Reg.CLR_MTX (n : Nat) (r : Nat) (cc : Nat) : Nat := 0x180110 + 0x40 * n + 0xC * r + 0x4 * cc
/-- [23:0] tone entry 512, LF24 (R239). -/
def Reg.CLR_TONE_END (b : Nat) : Nat := 0x180300 + 0x4 * b
/-- pixels with a component set to 0 by R231 (R239). -/
def Reg.CLR_NEG : Nat := 0x180400
/-- pixels with m at or above 4.0 (R239). -/
def Reg.CLR_OVER : Nat := 0x180404
/-- [23:0] tone entry i, 0–511, LF24 (R239). -/
def Reg.CLR_TONE (b : Nat) (i : Nat) : Nat := 0x181000 + 0x800 * b + 0x4 * i
/-- [23:0] transfer entry i, 0–1,023, LF24 (R239). -/
def Reg.CLR_TF (n : Nat) (i : Nat) : Nat := 0x190000 + 0x1000 * n + 0x4 * i
/-- [19:0] threshold of code c, 0–8,191 (R239). -/
def Reg.CLR_ENC (c : Nat) : Nat := if c < 8192 then 0x1A0000 + 4 * c else 0x1B0000 + 4 * (c - 8192)
/-- mode, fold, scan ratio and length (R257). -/
def Reg.CHN_CTRL (k : Nat) : Nat := 0x1C0000 + k / 8 * 0x10000 + k % 8 * 0x1000
/-- p = 0–63: [29:16] Y; [13:0] X, canvas origin of position p (R257). -/
def Reg.CHN_POS_XY (k : Nat) (p : Nat) : Nat := 0x1C0100 + k / 8 * 0x10000 + k % 8 * 0x1000 + 0x4 * p
/-- [31] SENDING; [30] LINK: transmit direction ACTIVE; [27:24] CAUSE of the last abort; [20:16] pipe serving (R257). -/
def Reg.CHN_STAT (k : Nat) : Nat := 0x1C0400 + k / 8 * 0x10000 + k % 8 * 0x1000
/-- frame of the last SYNC sent (R257). -/
def Reg.CHN_SYNC_FRAME (k : Nat) : Nat := 0x1C0404 + k / 8 * 0x10000 + k % 8 * 0x1000
/-- frame of the last ABORT (R257). -/
def Reg.CHN_ABORT_FRAME (k : Nat) : Nat := 0x1C0408 + k / 8 * 0x10000 + k % 8 * 0x1000
/-- frames closed by SYNC (R257). -/
def Reg.CHN_FRAMES (k : Nat) : Nat := 0x1C040C + k / 8 * 0x10000 + k % 8 * 0x1000
/-- frames aborted by R252 (R257). -/
def Reg.CHN_ABORTS (k : Nat) : Nat := 0x1C0410 + k / 8 * 0x10000 + k % 8 * 0x1000
/-- frames not wholly sent by R251 (R257). -/
def Reg.CHN_UNSENT (k : Nat) : Nat := 0x1C0414 + k / 8 * 0x10000 + k % 8 * 0x1000
/-- [12:0] highest transmit pixel queue level since last read (R257). -/
def Reg.CHN_QMAX (k : Nat) : Nat := 0x1C0418 + k / 8 * 0x10000 + k % 8 * 0x1000
/-- [14:0] HACT, CMP cycles (R258). -/
def Reg.CHN_RAS_HACT : Nat := 0x1C0800
/-- [11:0] HFP, CMP cycles (R258). -/
def Reg.CHN_RAS_HFP : Nat := 0x1C0804
/-- [11:0] HSYNC, CMP cycles (R258). -/
def Reg.CHN_RAS_HSYNC : Nat := 0x1C0808
/-- [11:0] HBP, CMP cycles (R258). -/
def Reg.CHN_RAS_HBP : Nat := 0x1C080C
/-- [7:0] VBP, lines (R258). -/
def Reg.CHN_RAS_VBP : Nat := 0x1C0810
/-- [7:0] VFP, lines (R258). -/
def Reg.CHN_RAS_VFP : Nat := 0x1C0814
/-- [9:0] least vertical sync, lines (R258). -/
def Reg.CHN_RAS_VSYNC : Nat := 0x1C0818
/-- [21:0] LEAD in ns, 200,000 at reset (R258). -/
def Reg.CHN_RAS_LEAD : Nat := 0x1C081C
/-- [31] RUN; [30] VBLANK; [26:24] field in progress; [9:0] line within the frame (R258). -/
def Reg.CHN_RAS_STAT : Nat := 0x1C0840
/-- wall time of the next sender latch point (R258). -/
def Reg.CHN_RAS_NEXT : Nat := 0x1C0844
/-- frames skipped by R255 (R258). -/
def Reg.CHN_RAS_SKIP : Nat := 0x1C0848
/-- fields below (R292). -/
def Reg.LNK_CTRL (i : Nat) : Nat := 0x200000 + 0x2000 * i
/-- fields below (R292). -/
def Reg.LNK_STAT (i : Nat) : Nat := 0x200004 + 0x2000 * i
/-- [21:20], [19:18], [17:16] receive physical lanes of logical 0, 1 and spare (3 none); [13:12], [11:10], [9:8] the same for transmit; [2:0] failed receive lanes (R292). -/
def Reg.LNK_LANES (i : Nat) : Nat := 0x200008 + 0x2000 * i
/-- word 2 of the last EXCH received, ACK cleared (R292). -/
def Reg.LNK_PEER (i : Nat) : Nat := 0x20000C + 0x2000 * i
/-- peer identifier [31:0] (R292). -/
def Reg.LNK_PEER_ID_LO (i : Nat) : Nat := 0x200010 + 0x2000 * i
/-- peer identifier [63:32] (R292). -/
def Reg.LNK_PEER_ID_HI (i : Nat) : Nat := 0x200014 + 0x2000 * i
/-- [23:16], [15:8], [7:0] FOM of receive physical lanes 2, 1, 0 (R292). -/
def Reg.LNK_FOM (i : Nat) : Nat := 0x200018 + 0x2000 * i
/-- [15:8] WARN; [7:0] MIN (R292). -/
def Reg.LNK_FOM_THR (i : Nat) : Nat := 0x20001C + 0x2000 * i
/-- [11:8], [7:4], [3:0] entry in use on receive physical lanes 2, 1, 0 (R292). -/
def Reg.LNK_EQ_SEL (i : Nat) : Nat := 0x200020 + 0x2000 * i
/-- entry e = 0–7, fields below (R292). -/
def Reg.LNK_EQ (i : Nat) (e : Nat) : Nat := 0x200040 + 0x2000 * i + 0x4 * e
/-- packets failing CRC, not stomped (R292). -/
def Reg.LNK_CRC_ERR (i : Nat) : Nat := 0x200080 + 0x2000 * i
/-- stomped packets received (R292). -/
def Reg.LNK_STOMPED (i : Nat) : Nat := 0x200084 + 0x2000 * i
/-- header errors of R283 (R292). -/
def Reg.LNK_HDR_ERR (i : Nat) : Nat := 0x200088 + 0x2000 * i
/-- lane swaps (R292). -/
def Reg.LNK_SWAPS (i : Nat) : Nat := 0x20008C + 0x2000 * i
/-- entries into RETRAIN or DETECT from ACTIVE (R292). -/
def Reg.LNK_RETRAINS (i : Nat) : Nat := 0x200090 + 0x2000 * i
/-- S: packets discarded by R283 (R292). -/
def Reg.LNK_PASSED (i : Nat) : Nat := 0x200094 + 0x2000 * i
/-- tile: own packets dropped by R285 (R292). -/
def Reg.LNK_OWN_DROP (i : Nat) : Nat := 0x200098 + 0x2000 * i
/-- tile: [7:0] highest bypass-buffer level since last read (R292). -/
def Reg.LNK_BYP_MAX (i : Nat) : Nat := 0x20009C + 0x2000 * i
/-- S: [31] BIAS_EN (R292). -/
def Reg.LNK_PV_CTRL (i : Nat) : Nat := 0x200100 + 0x2000 * i
/-- S: [1] ABORT; [0] GO: sends LNK_PV_TX (R292). -/
def Reg.LNK_PV_CMD (i : Nat) : Nat := 0x200104 + 0x2000 * i
/-- S: [31] BUSY; [30:28] RESULT: 0 RESPONSE, 1 PRESENT, 2 ABSENT, 3 NO_ANSWER, 4 BAD_CRC, 5 COLLISION, 6 SENT; [22:16] response bytes; [8] BIAS_SEEN; [3:0] attempts (R292). -/
def Reg.LNK_PV_STAT (i : Nat) : Nat := 0x200108 + 0x2000 * i
/-- S: [6:0] bytes from CMD to the end of the payload, 10–74 (R292). -/
def Reg.LNK_PV_TXLEN (i : Nat) : Nat := 0x20010C + 0x2000 * i
/-- S: frame bytes CMD onward, byte b in word b div 4 at the place R5 gives (R292). -/
def Reg.LNK_PV_TX (i : Nat) (x : Nat) : Nat := 0x200200 + 0x2000 * i + 0x4 * x
/-- S: response bytes CMD onward, after the CRC check (R292). -/
def Reg.LNK_PV_RX (i : Nat) (x : Nat) : Nat := 0x200280 + 0x2000 * i + 0x4 * x
/-- S: [1:0] 1 A, 2 B; other values act as A. Acts only while every port has EN = 0 (R293). -/
def Reg.LNK_ROLE : Nat := 0x220000
/-- tile: [31] VALID; [6:0] position; sender reads 0x0000_007E (R293). -/
def Reg.LNK_POS : Nat := 0x220004
/-- device identifier [31:0] (R293). -/
def Reg.LNK_DEVID_LO : Nat := 0x220008
/-- device identifier [63:32] (R293). -/
def Reg.LNK_DEVID_HI : Nat := 0x22000C
/-- sender: WALL sent in EXCH; tile: RO, as received (R293). -/
def Reg.LNK_WALL : Nat := 0x220010
/-- S: [31] EN; acts only with LNK_ROLE A (R293). -/
def Reg.LNK_SSC : Nat := 0x220014
/-- tile: [1] HOLDOVER; [0] U reference present (R293). -/
def Reg.LNK_REF : Nat := 0x220018
/-- [31] EN; [30] CLAIM_EN; [29] XNET (R315). -/
def Reg.LOAN_CTRL : Nat := 0x240000
/-- [26:0] term, ns; 2,000,000 at reset (R315). -/
def Reg.LOAN_TERM : Nat := 0x240004
/-- [26:0] renewal interval, ns; 500,000 at reset (R315). -/
def Reg.LOAN_RENEW : Nat := 0x240008
/-- [23:16] MISS; [13:0] INT, µs (R315). -/
def Reg.LOAN_BEAT : Nat := 0x24000C
/-- [23:0] frames between stocktakes; 0 none (R315). -/
def Reg.LOAN_STK_INT : Nat := 0x240010
/-- [23:0] frame phase (R315). -/
def Reg.LOAN_STK_PHASE : Nat := 0x240014
/-- [15:0] chains for scheduled stocktakes (R315). -/
def Reg.LOAN_STK_CHN : Nat := 0x240018
/-- [31:30] STATE: 0 OFF, 1 ACTIVE, 2 SAFE; [29] PEER alive; [28] loop path alive on some chain; [27] cross path alive; [23:16] peer's BEAT STATE (R315). -/
def Reg.LOAN_STAT : Nat := 0x240020
/-- SEQ of the last peer BEAT (R315). -/
def Reg.LOAN_BEAT_SEQ : Nat := 0x240024
/-- [15:0] chains whose loop path is alive (R315). -/
def Reg.LOAN_BEAT_CHN : Nat := 0x240028
/-- [23:16] peer STATE; each write is one cross-path beat while the active XNET is 1, and is ignored otherwise (R306) (R315). -/
def Reg.LOAN_XBEAT : Nat := 0x24002C
/-- [0] HOLD (R315). -/
def Reg.LOAN_STK_HOLD : Nat := 0x240030
/-- [31] GO; [15:0] chains (R315). -/
def Reg.LOAN_STK_CMD : Nat := 0x240034
/-- frame F of a one-shot stocktake (R315). -/
def Reg.LOAN_STK_FRAME : Nat := 0x240038
/-- [31] PENDING; [30:28] RESULT of the stocktake last recorded, by R310: 0 DONE, 1 PARTIAL, 2 SKIP_HOLD, 3 SKIP_PEER, 4 SKIP_SPLIT, 5 LATE, 6 SKIP_BUSY; [15:0] chains released (R315). -/
def Reg.LOAN_STK_STAT : Nat := 0x24003C
/-- stocktakes completed DONE (R315). -/
def Reg.LOAN_STK_COUNT : Nat := 0x240040
/-- positions 0–31 held by this sender (R315). -/
def Reg.LOAN_HELD_LO (k : Nat) : Nat := 0x240100 + 0x10 * k
/-- positions 32–63 (R315). -/
def Reg.LOAN_HELD_HI (k : Nat) : Nat := 0x240104 + 0x10 * k
/-- positions 0–31 seen within 3 ms (R315). -/
def Reg.LOAN_SEEN_LO (k : Nat) : Nat := 0x240108 + 0x10 * k
/-- positions 32–63 (R315). -/
def Reg.LOAN_SEEN_HI (k : Nat) : Nat := 0x24010C + 0x10 * k
/-- positions 0–31 excluded by R305 (R315). -/
def Reg.LOAN_EXCL_LO (k : Nat) : Nat := 0x240200 + 0x8 * k
/-- positions 32–63 excluded by R305 (R315). -/
def Reg.LOAN_EXCL_HI (k : Nat) : Nat := 0x240204 + 0x8 * k
/-- [15:0] ms (R316). -/
def Reg.LOAN_ORPHAN_TO : Nat := 0x240004
/-- [31:30] HOLDER: 0 none, 1 A, 2 B; [29:28] RSTATE: 0 NONE, 1 HELD, 2 RELEASING; [27] fresh claim kept (R316). -/
def Reg.LOAN_REC : Nat := 0x240020
/-- expiry of the record (R316). -/
def Reg.LOAN_EXPIRY : Nat := 0x240024
/-- term of the record, ns (R316). -/
def Reg.LOAN_REC_TERM : Nat := 0x240028
/-- E in RELEASING (R316). -/
def Reg.LOAN_REL_TIME : Nat := 0x24002C
/-- grants (R316). -/
def Reg.LOAN_GRANTS : Nat := 0x240030
/-- expiries (R316). -/
def Reg.LOAN_EXPIRIES : Nat := 0x240034
/-- last switch-over gap, ns (R316). -/
def Reg.LOAN_LAST_GAP : Nat := 0x240038
/-- longest gap since last read, ns (R316). -/
def Reg.LOAN_GAP_MAX : Nat := 0x24003C
/-- packets counted by R296 (R316). -/
def Reg.LOAN_BADPKT : Nat := 0x240040
/-- H and S differ (R316). -/
def Reg.LOAN_SBY_MISS : Nat := 0x240050
/-- C and S differ (R316). -/
def Reg.LOAN_SBY_PATH : Nat := 0x240054
/-- values left without a partner (R316). -/
def Reg.LOAN_SBY_UNPAIRED : Nat := 0x240058
/-- [29:24] region; [18:16] slot; [0] 0 senders, 1 path (R316). -/
def Reg.LOAN_SBY_LAST : Nat := 0x24005C
/-- frame of the last check (R316). -/
def Reg.LOAN_SBY_FRAME : Nat := 0x240060
/-- [0] LOSS: 0 HOLD, 1 BLANK (R342). -/
def Reg.PIX_CTRL : Nat := 0x600000
/-- [31:30] RX state: 0 IDLE, 1 OPEN, 2 CLOSED; [29] DISP_VALID; [25:24] bound sender: 0 none, 1 A, 2 B (R342). -/
def Reg.PIX_STAT : Nat := 0x600100
/-- open frame (R342). -/
def Reg.PIX_RX_FRAME : Nat := 0x600104
/-- frame in the display set (R342). -/
def Reg.PIX_DISP_FRAME : Nat := 0x600108
/-- [12:0] packets of the open frame not yet valid (R342). -/
def Reg.PIX_RX_MISSING : Nat := 0x60010C
/-- frames swapped in (R342). -/
def Reg.PIX_SHOWN : Nat := 0x600110
/-- frames not presented by R323 (R342). -/
def Reg.PIX_HELD : Nat := 0x600114
/-- packets missing at accepted SYNCs (R342). -/
def Reg.PIX_LOST : Nat := 0x600118
/-- own PIX packets failing CRC (R342). -/
def Reg.PIX_CRC : Nat := 0x60011C
/-- duplicate packets (R342). -/
def Reg.PIX_DUP : Nat := 0x600120
/-- packets and SYNCs discarded by R319 or R322 (R342). -/
def Reg.PIX_STRAY : Nat := 0x600124
/-- late SYNCs (R342). -/
def Reg.PIX_LATE : Nat := 0x600128
/-- frames abandoned by ABORT (R342). -/
def Reg.PIX_ABORTS : Nat := 0x60012C
/-- open frames abandoned for a later frame (R342). -/
def Reg.PIX_ABANDON : Nat := 0x600130
/-- closed frames abandoned by R325 (R342). -/
def Reg.PIX_OVERRUN : Nat := 0x600134
/-- corrected words (R342). -/
def Reg.PIX_ECC_CORR : Nat := 0x600200
/-- double-bit errors (R342). -/
def Reg.PIX_ECC_UNCORR : Nat := 0x600204
/-- [21:16] block; [8:0] row of the last double-bit error (R342). -/
def Reg.PIX_ECC_LAST : Nat := 0x600208
/-- i = 0–7: spare rows used in block 8i + m, in [4m + 3:4m] (R342). -/
def Reg.PIX_SPARE_USED (i : Nat) : Nat := 0x600220 + 0x4 * i
/-- [3:0] regions dark by R339 or R340 (R342). -/
def Reg.PIX_DARK : Nat := 0x600240
/-- [3:0] 1 returns the region to service (R342). -/
def Reg.PIX_DARK_CLR : Nat := 0x600244
/-- [10:8] OFS_SH, 0–4; [0] EN (R343). -/
def Reg.COR_CTRL : Nat := 0x640000
/-- [31:16] THOT; [15:0] TCOOL; signed, 0.25 °C (R343). -/
def Reg.COR_TANCH : Nat := 0x640004
/-- [8:0] WSTEP, 1–256 (R343). -/
def Reg.COR_WSTEP : Nat := 0x640008
/-- [31] EN; [8:0] W (R343). -/
def Reg.COR_WFORCE : Nat := 0x64000C
/-- [31] ACT; [30] LOADED; [29] COPY_BUSY (R343). -/
def Reg.COR_BSTAT : Nat := 0x640100
/-- [0] GO (R343). -/
def Reg.COR_COPY : Nat := 0x640104
/-- window writes discarded by R336 (R343). -/
def Reg.COR_WDROP : Nat := 0x640108
/-- [31] HOLD; [24:16] W; [8:0] W of region r (R343). -/
def Reg.COR_W (r : Nat) : Nat := 0x640110 + 0x4 * r
/-- lamp values clamped to full scale (R343). -/
def Reg.COR_CLIP : Nat := 0x640120
/-- lamp values with x < 0 (R343). -/
def Reg.COR_FLOOR : Nat := 0x640124
/-- corrected words (R343). -/
def Reg.COR_ECC_CORR : Nat := 0x640200
/-- double-bit errors (R343). -/
def Reg.COR_ECC_UNCORR : Nat := 0x640204
/-- [31] bank; [21:16] block; [4:0] row (R343). -/
def Reg.COR_ECC_LAST : Nat := 0x640208
/-- [31:16] bank 1; [15:0] bank 0: pixels on identity by R340 (R343). -/
def Reg.COR_DEGRADED : Nat := 0x64020C
/-- i = 0–3 bank 0, 4–7 bank 1: spare rows used in block 16(i mod 4) + m, in [2m + 1:2m] (R343). -/
def Reg.COR_SPARE_USED (i : Nat) : Nat := 0x640220 + 0x4 * i
/-- [19:0] DEC of code c, 0–8,191 (R343). -/
def Reg.COR_DEC (c : Nat) : Nat := if c < 8192 then 0x650000 + 4 * c else 0x660000 + 4 * (c - 8192)
/-- [1:0] ACT of R329 (R344). -/
def Reg.SIG_ACT (e : Nat) : Nat := 0x282000 + 0x10 * e
/-- [29:16] R; [13:0] G, wall code (R344). -/
def Reg.SIG_SUBST_RG (e : Nat) : Nat := 0x282004 + 0x10 * e
/-- [13:0] B, wall code (R344). -/
def Reg.SIG_SUBST_B (e : Nat) : Nat := 0x282008 + 0x10 * e
/-- mismatches (R344). -/
def Reg.SIG_MISS : Nat := 0x282800
/-- [29:24] region; [18:16] slot; [1:0] ACT taken (R344). -/
def Reg.SIG_LAST : Nat := 0x282804
/-- frame of SIG_LAST (R344). -/
def Reg.SIG_LAST_FRAME : Nat := 0x282808
/-- regions and slots with no SIG by the SYNC (R344). -/
def Reg.SIG_NOSIG : Nat := 0x28280C
/-- checks skipped by R328 (R344). -/
def Reg.SIG_SKIP : Nat := 0x282810
/-- [31] EN; [5:4] DMODE: 0 LOCAL, 1 WALL; [1] LR_EN; [0] DITH_EN (R369). -/
def Reg.DRV_CTRL : Nat := 0x680000
/-- [9:0] high-range current, 10 µA units (R369). -/
def Reg.DRV_ICUR (c : Nat) : Nat := 0x680004 + 0x4 * c
/-- [3:0] LEVEL: V_PD = 1.0 V + 0.2 V × LEVEL (R369). -/
def Reg.DRV_PDIS : Nat := 0x680010
/-- [15:0] KNEE, signed, 0.25 °C (R369). -/
def Reg.DRV_KNEE : Nat := 0x680020
/-- [15:0] gain lost per 0.25 °C, units 2⁻¹⁶ (R369). -/
def Reg.DRV_SLOPE : Nat := 0x680024
/-- [16:0] FLOOR (R369). -/
def Reg.DRV_FLOOR : Nat := 0x680028
/-- [16:0] GSTEP per latch point (R369). -/
def Reg.DRV_GSTEP : Nat := 0x68002C
/-- [15:0] GUARD, 0.25 °C (R369). -/
def Reg.DRV_GUARD : Nat := 0x680030
/-- [16:0] G_wall, 65,536 = 1.0 (R369). -/
def Reg.DRV_WALL_GAIN : Nat := 0x680034
/-- [31] DERATING: G_loc < 65,536; [30] GUARD; [29] FLOOR; [28] THOLD (R369). -/
def Reg.DRV_STAT : Nat := 0x680100
/-- [15:0] T of R361, signed (R369). -/
def Reg.DRV_TMAX : Nat := 0x680104
/-- [16:0] G_loc (R369). -/
def Reg.DRV_G_LOC : Nat := 0x680108
/-- [16:0] G_tgt (R369). -/
def Reg.DRV_G_TGT : Nat := 0x68010C
/-- [16:0] G_use (R369). -/
def Reg.DRV_G_USE : Nat := 0x680110
/-- lamp values clamped by R346 (R369). -/
def Reg.DRV_CLIP : Nat := 0x680114
/-- [31] EN; [24] GPOL; [21:16] S; [11:8] KLOG; [2:0] DIV − 1 (R370). -/
def Reg.SCAN_CFG : Nat := 0x6C0000
/-- [4:0] program for bands CRITICAL … COLD, band b in bit b (R370). -/
def Reg.SCAN_BANDSEL : Nat := 0x6C0008
/-- [11:0] B, GCLK (R370). -/
def Reg.SCAN_BLANK (p : Nat) : Nat := 0x6C0010 + 0x10 * p
/-- [31:24] DOFF; [23:12] PDIS; [7:0] DON, GCLK (R370). -/
def Reg.SCAN_TIMING (p : Nat) : Nat := 0x6C0014 + 0x10 * p
/-- w = 0–7: bytes of entries 4w to 4w + 3, byte b in [8b + 4:8b], line 0–31 (R370). -/
def Reg.SCAN_ORDER (p : Nat) (w : Nat) : Nat := 0x6C0100 + 0x20 * p + 0x4 * w
/-- [31] RUNNING; [30] program in use; [26:24] slot; [23:16] subframe; [4:0] line slot (R370). -/
def Reg.SCAN_STAT : Nat := 0x6C0400
/-- wall time of the next tile latch point, by R359 (R370). -/
def Reg.SCAN_LATCH : Nat := 0x6C0404
/-- scans cut by R356 (R370). -/
def Reg.SCAN_CUT : Nat := 0x6C0408
/-- [31] EN; [28] MODE: 0 MEASURE, 1 AUTO; [3:0] NAVG − 1 (R371). -/
def Reg.TRIM_CTRL : Nat := 0x700000
/-- [15:0] seconds between cycles (R371). -/
def Reg.TRIM_INT : Nat := 0x700004
/-- [25:16] ICUR, 10 µA; [15:0] P for measurement (R371). -/
def Reg.TRIM_REF : Nat := 0x700008
/-- [15:0] AGE_P (R371). -/
def Reg.TRIM_AGE : Nat := 0x70000C
/-- [25:24] SPEED: 0 1 MHz, 1 400 kHz, 2 100 kHz; [22:16] address; [15:8] RDREG; [7:4] WRLEN; [3:0] RDLEN (R371). -/
def Reg.TRIM_I2C_CFG : Nat := 0x700010
/-- start bytes 0–7, byte b in word b div 4 at the place R5 gives (R371). -/
def Reg.TRIM_I2C_WR (x : Nat) : Nat := 0x700014 + 0x4 * x
/-- [31:16] INTEG, 100 µs units; [9:0] TO, µs (R371). -/
def Reg.TRIM_I2C_TIM : Nat := 0x70001C
/-- [4] BE; [2:0] WORD (R371). -/
def Reg.TRIM_CH (c : Nat) : Nat := 0x700020 + 0x4 * c
/-- [15:0] reading at TCAL (R371). -/
def Reg.TRIM_TGT (c : Nat) : Nat := 0x700030 + 0x4 * c
/-- [15:0] signed, per 0.25 °C, units 2⁻¹⁶ (R371). -/
def Reg.TRIM_TCO (c : Nat) : Nat := 0x700040 + 0x4 * c
/-- [15:0] signed, 0.25 °C (R371). -/
def Reg.TRIM_TCAL : Nat := 0x70004C
/-- [31:16] TMAX; [15:0] TMIN (R371). -/
def Reg.TRIM_LIMIT : Nat := 0x700050
/-- [15:0] TSTEP (R371). -/
def Reg.TRIM_STEP : Nat := 0x700054
/-- [31] EN; [15:0] TG (R371). -/
def Reg.TRIM_FORCE (c : Nat) : Nat := 0x700060 + 0x4 * c
/-- [31] BUSY; [30:28] step: 0 IDLE, 1 SETTLE, 2 START, 3 INTEG, 4 READ, 5 RECOVER; [25:24] colour (R371). -/
def Reg.TRIM_STAT : Nat := 0x700100
/-- [15:0] M (R371). -/
def Reg.TRIM_MEAS (c : Nat) : Nat := 0x700104 + 0x4 * c
/-- [31] VALID; [15:0] TG (R371). -/
def Reg.TRIM_TARGET (c : Nat) : Nat := 0x700110 + 0x4 * c
/-- [15:0] TG in use (R371). -/
def Reg.TRIM_GAIN (c : Nat) : Nat := 0x700120 + 0x4 * c
/-- failed transfers (R371). -/
def Reg.TRIM_I2C_ERRS : Nat := 0x700130
/-- wall time of the last completed cycle (R371). -/
def Reg.TRIM_LAST_WT : Nat := 0x700134
/-- last bytes read, byte b in word b div 4 at the place R5 gives (R371). -/
def Reg.TRIM_RAW (x : Nat) : Nat := 0x700140 + 0x4 * x
/-- fields below (R393). -/
def Reg.DIAG_CTRL : Nat := 0x740000
/-- [15:8] VSHORT, 0.1 V, 10–55; [2:0] VOPEN, 0.05 V, 1–5 (R393). -/
def Reg.DIAG_THR : Nat := 0x740004
/-- [7:0] SLOTM: slots that may carry probes (R393). -/
def Reg.DIAG_PROBE : Nat := 0x740008
/-- i = 0–7: group of block 8i + m in [4m + 3:4m] (R393). -/
def Reg.DIAG_SG_MAP (i : Nat) : Nat := 0x740010 + 0x4 * i
/-- [15:0] group g enabled (R393). -/
def Reg.DIAG_SG_EN : Nat := 0x740030
/-- [31] V48; [21:16] pad of spare 48; [15] V49; [5:0] pad of spare 49 (R393). -/
def Reg.DIAG_REMAP_SET (b : Nat) : Nat := 0x740100 + 0x4 * b
/-- [31] FLIST_OVF; [6:0] entries in the fault list (R393). -/
def Reg.DIAG_STAT : Nat := 0x741000
/-- [15:0] group g off; 1 returns it to service by R386 (R393). -/
def Reg.DIAG_SG_OFF : Nat := 0x741004
/-- [20:16] line; [11:0] pad n (R393). -/
def Reg.DIAG_LAMP_SEL : Nat := 0x741008
/-- selected lamp: [31:29] state: 0 GOOD, 1 SUSPECT, 2 UNMEASURED, 3 TRIAL, 4 OPEN, 5 SHORT; [28] kind: 0 OPEN, 1 SHORT; [27:24] count; [16] probed in the last 64 frames; [8:0] frames without a reading, saturating at 256 (R393). -/
def Reg.DIAG_LAMP_STAT : Nat := 0x74100C
/-- [0] 1 empties the fault list (R393). -/
def Reg.DIAG_FLIST_CLR : Nat := 0x741010
/-- [31] VALID; [29:28] KIND: 1 SHORT with g + 1, 2 STUCK; [6:0] gate g (R393). -/
def Reg.DIAG_GATE_STAT : Nat := 0x741018
/-- [6:4] REF_SNK[c] open; [1] short 1–2; [0] short 0–1 (R393). -/
def Reg.DIAG_REF_STAT : Nat := 0x74101C
/-- probes made (R393). -/
def Reg.DIAG_PROBES : Nat := 0x741020
/-- read-back mismatches (R393). -/
def Reg.DIAG_RB_ERR : Nat := 0x741024
/-- i = 0–63: [31] VALID; [30:28] KIND: 1 OPEN, 2 SHORT, 3 STUCK_ON, 4 STUCK_OFF; [24:20] line; [11:0] pad n (R393). -/
def Reg.DIAG_FLIST (i : Nat) : Nat := 0x741100 + 0x4 * i
/-- as DIAG_REMAP_SET, plus [30] spare 48 failed; [14] spare 49 failed; [29] spare 48 on trial; [13] spare 49 on trial (R393). -/
def Reg.DIAG_REMAP_HW (b : Nat) : Nat := 0x741200 + 0x4 * b
/-- [31] group off; [26:16] lamps UNMEASURED; [10:0] lamps declared (R393). -/
def Reg.DIAG_BLK_STAT (b : Nat) : Nat := 0x741300 + 0x4 * b
/-- [31] SHUT_EN; [30] AUTO_RESTART; [29] XCHK_EN (R409). -/
def Reg.THM_CTRL : Nat := 0x40000
/-- S: [15:0] KNEE, 85 °C at reset (R409). -/
def Reg.THM_KNEE : Nat := 0x40004
/-- [15:0] shutdown threshold, 125 °C at reset (R409). -/
def Reg.THM_SHUT : Nat := 0x40008
/-- [15:0] restart threshold, 95 °C at reset (R409). -/
def Reg.THM_RESTART : Nat := 0x4000C
/-- [31] LEHR; [30] BLIND; [26:24] measured band; [18:16] applied band; [4:0] dwell count; both bands NORMAL at reset (R402) (R409). -/
def Reg.THM_STAT : Nat := 0x40100
/-- [31] VALID; [15:0] T_max (R409). -/
def Reg.THM_TMAX : Nat := 0x40104
/-- [19:0] sensor s valid; sender [7:0] (R409). -/
def Reg.THM_VALID : Nat := 0x40108
/-- [19:0] sensor s excluded by R398 (R409). -/
def Reg.THM_EXCL : Nat := 0x4010C
/-- [19:0] sensor s FAULT by R397 (R409). -/
def Reg.THM_FAULT : Nat := 0x40110
/-- entries into the lehr state (R409). -/
def Reg.THM_LEHR_CNT : Nat := 0x40114
/-- wall time of the last entry (R409). -/
def Reg.THM_LEHR_WT : Nat := 0x40118
/-- [0] 1 permits exit by R406 (R409). -/
def Reg.THM_LEHR_EXIT : Nat := 0x4011C
/-- T: [31] VALID; [15:0] region temperature (R409). -/
def Reg.THM_REGION (r : Nat) : Nat := 0x40120 + 0x4 * r
/-- T: [31] VALID; [15:0] hottest driver-die sensor (R409). -/
def Reg.THM_DRV_MAX : Nat := 0x40130
/-- T: [31] VALID; [15:0] mean driver-die temperature (R409). -/
def Reg.THM_DRV_MEAN : Nat := 0x40134
/-- [31] VALID; [30] EXCL; [29] FAULT; [15:0] T_s (R409). -/
def Reg.THM_T (s : Nat) : Nat := 0x40200 + 0x4 * s
/-- [19:0] count N of the last conversion (R409). -/
def Reg.THM_RAW (s : Nat) : Nat := 0x40300 + 0x4 * s
/-- [19:0] N0 (R409). -/
def Reg.THM_TRIM_N0 (s : Nat) : Nat := 0x40400 + 0x4 * s
/-- [15:0] K, signed, units 2⁻¹⁶ of 0.25 °C per count (R409). -/
def Reg.THM_TRIM_K (s : Nat) : Nat := 0x40480 + 0x4 * s
/-- T: [23:16] TEL_BATCH, 1–16; [9:0] TEL_WAIT, µs, 1–1,000; a write outside either range is discarded (R430). -/
def Reg.EVT_CTRL : Nat := 0x20000
/-- raises of every event (R430). -/
def Reg.EVT_RAISED : Nat := 0x20004
/-- pending bit of event 32w + m in bit m; sender w = 0–47, tile w = 0–33 (R430). -/
def Reg.EVT_PEND (w : Nat) : Nat := 0x20010 + 0x4 * w
/-- S: [8:0] records in the event log, 0–256 (R430). -/
def Reg.EVT_LOG_STAT : Nat := 0x20100
/-- S: j = 0–3, word j of the head record; 0 when empty (R430). -/
def Reg.EVT_LOG_W (j : Nat) : Nat := 0x20104 + 0x4 * j
/-- S: [0] 1 removes the head (R430). -/
def Reg.EVT_LOG_POP : Nat := 0x20114
/-- S: [10:0] records in the tile log, 0–1,024 (R430). -/
def Reg.EVT_TLOG_STAT : Nat := 0x20120
/-- S: word j of the head record (R430). -/
def Reg.EVT_TLOG_W (j : Nat) : Nat := 0x20124 + 0x4 * j
/-- S: source word of R418 (R430). -/
def Reg.EVT_TLOG_SRC : Nat := 0x20134
/-- S: [0] 1 removes the head (R430). -/
def Reg.EVT_TLOG_POP : Nat := 0x20138
/-- T: [6:0] records queued, 0–64 (R430). -/
def Reg.EVT_TELQ_LEVEL : Nat := 0x20140
/-- T: records dropped by R419 (R430). -/
def Reg.EVT_TEL_DROP : Nat := 0x20144
/-- route of event i, fields below (R430). -/
def Reg.EVT_ROUTE (i : Nat) : Nat := 0x21000 + 0x4 * i
/-- [31] ESC; [2:0] ACC_MIN, a class code of R413, 1–4 (R431). -/
def Reg.FLT_CTRL : Nat := 0x30000
/-- [19:0] grace in µs, 1–1,000,000; a write outside the range is discarded (R431). -/
def Reg.FLT_GRACE : Nat := 0x30004
/-- [31] SAFE; [30:28] CAUSE; [22:16] ATTEND slots in use, 0–16; [11:0] ID that caused the safe state (R431). -/
def Reg.FLT_STAT : Nat := 0x30008
/-- 0x0000_5AFE enters the safe state (R431). -/
def Reg.FLT_SAFE_CMD : Nat := 0x3000C
/-- word 4 of the accession record (R431). -/
def Reg.FLT_FIRST : Nat := 0x30010
/-- [0] 1 clears the record and starts a run (R431). -/
def Reg.FLT_CLR_FIRST : Nat := 0x30014
/-- j = 0–7, the accession record (R431). -/
def Reg.FLT_ACC (j : Nat) : Nat := 0x30020 + 0x4 * j
/-- a = 0–15: [31] VALID; [11:0] event ID (R431). -/
def Reg.FLT_ATT_ID (a : Nat) : Nat := 0x30040 + 0x8 * a
/-- due wall time of slot a (R431). -/
def Reg.FLT_ATT_DUE (a : Nat) : Nat := 0x30044 + 0x8 * a
/-- escalations by R421 (R431). -/
def Reg.FLT_ESC_CNT : Nat := 0x300C0
/-- j = 0–15: Q = X ‖ Y (R445). -/
def Reg.IDN_PUBKEY (j : Nat) : Nat := 0x300000 + 0x4 * j
/-- j = 0–15: r ‖ s of R434 (R445). -/
def Reg.IDN_CERT (j : Nat) : Nat := 0x300040 + 0x4 * j
/-- j = 0–15: Yemaesk production public key (R445). -/
def Reg.IDN_ROOT (j : Nat) : Nat := 0x300080 + 0x4 * j
/-- 32 random bits per read (R445). -/
def Reg.IDN_RAND : Nat := 0x3000C0
/-- j = 0–7: nonce N (R445). -/
def Reg.IDN_NONCE (j : Nat) : Nat := 0x300100 + 0x4 * j
/-- [0] GO (R445). -/
def Reg.IDN_CHAL_CMD : Nat := 0x300120
/-- [31] BUSY; [30] DONE; [29] REFUSED; [0] SOURCE: 0 folio, 1 Porval (R445). -/
def Reg.IDN_CHAL_STAT : Nat := 0x300124
/-- j = 0–15: r ‖ s (R445). -/
def Reg.IDN_SIG (j : Nat) : Nat := 0x300140 + 0x4 * j
/-- generation GEN (R445). -/
def Reg.IDN_GEN : Nat := 0x300200
/-- [31] VALID; [30] BUSY (R445). -/
def Reg.IDN_CAT_STAT : Nat := 0x300204
/-- TIME_FRM_NUM at completion (R445). -/
def Reg.IDN_CAT_FRAME : Nat := 0x300208
/-- j = 0–3: catalogue digest C (R445). -/
def Reg.IDN_CAT (j : Nat) : Nat := 0x300210 + 0x4 * j
/-- j = 0–7: FH (R445). -/
def Reg.IDN_FOLIO_HASH (j : Nat) : Nat := 0x300220 + 0x4 * j
/-- j = 0–7: IH (R445). -/
def Reg.IDN_IMG_HASH (j : Nat) : Nat := 0x300240 + 0x4 * j
/-- T: j = 0–7: BH (R445). -/
def Reg.IDN_BANK_HASH (j : Nat) : Nat := 0x300260 + 0x4 * j
/-- T: calibration DEVID [31:0] (R445). -/
def Reg.IDN_CAL_ID_LO : Nat := 0x300280
/-- T: calibration DEVID [63:32] (R445). -/
def Reg.IDN_CAL_ID_HI : Nat := 0x300284
/-- T: [0] CAL_OK (R445). -/
def Reg.IDN_CAL_STAT : Nat := 0x300288
/-- S: [31] CHAIN; [30] REQUEST; [15:0] chain ports (R445). -/
def Reg.IDN_DIG_CMD : Nat := 0x300300
/-- S: j = 0–3: last chain digest received on chain k (R445). -/
def Reg.IDN_CHAIN_RX (k : Nat) (j : Nat) : Nat := 0x300400 + 0x20 * k + 0x4 * j
/-- S: its GEN (R445). -/
def Reg.IDN_CHAIN_GEN (k : Nat) : Nat := 0x300410 + 0x20 * k
/-- S: [31] VALID; [6:0] SRC of the last fold (R445). -/
def Reg.IDN_CHAIN_STAT (k : Nat) : Nat := 0x300414 + 0x20 * k
/-- j = 0–15: public key (R445). -/
def Reg.IDN_VFY_KEY (j : Nat) : Nat := 0x300800 + 0x4 * j
/-- j = 0–7: hash for OP 1 (R445). -/
def Reg.IDN_VFY_HASH (j : Nat) : Nat := 0x300840 + 0x4 * j
/-- j = 0–15: r ‖ s (R445). -/
def Reg.IDN_VFY_SIG (j : Nat) : Nat := 0x300860 + 0x4 * j
/-- [8] CH; [1:0] OP: 1 hash, 2 challenge (R445). -/
def Reg.IDN_VFY_CMD : Nat := 0x3008A0
/-- [31] BUSY; [30] DONE; [29] PASS (R445). -/
def Reg.IDN_VFY_STAT : Nat := 0x3008A4
/-- DEVID [31:0] for OP 2 (R445). -/
def Reg.IDN_VFY_DEVID_LO : Nat := 0x3008A8
/-- DEVID [63:32] for OP 2 (R445). -/
def Reg.IDN_VFY_DEVID_HI : Nat := 0x3008AC
/-- S: j = 0–3: C of position p, chain k (R445). -/
def Reg.IDN_CATRX (k : Nat) (p : Nat) (j : Nat) : Nat := 0x304000 + 0x400 * k + 0x10 * p + 0x4 * j
/-- S: its GEN (R445). -/
def Reg.IDN_CATRX_GEN (k : Nat) (p : Nat) : Nat := 0x308000 + 0x100 * k + 0x4 * p
/-- S: positions 0–31 answered since the last REQUEST (R445). -/
def Reg.IDN_CATRX_MAP_LO (k : Nat) : Nat := 0x309000 + 0x8 * k
/-- S: positions 32–63 (R445). -/
def Reg.IDN_CATRX_MAP_HI (k : Nat) : Nat := 0x309004 + 0x8 * k
/-- [31:29] STAGE; [28] BUSY; [27] TARGET: 0 program, 1 correction; [23:16] ERR; [3:0] BOOTS (R470). -/
def Reg.UPD_STAT : Nat := 0x310000
/-- [31:28] OP: 1 OPEN, 2 VERIFY, 3 ACTIVATE, 4 CONFIRM, 5 ABORT, 7 LOAD (S); [0] TARGET (T) (R470). -/
def Reg.UPD_CMD : Nat := 0x310004
/-- LEN for OPEN and LOAD, bytes (R470). -/
def Reg.UPD_DL_LEN : Nat := 0x310008
/-- next offset expected (R470). -/
def Reg.UPD_DL_NEXT : Nat := 0x31000C
/-- S: frame-memory address for LOAD, units of 16 bytes (R470). -/
def Reg.UPD_DL_SRC : Nat := 0x310010
/-- T: [15:0] open session (R470). -/
def Reg.UPD_SESSION : Nat := 0x310014
/-- VERSION of the running program (R470). -/
def Reg.UPD_ACT_VER : Nat := 0x310020
/-- VERSION of the VERIFIED image (R470). -/
def Reg.UPD_STG_VER : Nat := 0x310024
/-- floor of R451 (R470). -/
def Reg.UPD_FLOOR : Nat := 0x310028
/-- [6:0] epoch fuses blown (R470). -/
def Reg.UPD_EPOCH : Nat := 0x31002C
/-- PEER_MIN of the running program (R470). -/
def Reg.UPD_PEER_MIN : Nat := 0x310030
/-- [11:0] seconds, 1–3,600; a write outside the range is discarded (R470). -/
def Reg.UPD_CONF_TO : Nat := 0x310034
/-- [11:0] seconds left in TRIAL (R470). -/
def Reg.UPD_CONF_LEFT : Nat := 0x310038
/-- T: flash address of the active bank data (R470). -/
def Reg.UPD_COR_BASE : Nat := 0x31003C
/-- [31] VALID; [30] FALLBACK; [29] copy in use; [15:0] FORMAT (R470). -/
def Reg.UPD_SET_STAT : Nat := 0x310040
/-- [31:16] SETFMT_MAX; [15:0] SETFMT_MIN of the running program (R470). -/
def Reg.UPD_SETFMT : Nat := 0x310044
/-- [0] ACCEPT: clears FALLBACK (R470). -/
def Reg.UPD_SET_CMD : Nat := 0x310048
/-- j = 0–63: words to program (R470). -/
def Reg.UPD_FW_DATA (j : Nat) : Nat := 0x310100 + 0x4 * j
/-- flash byte address, word-aligned (R470). -/
def Reg.UPD_FW_ADDR : Nat := 0x310200
/-- [31:28] OP: 1 ERASE, 2 PROGRAM; [6:0] NW (R470). -/
def Reg.UPD_FW_CMD : Nat := 0x310204
/-- [31] BUSY; [30] DENIED; [29] FLASH error (R470). -/
def Reg.UPD_FW_STAT : Nat := 0x310208
/-- j = 0–7: owner key hash (R470). -/
def Reg.UPD_OWNER (j : Nat) : Nat := 0x310240 + 0x4 * j
/-- 0x0000_5A5A fuses by R450 (R470). -/
def Reg.UPD_OWNER_CMD : Nat := 0x310260
/-- S: [31:28] OP: 1 DATA, 2 CONTROL; [27:24] control OP (R470). -/
def Reg.UPD_TX_CMD : Nat := 0x310400
/-- S: [31:16] SESSION; [6:0] DEST (R470). -/
def Reg.UPD_TX_DEST : Nat := 0x310404
/-- S: [15:0] chain ports (R470). -/
def Reg.UPD_TX_CHN : Nat := 0x310408
/-- S: frame-memory address, units of 16 bytes (R470). -/
def Reg.UPD_TX_SRC : Nat := 0x31040C
/-- S: bytes (R470). -/
def Reg.UPD_TX_LEN : Nat := 0x310410
/-- S: CONTROL payload word 0 (R470). -/
def Reg.UPD_TX_ARG (j : Nat) : Nat := 0x310414 + 0x4 * j
/-- S: [15:0] ms without progress before FAILED (R470). -/
def Reg.UPD_TX_TO : Nat := 0x31041C
/-- S: [31] BUSY; [30] DONE; [15:0] resends (R470). -/
def Reg.UPD_TX_STAT : Nat := 0x310420
/-- S: [31] FAILED; [30:28] last STATUS; [23:0] next acknowledged (R470). -/
def Reg.UPD_TX_ACK (k : Nat) (p : Nat) : Nat := 0x310800 + 0x100 * k + 0x4 * p
/-- [31:24] part code; [7:0] stepping code of R1 (R487). -/
def Reg.SYS_PART : Nat := 0x10000
/-- straps of R482 (R487). -/
def Reg.SYS_STRAP : Nat := 0x10004
/-- fields below (R487). -/
def Reg.SYS_RST_CAUSE : Nat := 0x10008
/-- [31:16] core restarts; [15:0] full resets other than POR; both saturate (R487). -/
def Reg.SYS_RST_COUNT : Nat := 0x1000C
/-- keys of R478 (R487). -/
def Reg.SYS_RST_CMD : Nat := 0x10010
/-- S: key of R476 (R487). -/
def Reg.SYS_PWR_CMD : Nat := 0x10014
/-- [n] rail n of R472 or R473, in table order, within tolerance; tile [31]: Porval domain fed from the pair (R487). -/
def Reg.SYS_PWR_STAT : Nat := 0x10018
/-- S: [0] EN, WAKE_N as wake source (R487). -/
def Reg.SYS_WAKE_CFG : Nat := 0x1001C
/-- inbound message words (R66). -/
def Reg.SYS_MBX_IN (n : Nat) : Nat := 0x11000 + 0x4 * n
/-- outbound message words (R67). -/
def Reg.SYS_MBX_OUT (n : Nat) : Nat := 0x11100 + 0x4 * n
/-- [16] ACK; [6:0] LEN (RO) (R66). -/
def Reg.SYS_MBX_IN_CTRL : Nat := 0x11200
/-- [31] FULL (RO); [16] SEND; [6:0] LEN (R67). -/
def Reg.SYS_MBX_OUT_CTRL : Nat := 0x11204

/-- Window 0x0001 of the sender. -/
def regRowsS1 : List RegRow :=
  [ ⟨0x10200, [], .ro, 0xC000FFFF, .c 0x0, .none⟩  -- SYS_CMT_STAT
  , ⟨0x10204, [], .ro, 0xFFFFFFFF, .c 0x0, .none⟩  -- SYS_CMT_MASK
  , ⟨0x10208, [], .ro, 0xFFFFFFFF, .c 0x0, .none⟩  -- SYS_CMT_PFRAME
  , ⟨0x1020C, [], .ro, 0xFFFFFFFF, .c 0x0, .none⟩  -- SYS_CMT_LAST
  , ⟨0x10210, [], .ro, 0xFFFFFFFF, .c 0x0, .none⟩  -- SYS_CMT_GEN
  , ⟨0x10214, [], .rc, 0xFFFFFFFF, .c 0x0, .none⟩  -- SYS_CMT_REJ
  , ⟨0x10218, [], .rc, 0xFFFFFFFF, .c 0x0, .none⟩  -- SYS_CMT_LOCKDROP
  , ⟨0x10280, [(4, 0x4)], .ro, 0x800000FF, .c 0x0, .none⟩  -- SYS_CORE_FCODE
  , ⟨0x10290, [(4, 0x4)], .ro, 0xFFFFFFFF, .c 0x0, .none⟩  -- SYS_CORE_FPC
  , ⟨0x102A0, [(4, 0x4)], .ro, 0xFFFFFFFF, .c 0x0, .none⟩  -- SYS_CORE_FADDR
  , ⟨0x102B0, [(4, 0x4)], .ro, 0xFF0FFFFF, .c 0x0, .none⟩  -- SYS_XFER_STAT
  , ⟨0x102C0, [], .ro, 0xFFFFFFFF, .c 0x0, .SYS_TRCV_LEVEL⟩  -- SYS_TRCV_LEVEL
  , ⟨0x102C4, [], .rc, 0xFFFFFFFF, .c 0x0, .none⟩  -- SYS_TRCV_DROP
  , ⟨0x10000, [], .ro, 0xFFFFFFFF, .c 0x300000B1, .none⟩  -- SYS_PART
  , ⟨0x10004, [], .ro, 0xFFFFFFFF, .c 0, .none⟩  -- SYS_STRAP
  , ⟨0x10008, [], .ro, 0xF000FF3F, .c 0, .none⟩  -- SYS_RST_CAUSE
  , ⟨0x1000C, [], .ro, 0xFFFFFFFF, .c 0x0, .none⟩  -- SYS_RST_COUNT
  , ⟨0x10010, [], .wo, 0xFFFFFFFF, .c 0x0, .SYS_RST_CMD⟩  -- SYS_RST_CMD
  , ⟨0x10014, [], .wo, 0xFFFFFFFF, .c 0x0, .SYS_PWR_CMD⟩  -- SYS_PWR_CMD
  , ⟨0x10018, [], .ro, 0xFFFFFFFF, .c 0x0, .none⟩  -- SYS_PWR_STAT
  , ⟨0x1001C, [], .rw, 0x1, .c 0x1, .none⟩  -- SYS_WAKE_CFG
  , ⟨0x11000, [(64, 0x4)], .ro, 0xFFFFFFFF, .c 0x0, .none⟩  -- SYS_MBX_IN
  , ⟨0x11100, [(64, 0x4)], .rw, 0xFFFFFFFF, .c 0x0, .none⟩  -- SYS_MBX_OUT
  , ⟨0x11200, [], .rw, 0x10000, .c 0x0, .SYS_MBX_IN_CTRL⟩  -- SYS_MBX_IN_CTRL
  , ⟨0x11204, [], .rw, 0x1007F, .c 0x0, .SYS_MBX_OUT_CTRL⟩  -- SYS_MBX_OUT_CTRL
  ]

/-- Window 0x0002 of the sender. -/
def regRowsS2 : List RegRow :=
  [ ⟨0x20004, [], .rc, 0xFFFFFFFF, .c 0x0, .none⟩  -- EVT_RAISED
  , ⟨0x20010, [(48, 0x4)], .ro, 0xFFFFFFFF, .c 0x0, .none⟩  -- EVT_PEND
  , ⟨0x20100, [], .ro, 0xFFFFFFFF, .c 0x0, .EVT_LOG_STAT⟩  -- EVT_LOG_STAT
  , ⟨0x20104, [(4, 0x4)], .ro, 0xFFFFFFFF, .c 0x0, .EVT_LOG_W⟩  -- EVT_LOG_W
  , ⟨0x20114, [], .wo, 0x1, .c 0x0, .EVT_LOG_POP⟩  -- EVT_LOG_POP
  , ⟨0x20120, [], .ro, 0xFFFFFFFF, .c 0x0, .EVT_TLOG_STAT⟩  -- EVT_TLOG_STAT
  , ⟨0x20124, [(4, 0x4)], .ro, 0xFFFFFFFF, .c 0x0, .EVT_TLOG_W⟩  -- EVT_TLOG_W
  , ⟨0x20134, [], .ro, 0xFFFFFFFF, .c 0x0, .EVT_TLOG_SRC⟩  -- EVT_TLOG_SRC
  , ⟨0x20138, [], .wo, 0x1, .c 0x0, .EVT_TLOG_POP⟩  -- EVT_TLOG_POP
  , ⟨0x21000, [(1536, 0x4)], .rw, 0xE03F000F, .EVT_ROUTE, .EVT_ROUTE⟩  -- EVT_ROUTE
  ]

/-- Window 0x0003 of the sender. -/
def regRowsS3 : List RegRow :=
  [ ⟨0x30000, [], .rw, 0x80000007, .c 0x80000001, .FLT_CTRL⟩  -- FLT_CTRL
  , ⟨0x30004, [], .rw, 0xFFFFF, .c 0x2710, .FLT_GRACE⟩  -- FLT_GRACE
  , ⟨0x30008, [], .ro, 0xFFFFFFFF, .c 0x0, .FLT_STAT⟩  -- FLT_STAT
  , ⟨0x3000C, [], .wo, 0xFFFFFFFF, .c 0x0, .FLT_SAFE_CMD⟩  -- FLT_SAFE_CMD
  , ⟨0x30010, [], .ro, 0xFFFFFFFF, .c 0, .FLT_FIRST⟩  -- FLT_FIRST
  , ⟨0x30014, [], .wo, 0x1, .c 0x0, .FLT_CLR_FIRST⟩  -- FLT_CLR_FIRST
  , ⟨0x30020, [(8, 0x4)], .ro, 0xFFFFFFFF, .c 0, .FLT_ACC⟩  -- FLT_ACC
  , ⟨0x30040, [(16, 0x8)], .ro, 0xFFFFFFFF, .c 0x0, .FLT_ATT_ID⟩  -- FLT_ATT_ID
  , ⟨0x30044, [(16, 0x8)], .ro, 0xFFFFFFFF, .c 0x0, .FLT_ATT_DUE⟩  -- FLT_ATT_DUE
  , ⟨0x300C0, [], .rc, 0xFFFFFFFF, .c 0x0, .none⟩  -- FLT_ESC_CNT
  ]

/-- Window 0x0004 of the sender. -/
def regRowsS4 : List RegRow :=
  [ ⟨0x40000, [], .sh, 0xE0000000, .c 0xE0000000, .none⟩  -- THM_CTRL
  , ⟨0x40004, [], .sh, 0xFFFF, .c 0x154, .none⟩  -- THM_KNEE
  , ⟨0x40008, [], .sh, 0xFFFF, .c 0x1F4, .none⟩  -- THM_SHUT
  , ⟨0x4000C, [], .sh, 0xFFFF, .c 0x17C, .none⟩  -- THM_RESTART
  , ⟨0x40100, [], .ro, 0xFFFFFFFF, .c 0x1010000, .none⟩  -- THM_STAT
  , ⟨0x40104, [], .ro, 0xFFFFFFFF, .c 0x0, .none⟩  -- THM_TMAX
  , ⟨0x40108, [], .ro, 0xFFFFFFFF, .c 0x0, .none⟩  -- THM_VALID
  , ⟨0x4010C, [], .ro, 0xFFFFFFFF, .c 0x0, .none⟩  -- THM_EXCL
  , ⟨0x40110, [], .ro, 0xFFFFFFFF, .c 0x0, .none⟩  -- THM_FAULT
  , ⟨0x40114, [], .rc, 0xFFFFFFFF, .c 0x0, .none⟩  -- THM_LEHR_CNT
  , ⟨0x40118, [], .ro, 0xFFFFFFFF, .c 0x0, .none⟩  -- THM_LEHR_WT
  , ⟨0x4011C, [], .wo, 0x1, .c 0x0, .THM_LEHR_EXIT⟩  -- THM_LEHR_EXIT
  , ⟨0x40200, [(8, 0x4)], .ro, 0xFFFFFFFF, .c 0x0, .none⟩  -- THM_T
  , ⟨0x40300, [(8, 0x4)], .ro, 0xFFFFFFFF, .c 0x0, .none⟩  -- THM_RAW
  , ⟨0x40400, [(8, 0x4)], .ro, 0xFFFFFFFF, .THM_TRIM_N0, .none⟩  -- THM_TRIM_N0
  , ⟨0x40480, [(8, 0x4)], .ro, 0xFFFFFFFF, .THM_TRIM_K, .none⟩  -- THM_TRIM_K
  ]

/-- Window 0x0005 of the sender. -/
def regRowsS5 : List RegRow :=
  [ ⟨0x50000, [], .ro, 0xFFFFFFFF, .c 0x0, .TIME_NOW_LO⟩  -- TIME_NOW_LO
  , ⟨0x50004, [], .ro, 0xFFFFFFFF, .c 0x0, .none⟩  -- TIME_NOW_HI
  , ⟨0x50008, [], .ro, 0xFFFFFFFF, .c 0x0, .none⟩  -- TIME_NOW_FRAC
  , ⟨0x5000C, [], .rw, 0x1F13, .c 0x3, .TIME_CTRL⟩  -- TIME_CTRL
  , ⟨0x50010, [], .ro, 0xFFFFFFFF, .c 0x0, .none⟩  -- TIME_STAT
  , ⟨0x50014, [], .wo, 0xFFFFFFFF, .c 0x0, .TIME_SRV_OFS⟩  -- TIME_SRV_OFS
  , ⟨0x50018, [], .rw, 0xFFFFFF, .c 0x1800, .none⟩  -- TIME_KP
  , ⟨0x5001C, [], .rw, 0xFFFFFF, .c 0x200, .none⟩  -- TIME_KI
  , ⟨0x50020, [], .ro, 0xFFFFFFFF, .c 0x0, .none⟩  -- TIME_RATE
  , ⟨0x50024, [], .rw, 0xFFFFFF, .c 0x68DB9, .none⟩  -- TIME_RATE_MAX
  , ⟨0x50028, [], .rw, 0xFFFFFFFF, .c 0x0, .TIME_INTEG⟩  -- TIME_INTEG
  , ⟨0x5002C, [], .rw, 0xFFFFFFFF, .c 0x64, .none⟩  -- TIME_LOCK_THR
  , ⟨0x50030, [], .rw, 0xFFFFFFFF, .c 0x2710, .none⟩  -- TIME_STEP_THR
  , ⟨0x50034, [], .rw, 0xFFFFFFFF, .c 0xFA0, .none⟩  -- TIME_HOLD_TO
  , ⟨0x50038, [], .ro, 0xFFFFFFFF, .c 0x0, .none⟩  -- TIME_LAST_OFS
  , ⟨0x5003C, [], .rw, 0xFFFFFFFF, .c 0x64, .TIME_TXINT⟩  -- TIME_TXINT
  , ⟨0x50040, [], .ro, 0xFFFFFFFF, .c 0x0, .none⟩  -- TIME_PPS_CAP
  , ⟨0x50044, [], .rw, 0xFFFFFFFF, .c 0x0, .none⟩  -- TIME_PPS_EXP
  , ⟨0x50048, [], .rw, 0xFFFFFFFF, .c 0x0, .none⟩  -- TIME_PPS_DLY
  , ⟨0x5004C, [], .rw, 0xFFFFFFFF, .c 0xF4240, .none⟩  -- TIME_PPS_WIN
  , ⟨0x50050, [], .wo, 0xFFFFFFFF, .c 0x0, .TIME_SET_LO⟩  -- TIME_SET_LO
  , ⟨0x50054, [], .wo, 0xFFFFFFFF, .c 0x0, .TIME_SET_HI⟩  -- TIME_SET_HI
  , ⟨0x50080, [(4, 0x8)], .rw, 0xFFFFFFFF, .c 0x0, .none⟩  -- TIME_RX_ADJ
  , ⟨0x50084, [(4, 0x8)], .rw, 0xFFFFFFFF, .c 0x0, .none⟩  -- TIME_TX_ADJ
  , ⟨0x500C0, [(4, 0x10)], .ro, 0xFFFFFFFF, .c 0x0, .TIME_TXQ_STAT⟩  -- TIME_TXQ_STAT
  , ⟨0x500C4, [(4, 0x10)], .ro, 0xFFFFFFFF, .c 0x0, .TIME_TXQ_TS⟩  -- TIME_TXQ_TS
  , ⟨0x500C8, [(4, 0x10)], .wo, 0x1, .c 0x0, .TIME_TXQ_POP⟩  -- TIME_TXQ_POP
  , ⟨0x500CC, [(4, 0x10)], .rc, 0xFFFFFFFF, .c 0x0, .none⟩  -- TIME_TXQ_DROP
  , ⟨0x50100, [], .ro, 0xFFFFFFFF, .c 0x0, .none⟩  -- TIME_FRM_NUM
  , ⟨0x50104, [], .ro, 0xFFFFFFFF, .c 0x0, .none⟩  -- TIME_FRM_ORIGIN
  , ⟨0x50140, [(4, 0x10)], .ro, 0xFFFFFFFF, .c 0x0, .none⟩  -- TIME_PH_CAP
  , ⟨0x50144, [(4, 0x10)], .ro, 0xFFFFFFFF, .c 0x0, .none⟩  -- TIME_PH_ERR
  , ⟨0x50148, [(4, 0x10)], .ro, 0xFFFFFFFF, .c 0x0, .none⟩  -- TIME_PH_STAT
  , ⟨0x50180, [(8, 0x4)], .ro, 0xFFFFFFFF, .c 0x0, .none⟩  -- TIME_SLOT_CUR
  , ⟨0x50200, [(16, 0x4)], .ro, 0xFFFFFFFF, .c 0x0, .none⟩  -- TIME_HOP
  , ⟨0x51000, [], .sh, 0x8000000F, .c 0x1, .none⟩  -- TIME_FRM_CTRL
  , ⟨0x51004, [], .sh, 0xFFFFFFFF, .c 0x7F2815, .none⟩  -- TIME_FRM_PER
  , ⟨0x51008, [], .sh, 0xFFFFFFFF, .c 0x55555555, .none⟩  -- TIME_FRM_PERF
  , ⟨0x5100C, [], .sh, 0xFFFFFFFF, .c 0x0, .none⟩  -- TIME_FRM_START
  , ⟨0x51010, [], .sh, 0xFFFFFFFF, .c 0x0, .none⟩  -- TIME_FRM_SNUM
  ] ++
  [ ⟨0x51020, [(8, 0x8)], .sh, 0xE3FFFFFF, .c 0x0, .none⟩  -- TIME_SLOT_OFS
  , ⟨0x51024, [(8, 0x8)], .sh, 0x3FFFFFF, .c 0x0, .none⟩  -- TIME_SLOT_LEN
  , ⟨0x51080, [(4, 0x10)], .sh, 0x800FFFFF, .c 0x103E8, .none⟩  -- TIME_PH_CFG
  , ⟨0x51084, [(4, 0x10)], .sh, 0xFFFFFFFF, .c 0x0, .none⟩  -- TIME_PH_DLY
  , ⟨0x51088, [(4, 0x10)], .sh, 0xFFFFFFFF, .c 0x0, .none⟩  -- TIME_CAM_OPEN
  , ⟨0x5108C, [(4, 0x10)], .sh, 0xFFFFFFFF, .c 0x0, .none⟩  -- TIME_CAM_LEN
  ]

/-- Window 0x0008 of the sender. -/
def regRowsS8 : List RegRow :=
  [ ⟨0x80000, [(4, 0x4000)], .rw, 0x3, .c 0x0, .NET_CTRL⟩  -- NET_CTRL
  , ⟨0x80004, [(4, 0x4000)], .ro, 0xFFFFFFFF, .c 0x0, .none⟩  -- NET_STAT
  , ⟨0x80008, [(4, 0x4000)], .rw, 0x3FFF, .c 0x2400, .none⟩  -- NET_MAXLEN
  , ⟨0x8000C, [(4, 0x4000)], .rw, 0xFFFFFFFF, .c 0x0, .none⟩  -- NET_MAC_LO
  , ⟨0x80010, [(4, 0x4000)], .rw, 0xFFFF, .c 0x0, .none⟩  -- NET_MAC_HI
  , ⟨0x80014, [(4, 0x4000)], .rw, 0x7F, .c 0x40, .none⟩  -- NET_RX_CTRL
  , ⟨0x80020, [(4, 0x4000)], .wo, 0x1, .c 0x0, .NET_SNAP⟩  -- NET_SNAP
  , ⟨0x80024, [(4, 0x4000)], .ro, 0xFFFFFFFF, .c 0x0, .none⟩  -- NET_SNAP_GEN
  , ⟨0x80030, [(4, 0x4000)], .w1c, 0x3FFFFFF, .c 0x0, .none⟩  -- NET_HALF0
  , ⟨0x80034, [(4, 0x4000)], .w1c, 0xFFFF, .c 0x0, .none⟩  -- NET_HALF1
  , ⟨0x80038, [(4, 0x4000)], .rw, 0x3FFFFFF, .c 0x3FFFFFF, .none⟩  -- NET_HALF_EN0
  , ⟨0x8003C, [(4, 0x4000)], .rw, 0xFFFF, .c 0xFFFF, .none⟩  -- NET_HALF_EN1
  , ⟨0x80400, [(4, 0x4000), (64, 0x4)], .ro, 0xFFFFFFFF, .c 0x0, .none⟩  -- NET_CNT
  , ⟨0x80500, [(4, 0x4000), (64, 0x4)], .ro, 0xFFFFFFFF, .c 0x0, .none⟩  -- NET_SNAPV
  , ⟨0x81000, [(4, 0x4000), (2, 0x20)], .rw, 0xFFFFFFFF, .c 0x0, .none⟩  -- NET_TXR_BASE
  , ⟨0x81004, [(4, 0x4000), (2, 0x20)], .rw, 0x8000000F, .c 0x0, .NET_TXR_CFG⟩  -- NET_TXR_CFG
  , ⟨0x81008, [(4, 0x4000), (2, 0x20)], .ro, 0xFFFFFFFF, .c 0x0, .none⟩  -- NET_TXR_HEAD
  , ⟨0x8100C, [(4, 0x4000), (2, 0x20)], .rw, 0xFFF, .c 0x0, .NET_TXR_TAIL⟩  -- NET_TXR_TAIL
  , ⟨0x82000, [(4, 0x4000), (8, 0x80), (16, 0x4)], .rw, 0xFFFFFFFF, .c 0x0, .none⟩  -- NET_WPAT
  , ⟨0x82040, [(4, 0x4000), (8, 0x80)], .rw, 0xFFFFFFFF, .c 0x0, .none⟩  -- NET_WMASK_LO
  , ⟨0x82044, [(4, 0x4000), (8, 0x80)], .rw, 0xFFFFFFFF, .c 0x0, .none⟩  -- NET_WMASK_HI
  , ⟨0x82048, [(4, 0x4000), (8, 0x80)], .rw, 0x80003FFF, .c 0x0, .none⟩  -- NET_WCFG
  , ⟨0x82400, [(4, 0x4000)], .w1c, 0xFF, .c 0x0, .none⟩  -- NET_WAKE_STAT
  ]

/-- Window 0x0009 of the sender. -/
def regRowsS9 : List RegRow :=
  [ ⟨0x90000, [(16, 0x100)], .sh, 0xE00F007F, .c 0x0, .none⟩  -- FLOW_CTRL
  , ⟨0x90004, [(16, 0x100)], .sh, 0xF0000000, .c 0x0, .none⟩  -- FLOW_FMT
  , ⟨0x90008, [(16, 0x100)], .sh, 0x1FFF1FFF, .c 0x0, .none⟩  -- FLOW_SIZE
  , ⟨0x9000C, [(16, 0x100)], .sh, 0xFFFFFFFF, .c 0x0, .none⟩  -- FLOW_BASE
  , ⟨0x90010, [(16, 0x100)], .sh, 0xFFFFF, .c 0x0, .none⟩  -- FLOW_PITCH
  , ⟨0x90014, [(16, 0x100)], .sh, 0xFFFFFFFF, .c 0x0, .none⟩  -- FLOW_BUFSZ
  , ⟨0x90018, [(16, 0x100)], .sh, 0xFFFFFFFF, .c 0x27104E20, .none⟩  -- FLOW_MERGE
  , ⟨0x90020, [(16, 0x100), (2, 0x10)], .sh, 0xFFFFFFFF, .c 0x0, .none⟩  -- FLOW_DST_IP
  , ⟨0x90024, [(16, 0x100), (2, 0x10)], .sh, 0xFFFFFFFF, .c 0x0, .none⟩  -- FLOW_PORT
  , ⟨0x90028, [(16, 0x100), (2, 0x10)], .sh, 0xFFFFFFFF, .c 0x0, .none⟩  -- FLOW_SRC_IP
  , ⟨0x90080, [(16, 0x100)], .ro, 0xFFFFFFFF, .c 0x0, .none⟩  -- FLOW_STAT
  , ⟨0x90084, [(16, 0x100)], .ro, 0xFFFFFFFF, .c 0x0, .none⟩  -- FLOW_LATEST_TS
  , ⟨0x90088, [(16, 0x100)], .ro, 0xFFFFFFFF, .c 0x0, .none⟩  -- FLOW_LATEST_STALE
  , ⟨0x9008C, [(16, 0x100)], .ro, 0xFFFFFFFF, .c 0x0, .none⟩  -- FLOW_LATEST_WT
  , ⟨0x90090, [(16, 0x100)], .ro, 0xFFFFFFFF, .c 0x0, .none⟩  -- FLOW_WPROG
  , ⟨0x91000, [], .wo, 0x1, .c 0x0, .FLOW_SNAP⟩  -- FLOW_SNAP
  , ⟨0x91004, [], .ro, 0xFFFFFFFF, .c 0x0, .none⟩  -- FLOW_TALLY_USED
  , ⟨0x93000, [(32, 0x10)], .rw, 0xEF3FFFFF, .c 0x0, .none⟩  -- FLOW_RF
  , ⟨0x94000, [(16, 0x40), (16, 0x4)], .ro, 0xFFFFFFFF, .c 0x0, .none⟩  -- FLOW_CNT
  , ⟨0x94400, [(64, 0x10), (3, 0x4)], .ro, 0xFFFFFFFF, .c 0x0, .none⟩  -- RING_CNT
  , ⟨0x95000, [(512, 0x4)], .ro, 0xFFFFFFFF, .c 0x0, .none⟩  -- snapshot_values
  , ⟨0x96000, [(16, 0x4)], .w1c, 0xFFFFFFFF, .c 0x0, .none⟩  -- FLOW_HALF
  , ⟨0x92000, [(64, 0x40)], .rw, 0xFFFFFFFF, .c 0x0, .none⟩  -- RING_BASE
  , ⟨0x92004, [(64, 0x40)], .rw, 0x8F00FF0F, .c 0x0, .RING_CFG⟩  -- RING_CFG
  , ⟨0x92008, [(64, 0x40)], .ro, 0xFFFFFFFF, .c 0x0, .none⟩  -- RING_HEAD
  , ⟨0x9200C, [(64, 0x40)], .rw, 0xFFF, .c 0x0, .RING_TAIL⟩  -- RING_TAIL
  ]

/-- Window 0x000A of the sender. -/
def regRowsSA : List RegRow :=
  [ ⟨0xA0000, [(8, 0x1000)], .ro, 0xFFFFFFFF, .c 0x0, .none⟩  -- DRC_CH_STAT
  , ⟨0xA0004, [(8, 0x1000), (2, 0x4)], .ro, 0xFFFFFFFF, .c 0x0, .none⟩  -- DRC_TRN_RD
  , ⟨0xA000C, [(8, 0x1000), (2, 0x4)], .ro, 0xFFFFFFFF, .c 0x0, .none⟩  -- DRC_TRN_WR
  , ⟨0xA0014, [(8, 0x1000)], .ro, 0xFFFFFFFF, .c 0x0, .none⟩  -- DRC_TRK
  , ⟨0xA0020, [(8, 0x1000)], .rc, 0xFFFFFFFF, .c 0x0, .none⟩  -- DRC_ECC_CORR
  , ⟨0xA0024, [(8, 0x1000)], .rc, 0xFFFFFFFF, .c 0x0, .none⟩  -- DRC_ECC_UNCORR
  , ⟨0xA0028, [(8, 0x1000)], .ro, 0xFFFFFFFF, .c 0x0, .none⟩  -- DRC_ERR_ADDR
  , ⟨0xA002C, [(8, 0x1000)], .rc, 0xFFFFFFFF, .c 0x0, .none⟩  -- DRC_WR_ECC
  , ⟨0xA0030, [(8, 0x1000)], .ro, 0xFFFFFFFF, .c 0x0, .none⟩  -- DRC_REF_POST
  , ⟨0xA0040, [(8, 0x1000)], .rc, 0xFFFFFFFF, .c 0x0, .none⟩  -- DRC_PAGE_HIT
  , ⟨0xA0044, [(8, 0x1000)], .rc, 0xFFFFFFFF, .c 0x0, .none⟩  -- DRC_PAGE_MISS
  , ⟨0xA0048, [(8, 0x1000)], .ro, 0xFFFFFFFF, .c 0x0, .none⟩  -- DRC_WQ_LEVEL
  , ⟨0xAC000, [], .rw, 0x3, .c 0x0, .DRC_CTRL⟩  -- DRC_CTRL
  , ⟨0xAC004, [], .rw, 0x3137, .c 0x1000, .DRC_CFG⟩  -- DRC_CFG
  , ⟨0xAC008, [], .ro, 0xFFFFFFFF, .c 0x0, .none⟩  -- DRC_STAT
  , ⟨0xAC00C, [], .rw, 0x3FF, .c 0x240, .DRC_BAND_MULT⟩  -- DRC_BAND_MULT
  , ⟨0xAC010, [], .rw, 0xFFFFF, .c 0x186A0, .none⟩  -- DRC_BW_LIM
  , ⟨0xAC014, [], .ro, 0xFFFFFFFF, .c 0x0, .none⟩  -- DRC_BW_LAST
  , ⟨0xAC018, [], .rc, 0xFFFFFFFF, .c 0x0, .none⟩  -- DRC_BW_MAX
  , ⟨0xAC040, [(12, 0x4)], .rw, 0xFFFFFF, .DRC_PORT_LAT, .DRC_PORT_LAT⟩  -- DRC_PORT_LAT
  , ⟨0xAC080, [(12, 0x4)], .ro, 0xFFFFFFFF, .c 0x0, .none⟩  -- DRC_PORT_UNITS
  , ⟨0xAC0C0, [(12, 0x4)], .rc, 0xFFFFFFFF, .c 0x0, .none⟩  -- DRC_PORT_LATE
  , ⟨0xAC100, [(12, 0x4)], .rc, 0xFFFFFFFF, .c 0x0, .none⟩  -- DRC_PORT_MAXLAT
  , ⟨0xAC200, [], .wo, 0x3, .c 0x0, .DRC_TEST_CTRL⟩  -- DRC_TEST_CTRL
  , ⟨0xAC204, [], .rw, 0xFFFFFFFF, .c 0x0, .none⟩  -- DRC_TEST_PAT
  , ⟨0xAC208, [], .ro, 0xFFFFFFFF, .c 0x0, .none⟩  -- DRC_TEST_STAT
  ]

/-- Window 0x0010 of the sender. -/
def regRowsS10 : List RegRow :=
  [ ⟨0x100000, [(64, 0x80)], .sh, 0xFFFF3F07, .c 0x0, .none⟩  -- LYR_CTRL
  , ⟨0x100004, [(64, 0x80)], .sh, 0xFFFFFFFF, .c 0x0, .none⟩  -- LYR_GBASE
  , ⟨0x100008, [(64, 0x80)], .sh, 0xFFFFF, .c 0x0, .none⟩  -- LYR_GPITCH
  , ⟨0x10000C, [(64, 0x80)], .sh, 0x3FFF3FFF, .c 0x0, .none⟩  -- LYR_GSIZE
  , ⟨0x100010, [(64, 0x80)], .sh, 0xFFFF, .c 0xFFFF, .none⟩  -- LYR_OPAC
  , ⟨0x100014, [(64, 0x80)], .sh, 0x3FFF3FFF, .c 0x0, .none⟩  -- LYR_CROP_XY
  , ⟨0x100018, [(64, 0x80)], .sh, 0x3FFF3FFF, .c 0x0, .none⟩  -- LYR_CROP_WH
  , ⟨0x10001C, [(64, 0x80)], .sh, 0xFFFFFFFF, .c 0x0, .none⟩  -- LYR_DST_XY
  , ⟨0x100020, [(64, 0x80)], .sh, 0x3FFF3FFF, .c 0x0, .none⟩  -- LYR_DST_WH
  , ⟨0x100024, [(64, 0x80)], .sh, 0xFFFFF, .c 0x0, .none⟩  -- LYR_DELAY
  , ⟨0x100028, [(64, 0x80)], .sh, 0x7, .c 0x0, .none⟩  -- LYR_CLR
  , ⟨0x100040, [(64, 0x80)], .ro, 0xFFFFFFFF, .c 0x0, .none⟩  -- LYR_STAT
  , ⟨0x100044, [(64, 0x80)], .ro, 0xFFFFFFFF, .c 0x0, .none⟩  -- LYR_TS
  , ⟨0x100048, [(64, 0x80)], .ro, 0xFFFFFFFF, .c 0x0, .none⟩  -- LYR_STEP_X
  , ⟨0x10004C, [(64, 0x80)], .ro, 0xFFFFFFFF, .c 0x0, .none⟩  -- LYR_STEP_Y
  ]

/-- Window 0x0014 of the sender. -/
def regRowsS14 : List RegRow :=
  [ ⟨0x140000, [(16, 0x4)], .sh, 0x1F, .idx, .none⟩  -- CMP_MAP
  , ⟨0x140040, [], .sh, 0x3FFF3FFF, .c 0x0, .none⟩  -- CMP_CANVAS
  , ⟨0x140044, [], .sh, 0x1, .c 0x1, .none⟩  -- CMP_CTRL
  , ⟨0x140050, [], .sh, 0x87030000, .c 0x0, .none⟩  -- CMP_WB_CTRL
  , ⟨0x140054, [], .sh, 0xFFFFFFFF, .c 0x0, .none⟩  -- CMP_WB_BASE
  , ⟨0x140058, [], .sh, 0xFFFFFFFF, .c 0x0, .none⟩  -- CMP_WB_BUFSZ
  , ⟨0x14005C, [], .sh, 0xFFFFF, .c 0x0, .none⟩  -- CMP_WB_PITCH
  , ⟨0x140060, [], .sh, 0xB007007F, .c 0x0, .none⟩  -- CMP_PV_CTRL
  , ⟨0x140064, [], .sh, 0x3FFF, .c 0x0, .none⟩  -- CMP_PV_PLEN
  , ⟨0x140068, [], .sh, 0xFFFFFFFF, .c 0x0, .none⟩  -- CMP_PV_DMAC_LO
  , ⟨0x14006C, [], .sh, 0xFFFF, .c 0x0, .none⟩  -- CMP_PV_DMAC_HI
  , ⟨0x140070, [], .sh, 0xFFFFFFFF, .c 0x0, .none⟩  -- CMP_PV_DST_IP
  , ⟨0x140074, [], .sh, 0xFFFFFFFF, .c 0x0, .none⟩  -- CMP_PV_SRC_IP
  , ⟨0x140078, [], .sh, 0xFFFFFFFF, .c 0x0, .none⟩  -- CMP_PV_PORTS
  , ⟨0x14007C, [], .sh, 0xFFFFFFFF, .c 0x0, .none⟩  -- CMP_PV_SSRC
  , ⟨0x140080, [], .sh, 0xFF3F, .c 0x4000, .none⟩  -- CMP_PV_IPH
  , ⟨0x141000, [(17, 0x4)], .ro, 0xFFFFFFFF, .c 0xFFFF, .CMP_PIPE_STAT⟩  -- CMP_PIPE_STAT
  , ⟨0x141080, [], .ro, 0xFFFFFFFF, .c 0x0, .none⟩  -- CMP_FO_STAT
  , ⟨0x141084, [], .ro, 0xFFFFFFFF, .c 0x0, .none⟩  -- CMP_WB_STAT
  , ⟨0x141088, [], .ro, 0xFFFFFFFF, .c 0x0, .none⟩  -- CMP_WB_FRAME
  , ⟨0x14108C, [], .ro, 0xFFFFFFFF, .c 0x0, .none⟩  -- CMP_PV_STAT
  , ⟨0x141090, [], .rc, 0xFFFFFFFF, .c 0x0, .none⟩  -- CMP_PV_SENT
  , ⟨0x141094, [], .rc, 0xFFFFFFFF, .c 0x0, .none⟩  -- CMP_PV_LATE
  , ⟨0x1410A0, [], .rc, 0xFFFFFFFF, .c 0x0, .none⟩  -- CMP_STALE_LINES
  , ⟨0x1410A4, [], .rc, 0xFFFFFFFF, .c 0x0, .none⟩  -- CMP_LL_MISS
  , ⟨0x1410A8, [], .rc, 0xFFFFFFFF, .c 0x0, .none⟩  -- CMP_POISON
  , ⟨0x144000, [(1536, 0x4)], .sh, 0xFFF0FFF, .CMP_COEF, .none⟩  -- CMP_COEF
  ]

/-- Window 0x0018 of the sender. -/
def regRowsS18 : List RegRow :=
  [ ⟨0x180000, [], .sh, 0xFF, .c 0x0, .none⟩  -- CLR_CTRL
  , ⟨0x180100, [(8, 0x40)], .sh, 0x10FF0311, .CLR_PROF_CTRL, .none⟩  -- CLR_PROF_CTRL
  , ⟨0x180104, [(8, 0x40)], .sh, 0xFFFFFF, .CLR_PROF_GAIN, .none⟩  -- CLR_PROF_GAIN
  , ⟨0x180108, [(8, 0x40)], .sh, 0xFFFFFF, .c 0x3F8000, .none⟩  -- CLR_TF_END
  , ⟨0x180110, [(8, 0x40), (3, 0xC), (3, 0x4)], .sh, 0x1FFFF, .CLR_MTX, .none⟩  -- CLR_MTX
  , ⟨0x180300, [(2, 0x4)], .sh, 0xFFFFFF, .CLR_TONE_END, .none⟩  -- CLR_TONE_END
  , ⟨0x180400, [], .rc, 0xFFFFFFFF, .c 0x0, .none⟩  -- CLR_NEG
  , ⟨0x180404, [], .rc, 0xFFFFFFFF, .c 0x0, .none⟩  -- CLR_OVER
  , ⟨0x181000, [(2, 0x800), (512, 0x4)], .sh, 0xFFFFFF, .CLR_TONE, .none⟩  -- CLR_TONE
  ]

/-- Window 0x0019 of the sender. -/
def regRowsS19 : List RegRow :=
  [ ⟨0x190000, [(8, 0x1000), (1024, 0x4)], .sh, 0xFFFFFF, .CLR_TF, .none⟩  -- CLR_TF
  ]

/-- Window 0x001A of the sender. -/
def regRowsS1A : List RegRow :=
  [ ⟨0x1A0000, [(8192, 0x4)], .sh, 0xFFFFF, .CLR_ENC, .none⟩  -- CLR_ENC
  ]

/-- Window 0x001B of the sender. -/
def regRowsS1B : List RegRow :=
  [ ⟨0x1B0000, [(8192, 0x4)], .sh, 0xFFFFF, .CLR_ENC, .none⟩  -- CLR_ENC
  ]

/-- Window 0x001C of the sender. -/
def regRowsS1C : List RegRow :=
  [ ⟨0x1C0000, [(8, 0x1000)], .sh, 0xC13F007F, .c 0x200000, .none⟩  -- CHN_CTRL
  , ⟨0x1C0100, [(8, 0x1000), (64, 0x4)], .sh, 0x3FFF3FFF, .c 0x0, .none⟩  -- CHN_POS_XY
  , ⟨0x1C0400, [(8, 0x1000)], .ro, 0xFFFFFFFF, .c 0x0, .CHN_STAT⟩  -- CHN_STAT
  , ⟨0x1C0404, [(8, 0x1000)], .ro, 0xFFFFFFFF, .c 0x0, .none⟩  -- CHN_SYNC_FRAME
  , ⟨0x1C0408, [(8, 0x1000)], .ro, 0xFFFFFFFF, .c 0x0, .none⟩  -- CHN_ABORT_FRAME
  , ⟨0x1C040C, [(8, 0x1000)], .rc, 0xFFFFFFFF, .c 0x0, .none⟩  -- CHN_FRAMES
  , ⟨0x1C0410, [(8, 0x1000)], .rc, 0xFFFFFFFF, .c 0x0, .none⟩  -- CHN_ABORTS
  , ⟨0x1C0414, [(8, 0x1000)], .rc, 0xFFFFFFFF, .c 0x0, .none⟩  -- CHN_UNSENT
  , ⟨0x1C0418, [(8, 0x1000)], .rc, 0xFFFFFFFF, .c 0x0, .none⟩  -- CHN_QMAX
  , ⟨0x1C0800, [], .sh, 0x7FFF, .c 0x4000, .none⟩  -- CHN_RAS_HACT
  , ⟨0x1C0804, [], .sh, 0xFFF, .c 0x40, .none⟩  -- CHN_RAS_HFP
  , ⟨0x1C0808, [], .sh, 0xFFF, .c 0x900, .none⟩  -- CHN_RAS_HSYNC
  , ⟨0x1C080C, [], .sh, 0xFFF, .c 0x80, .none⟩  -- CHN_RAS_HBP
  , ⟨0x1C0810, [], .sh, 0xFF, .c 0x4, .none⟩  -- CHN_RAS_VBP
  , ⟨0x1C0814, [], .sh, 0xFF, .c 0x4, .none⟩  -- CHN_RAS_VFP
  , ⟨0x1C0818, [], .sh, 0x3FF, .c 0x10, .none⟩  -- CHN_RAS_VSYNC
  , ⟨0x1C081C, [], .sh, 0x3FFFFF, .c 0x30D40, .none⟩  -- CHN_RAS_LEAD
  , ⟨0x1C0840, [], .ro, 0xFFFFFFFF, .c 0x0, .CHN_RAS_STAT⟩  -- CHN_RAS_STAT
  , ⟨0x1C0844, [], .ro, 0xFFFFFFFF, .c 0x0, .CHN_RAS_NEXT⟩  -- CHN_RAS_NEXT
  , ⟨0x1C0848, [], .rc, 0xFFFFFFFF, .c 0x0, .none⟩  -- CHN_RAS_SKIP
  ]

/-- Window 0x001D of the sender. -/
def regRowsS1D : List RegRow :=
  [ ⟨0x1D0000, [(8, 0x1000)], .sh, 0xC13F007F, .c 0x200000, .none⟩  -- CHN_CTRL
  , ⟨0x1D0100, [(8, 0x1000), (64, 0x4)], .sh, 0x3FFF3FFF, .c 0x0, .none⟩  -- CHN_POS_XY
  , ⟨0x1D0400, [(8, 0x1000)], .ro, 0xFFFFFFFF, .c 0x0, .CHN_STAT⟩  -- CHN_STAT
  , ⟨0x1D0404, [(8, 0x1000)], .ro, 0xFFFFFFFF, .c 0x0, .none⟩  -- CHN_SYNC_FRAME
  , ⟨0x1D0408, [(8, 0x1000)], .ro, 0xFFFFFFFF, .c 0x0, .none⟩  -- CHN_ABORT_FRAME
  , ⟨0x1D040C, [(8, 0x1000)], .rc, 0xFFFFFFFF, .c 0x0, .none⟩  -- CHN_FRAMES
  , ⟨0x1D0410, [(8, 0x1000)], .rc, 0xFFFFFFFF, .c 0x0, .none⟩  -- CHN_ABORTS
  , ⟨0x1D0414, [(8, 0x1000)], .rc, 0xFFFFFFFF, .c 0x0, .none⟩  -- CHN_UNSENT
  , ⟨0x1D0418, [(8, 0x1000)], .rc, 0xFFFFFFFF, .c 0x0, .none⟩  -- CHN_QMAX
  ]

/-- Window 0x0020 of the sender. -/
def regRowsS20 : List RegRow :=
  [ ⟨0x200000, [(8, 0x2000)], .rw, 0xD8000000, .c 0x8000000, .LNK_CTRL⟩  -- LNK_CTRL
  , ⟨0x200004, [(8, 0x2000)], .ro, 0xEEF0FF00, .c 0x0, .none⟩  -- LNK_STAT
  , ⟨0x200008, [(8, 0x2000)], .ro, 0xFFFFFFFF, .c 0x60600, .none⟩  -- LNK_LANES
  , ⟨0x20000C, [(8, 0x2000)], .ro, 0xFFFFFFFF, .c 0x0, .none⟩  -- LNK_PEER
  , ⟨0x200010, [(8, 0x2000)], .ro, 0xFFFFFFFF, .c 0x0, .none⟩  -- LNK_PEER_ID_LO
  , ⟨0x200014, [(8, 0x2000)], .ro, 0xFFFFFFFF, .c 0x0, .none⟩  -- LNK_PEER_ID_HI
  , ⟨0x200018, [(8, 0x2000)], .ro, 0xFFFFFFFF, .c 0x0, .none⟩  -- LNK_FOM
  , ⟨0x20001C, [(8, 0x2000)], .rw, 0xFFFF, .c 0x4020, .none⟩  -- LNK_FOM_THR
  , ⟨0x200020, [(8, 0x2000)], .ro, 0xFFFFFFFF, .c 0x0, .none⟩  -- LNK_EQ_SEL
  , ⟨0x200040, [(8, 0x2000), (8, 0x4)], .rw, 0x8FFF1F1F, .LNK_EQ, .none⟩  -- LNK_EQ
  , ⟨0x200080, [(8, 0x2000)], .rc, 0xFFFFFFFF, .c 0x0, .none⟩  -- LNK_CRC_ERR
  , ⟨0x200084, [(8, 0x2000)], .rc, 0xFFFFFFFF, .c 0x0, .none⟩  -- LNK_STOMPED
  , ⟨0x200088, [(8, 0x2000)], .rc, 0xFFFFFFFF, .c 0x0, .none⟩  -- LNK_HDR_ERR
  , ⟨0x20008C, [(8, 0x2000)], .rc, 0xFFFFFFFF, .c 0x0, .none⟩  -- LNK_SWAPS
  , ⟨0x200090, [(8, 0x2000)], .rc, 0xFFFFFFFF, .c 0x0, .none⟩  -- LNK_RETRAINS
  , ⟨0x200094, [(8, 0x2000)], .rc, 0xFFFFFFFF, .c 0x0, .none⟩  -- LNK_PASSED
  , ⟨0x200100, [(8, 0x2000)], .rw, 0x80000000, .c 0x80000000, .LNK_PV_CTRL⟩  -- LNK_PV_CTRL
  , ⟨0x200104, [(8, 0x2000)], .wo, 0x3, .c 0x0, .LNK_PV_CMD⟩  -- LNK_PV_CMD
  , ⟨0x200108, [(8, 0x2000)], .ro, 0xFFFFFFFF, .c 0x0, .none⟩  -- LNK_PV_STAT
  , ⟨0x20010C, [(8, 0x2000)], .rw, 0x7F, .c 0x0, .none⟩  -- LNK_PV_TXLEN
  , ⟨0x200200, [(8, 0x2000), (19, 0x4)], .rw, 0xFFFFFFFF, .c 0x0, .none⟩  -- LNK_PV_TX
  , ⟨0x200280, [(8, 0x2000), (19, 0x4)], .ro, 0xFFFFFFFF, .c 0x0, .none⟩  -- LNK_PV_RX
  ]

/-- Window 0x0021 of the sender. -/
def regRowsS21 : List RegRow :=
  [ ⟨0x210000, [(8, 0x2000)], .rw, 0xD8000000, .c 0x8000000, .LNK_CTRL⟩  -- LNK_CTRL
  , ⟨0x210004, [(8, 0x2000)], .ro, 0xEEF0FF00, .c 0x0, .none⟩  -- LNK_STAT
  , ⟨0x210008, [(8, 0x2000)], .ro, 0xFFFFFFFF, .c 0x60600, .none⟩  -- LNK_LANES
  , ⟨0x21000C, [(8, 0x2000)], .ro, 0xFFFFFFFF, .c 0x0, .none⟩  -- LNK_PEER
  , ⟨0x210010, [(8, 0x2000)], .ro, 0xFFFFFFFF, .c 0x0, .none⟩  -- LNK_PEER_ID_LO
  , ⟨0x210014, [(8, 0x2000)], .ro, 0xFFFFFFFF, .c 0x0, .none⟩  -- LNK_PEER_ID_HI
  , ⟨0x210018, [(8, 0x2000)], .ro, 0xFFFFFFFF, .c 0x0, .none⟩  -- LNK_FOM
  , ⟨0x21001C, [(8, 0x2000)], .rw, 0xFFFF, .c 0x4020, .none⟩  -- LNK_FOM_THR
  , ⟨0x210020, [(8, 0x2000)], .ro, 0xFFFFFFFF, .c 0x0, .none⟩  -- LNK_EQ_SEL
  , ⟨0x210040, [(8, 0x2000), (8, 0x4)], .rw, 0x8FFF1F1F, .LNK_EQ, .none⟩  -- LNK_EQ
  , ⟨0x210080, [(8, 0x2000)], .rc, 0xFFFFFFFF, .c 0x0, .none⟩  -- LNK_CRC_ERR
  , ⟨0x210084, [(8, 0x2000)], .rc, 0xFFFFFFFF, .c 0x0, .none⟩  -- LNK_STOMPED
  , ⟨0x210088, [(8, 0x2000)], .rc, 0xFFFFFFFF, .c 0x0, .none⟩  -- LNK_HDR_ERR
  , ⟨0x21008C, [(8, 0x2000)], .rc, 0xFFFFFFFF, .c 0x0, .none⟩  -- LNK_SWAPS
  , ⟨0x210090, [(8, 0x2000)], .rc, 0xFFFFFFFF, .c 0x0, .none⟩  -- LNK_RETRAINS
  , ⟨0x210094, [(8, 0x2000)], .rc, 0xFFFFFFFF, .c 0x0, .none⟩  -- LNK_PASSED
  , ⟨0x210100, [(8, 0x2000)], .rw, 0x80000000, .c 0x80000000, .LNK_PV_CTRL⟩  -- LNK_PV_CTRL
  , ⟨0x210104, [(8, 0x2000)], .wo, 0x3, .c 0x0, .LNK_PV_CMD⟩  -- LNK_PV_CMD
  , ⟨0x210108, [(8, 0x2000)], .ro, 0xFFFFFFFF, .c 0x0, .none⟩  -- LNK_PV_STAT
  , ⟨0x21010C, [(8, 0x2000)], .rw, 0x7F, .c 0x0, .none⟩  -- LNK_PV_TXLEN
  , ⟨0x210200, [(8, 0x2000), (19, 0x4)], .rw, 0xFFFFFFFF, .c 0x0, .none⟩  -- LNK_PV_TX
  , ⟨0x210280, [(8, 0x2000), (19, 0x4)], .ro, 0xFFFFFFFF, .c 0x0, .none⟩  -- LNK_PV_RX
  ]

/-- Window 0x0022 of the sender. -/
def regRowsS22 : List RegRow :=
  [ ⟨0x220000, [], .rw, 0x3, .c 0, .LNK_ROLE⟩  -- LNK_ROLE
  , ⟨0x220004, [], .ro, 0xFFFFFFFF, .c 0x7E, .none⟩  -- LNK_POS
  , ⟨0x220008, [], .ro, 0xFFFFFFFF, .LNK_DEVID_LO, .none⟩  -- LNK_DEVID_LO
  , ⟨0x22000C, [], .ro, 0xFFFFFFFF, .LNK_DEVID_HI, .none⟩  -- LNK_DEVID_HI
  , ⟨0x220010, [], .rw, 0xFFFFFFFF, .c 0x0, .none⟩  -- LNK_WALL
  , ⟨0x220014, [], .rw, 0x80000000, .c 0x0, .none⟩  -- LNK_SSC
  ]

/-- Window 0x0024 of the sender. -/
def regRowsS24 : List RegRow :=
  [ ⟨0x240000, [], .sh, 0xE0000000, .c 0x0, .none⟩  -- LOAN_CTRL
  , ⟨0x240004, [], .sh, 0x7FFFFFF, .c 0x1E8480, .none⟩  -- LOAN_TERM
  , ⟨0x240008, [], .sh, 0x7FFFFFF, .c 0x7A120, .none⟩  -- LOAN_RENEW
  , ⟨0x24000C, [], .sh, 0xFF3FFF, .c 0x40064, .none⟩  -- LOAN_BEAT
  , ⟨0x240010, [], .sh, 0xFFFFFF, .c 0x0, .none⟩  -- LOAN_STK_INT
  , ⟨0x240014, [], .sh, 0xFFFFFF, .c 0x0, .none⟩  -- LOAN_STK_PHASE
  , ⟨0x240018, [], .sh, 0xFFFF, .c 0xFFFF, .none⟩  -- LOAN_STK_CHN
  , ⟨0x240020, [], .ro, 0xFFFFFFFF, .c 0x0, .none⟩  -- LOAN_STAT
  , ⟨0x240024, [], .ro, 0xFFFFFFFF, .c 0x0, .none⟩  -- LOAN_BEAT_SEQ
  , ⟨0x240028, [], .ro, 0xFFFFFFFF, .c 0x0, .none⟩  -- LOAN_BEAT_CHN
  , ⟨0x24002C, [], .wo, 0xFF0000, .c 0x0, .LOAN_XBEAT⟩  -- LOAN_XBEAT
  , ⟨0x240030, [], .rw, 0x1, .c 0x0, .none⟩  -- LOAN_STK_HOLD
  , ⟨0x240034, [], .wo, 0x8000FFFF, .c 0x0, .LOAN_STK_CMD⟩  -- LOAN_STK_CMD
  , ⟨0x240038, [], .rw, 0xFFFFFFFF, .c 0x0, .none⟩  -- LOAN_STK_FRAME
  , ⟨0x24003C, [], .ro, 0xFFFFFFFF, .c 0x0, .none⟩  -- LOAN_STK_STAT
  , ⟨0x240040, [], .rc, 0xFFFFFFFF, .c 0x0, .none⟩  -- LOAN_STK_COUNT
  , ⟨0x240100, [(16, 0x10)], .ro, 0xFFFFFFFF, .c 0x0, .none⟩  -- LOAN_HELD_LO
  , ⟨0x240104, [(16, 0x10)], .ro, 0xFFFFFFFF, .c 0x0, .none⟩  -- LOAN_HELD_HI
  , ⟨0x240108, [(16, 0x10)], .ro, 0xFFFFFFFF, .c 0x0, .none⟩  -- LOAN_SEEN_LO
  , ⟨0x24010C, [(16, 0x10)], .ro, 0xFFFFFFFF, .c 0x0, .none⟩  -- LOAN_SEEN_HI
  , ⟨0x240200, [(16, 0x8)], .rw, 0xFFFFFFFF, .c 0x0, .LOAN_EXCL_LO⟩  -- LOAN_EXCL_LO
  , ⟨0x240204, [(16, 0x8)], .rw, 0xFFFFFFFF, .c 0x0, .LOAN_EXCL_HI⟩  -- LOAN_EXCL_HI
  ]

/-- Window 0x0028 of the sender. -/
def regRowsS28 : List RegRow :=
  [ ⟨0x280000, [(64, 0x10)], .sh, 0x8FFF003F, .c 0x0, .none⟩  -- SIG_POS
  , ⟨0x280004, [(64, 0x10)], .sh, 0x7F00FF, .c 0x0, .none⟩  -- SIG_XY
  , ⟨0x280008, [(64, 0x10)], .sh, 0xFF01FF, .c 0x0, .none⟩  -- SIG_WH
  , ⟨0x28000C, [(64, 0x10)], .ro, 0xFFFFFFFF, .c 0x0, .none⟩  -- SIG_VAL
  , ⟨0x281000, [(64, 0x4)], .ro, 0xFFFFFFFF, .c 0x0, .none⟩  -- SIG_VAL_FRAME
  , ⟨0x281100, [(64, 0x4)], .ro, 0xFFFFFFFF, .c 0x0, .none⟩  -- SIG_VAL_SLOT
  ]

/-- Window 0x0030 of the sender. -/
def regRowsS30 : List RegRow :=
  [ ⟨0x300000, [(16, 0x4)], .ro, 0xFFFFFFFF, .IDN_PUBKEY, .none⟩  -- IDN_PUBKEY
  , ⟨0x300040, [(16, 0x4)], .ro, 0xFFFFFFFF, .IDN_CERT, .none⟩  -- IDN_CERT
  , ⟨0x300080, [(16, 0x4)], .ro, 0xFFFFFFFF, .IDN_ROOT, .none⟩  -- IDN_ROOT
  , ⟨0x3000C0, [], .ro, 0xFFFFFFFF, .c 0, .IDN_RAND⟩  -- IDN_RAND
  , ⟨0x300100, [(8, 0x4)], .rw, 0xFFFFFFFF, .c 0x0, .IDN_NONCE⟩  -- IDN_NONCE
  , ⟨0x300120, [], .wo, 0x1, .c 0x0, .IDN_CHAL_CMD⟩  -- IDN_CHAL_CMD
  , ⟨0x300124, [], .ro, 0xFFFFFFFF, .c 0x0, .none⟩  -- IDN_CHAL_STAT
  , ⟨0x300140, [(16, 0x4)], .ro, 0xFFFFFFFF, .c 0x0, .none⟩  -- IDN_SIG
  , ⟨0x300200, [], .rw, 0xFFFFFFFF, .c 0x0, .IDN_GEN⟩  -- IDN_GEN
  , ⟨0x300204, [], .ro, 0xFFFFFFFF, .c 0x0, .none⟩  -- IDN_CAT_STAT
  , ⟨0x300208, [], .ro, 0xFFFFFFFF, .c 0x0, .none⟩  -- IDN_CAT_FRAME
  , ⟨0x300210, [(4, 0x4)], .ro, 0xFFFFFFFF, .c 0x0, .none⟩  -- IDN_CAT
  , ⟨0x300220, [(8, 0x4)], .ro, 0xFFFFFFFF, .c 0x0, .none⟩  -- IDN_FOLIO_HASH
  , ⟨0x300240, [(8, 0x4)], .ro, 0xFFFFFFFF, .c 0, .none⟩  -- IDN_IMG_HASH
  , ⟨0x300300, [], .wo, 0xC000FFFF, .c 0x0, .IDN_DIG_CMD⟩  -- IDN_DIG_CMD
  , ⟨0x300400, [(16, 0x20), (4, 0x4)], .ro, 0xFFFFFFFF, .c 0x0, .none⟩  -- IDN_CHAIN_RX
  , ⟨0x300410, [(16, 0x20)], .ro, 0xFFFFFFFF, .c 0x0, .none⟩  -- IDN_CHAIN_GEN
  , ⟨0x300414, [(16, 0x20)], .ro, 0xFFFFFFFF, .c 0x0, .none⟩  -- IDN_CHAIN_STAT
  , ⟨0x300800, [(16, 0x4)], .rw, 0xFFFFFFFF, .c 0x0, .none⟩  -- IDN_VFY_KEY
  , ⟨0x300840, [(8, 0x4)], .rw, 0xFFFFFFFF, .c 0x0, .none⟩  -- IDN_VFY_HASH
  , ⟨0x300860, [(16, 0x4)], .rw, 0xFFFFFFFF, .c 0x0, .none⟩  -- IDN_VFY_SIG
  , ⟨0x3008A0, [], .wo, 0x103, .c 0x0, .IDN_VFY_CMD⟩  -- IDN_VFY_CMD
  , ⟨0x3008A4, [], .ro, 0xFFFFFFFF, .c 0x0, .none⟩  -- IDN_VFY_STAT
  , ⟨0x3008A8, [], .rw, 0xFFFFFFFF, .c 0x0, .none⟩  -- IDN_VFY_DEVID_LO
  , ⟨0x3008AC, [], .rw, 0xFFFFFFFF, .c 0x0, .none⟩  -- IDN_VFY_DEVID_HI
  , ⟨0x304000, [(16, 0x400), (64, 0x10), (4, 0x4)], .ro, 0xFFFFFFFF, .c 0x0, .none⟩  -- IDN_CATRX
  , ⟨0x308000, [(16, 0x100), (64, 0x4)], .ro, 0xFFFFFFFF, .c 0x0, .none⟩  -- IDN_CATRX_GEN
  , ⟨0x309000, [(16, 0x8)], .ro, 0xFFFFFFFF, .c 0x0, .none⟩  -- IDN_CATRX_MAP_LO
  , ⟨0x309004, [(16, 0x8)], .ro, 0xFFFFFFFF, .c 0x0, .none⟩  -- IDN_CATRX_MAP_HI
  ]

/-- Window 0x0031 of the sender. -/
def regRowsS31 : List RegRow :=
  [ ⟨0x310000, [], .ro, 0xFFFFFFFF, .c 0, .none⟩  -- UPD_STAT
  , ⟨0x310004, [], .wo, 0xF0000001, .c 0x0, .UPD_CMD⟩  -- UPD_CMD
  , ⟨0x310008, [], .rw, 0xFFFFFFFF, .c 0x0, .none⟩  -- UPD_DL_LEN
  , ⟨0x31000C, [], .ro, 0xFFFFFFFF, .c 0x0, .none⟩  -- UPD_DL_NEXT
  , ⟨0x310010, [], .rw, 0xFFFFFFFF, .c 0x0, .none⟩  -- UPD_DL_SRC
  , ⟨0x310020, [], .ro, 0xFFFFFFFF, .c 0, .none⟩  -- UPD_ACT_VER
  , ⟨0x310024, [], .ro, 0xFFFFFFFF, .c 0x0, .none⟩  -- UPD_STG_VER
  , ⟨0x310028, [], .ro, 0xFFFFFFFF, .c 0, .none⟩  -- UPD_FLOOR
  , ⟨0x31002C, [], .ro, 0xFFFFFFFF, .UPD_EPOCH, .none⟩  -- UPD_EPOCH
  , ⟨0x310030, [], .ro, 0xFFFFFFFF, .c 0, .none⟩  -- UPD_PEER_MIN
  , ⟨0x310034, [], .rw, 0xFFF, .c 0x3C, .UPD_CONF_TO⟩  -- UPD_CONF_TO
  , ⟨0x310038, [], .ro, 0xFFFFFFFF, .c 0x0, .UPD_CONF_LEFT⟩  -- UPD_CONF_LEFT
  , ⟨0x310040, [], .ro, 0xFFFFFFFF, .c 0, .none⟩  -- UPD_SET_STAT
  , ⟨0x310044, [], .ro, 0xFFFFFFFF, .c 0, .none⟩  -- UPD_SETFMT
  , ⟨0x310048, [], .wo, 0x1, .c 0x0, .UPD_SET_CMD⟩  -- UPD_SET_CMD
  , ⟨0x310100, [(64, 0x4)], .rw, 0xFFFFFFFF, .c 0x0, .none⟩  -- UPD_FW_DATA
  , ⟨0x310200, [], .rw, 0xFFFFFFFF, .c 0x0, .none⟩  -- UPD_FW_ADDR
  , ⟨0x310204, [], .wo, 0xF000007F, .c 0x0, .UPD_FW_CMD⟩  -- UPD_FW_CMD
  , ⟨0x310208, [], .ro, 0xFFFFFFFF, .c 0x0, .none⟩  -- UPD_FW_STAT
  , ⟨0x310240, [(8, 0x4)], .ro, 0xFFFFFFFF, .UPD_OWNER, .none⟩  -- UPD_OWNER
  , ⟨0x310260, [], .wo, 0xFFFFFFFF, .c 0x0, .UPD_OWNER_CMD⟩  -- UPD_OWNER_CMD
  , ⟨0x310400, [], .wo, 0xFF000000, .c 0x0, .UPD_TX_CMD⟩  -- UPD_TX_CMD
  , ⟨0x310404, [], .rw, 0xFFFF007F, .c 0x7F, .none⟩  -- UPD_TX_DEST
  , ⟨0x310408, [], .rw, 0xFFFF, .c 0x0, .none⟩  -- UPD_TX_CHN
  , ⟨0x31040C, [], .rw, 0xFFFFFFFF, .c 0x0, .none⟩  -- UPD_TX_SRC
  , ⟨0x310410, [], .rw, 0xFFFFFFFF, .c 0x0, .none⟩  -- UPD_TX_LEN
  , ⟨0x310414, [(2, 0x4)], .rw, 0xFFFFFFFF, .c 0x0, .none⟩  -- UPD_TX_ARG
  , ⟨0x31041C, [], .rw, 0xFFFF, .c 0x64, .none⟩  -- UPD_TX_TO
  , ⟨0x310420, [], .ro, 0xFFFFFFFF, .c 0x0, .none⟩  -- UPD_TX_STAT
  , ⟨0x310800, [(16, 0x100), (64, 0x4)], .ro, 0xFFFFFFFF, .c 0x0, .none⟩  -- UPD_TX_ACK
  ]

/-- Window 0x0001 of the tile. -/
def regRowsT1 : List RegRow :=
  [ ⟨0x10200, [], .ro, 0xC000FFFF, .c 0x0, .none⟩  -- SYS_CMT_STAT
  , ⟨0x10204, [], .ro, 0xFFFFFFFF, .c 0x0, .none⟩  -- SYS_CMT_MASK
  , ⟨0x10208, [], .ro, 0xFFFFFFFF, .c 0x0, .none⟩  -- SYS_CMT_PFRAME
  , ⟨0x1020C, [], .ro, 0xFFFFFFFF, .c 0x0, .none⟩  -- SYS_CMT_LAST
  , ⟨0x10210, [], .ro, 0xFFFFFFFF, .c 0x0, .none⟩  -- SYS_CMT_GEN
  , ⟨0x10214, [], .rc, 0xFFFFFFFF, .c 0x0, .none⟩  -- SYS_CMT_REJ
  , ⟨0x10218, [], .rc, 0xFFFFFFFF, .c 0x0, .none⟩  -- SYS_CMT_LOCKDROP
  , ⟨0x10240, [], .ro, 0xE000FFFF, .c 0x0, .none⟩  -- SYS_RW_STAT
  , ⟨0x10244, [], .ro, 0xFFFFFFFF, .c 0x0, .none⟩  -- SYS_RW_COUNT
  , ⟨0x10280, [(1, 0x4)], .ro, 0x800000FF, .c 0x0, .none⟩  -- SYS_CORE_FCODE
  , ⟨0x10290, [(1, 0x4)], .ro, 0xFFFFFFFF, .c 0x0, .none⟩  -- SYS_CORE_FPC
  , ⟨0x102A0, [(1, 0x4)], .ro, 0xFFFFFFFF, .c 0x0, .none⟩  -- SYS_CORE_FADDR
  , ⟨0x102B0, [(1, 0x4)], .ro, 0xFF0FFFFF, .c 0x0, .none⟩  -- SYS_XFER_STAT
  , ⟨0x102C0, [], .ro, 0xFFFFFFFF, .c 0x0, .SYS_TRCV_LEVEL⟩  -- SYS_TRCV_LEVEL
  , ⟨0x102C4, [], .rc, 0xFFFFFFFF, .c 0x0, .none⟩  -- SYS_TRCV_DROP
  , ⟨0x10000, [], .ro, 0xFFFFFFFF, .c 0x310000A2, .none⟩  -- SYS_PART
  , ⟨0x10004, [], .ro, 0xFFFFFFFF, .c 0, .none⟩  -- SYS_STRAP
  , ⟨0x10008, [], .ro, 0xF000FF3F, .c 0, .none⟩  -- SYS_RST_CAUSE
  , ⟨0x1000C, [], .ro, 0xFFFFFFFF, .c 0x0, .none⟩  -- SYS_RST_COUNT
  , ⟨0x10010, [], .wo, 0xFFFFFFFF, .c 0x0, .SYS_RST_CMD⟩  -- SYS_RST_CMD
  , ⟨0x10018, [], .ro, 0xFFFFFFFF, .c 0x0, .none⟩  -- SYS_PWR_STAT
  ]

/-- Window 0x0002 of the tile. -/
def regRowsT2 : List RegRow :=
  [ ⟨0x20000, [], .rw, 0xFF03FF, .c 0x100064, .EVT_CTRL⟩  -- EVT_CTRL
  , ⟨0x20004, [], .rc, 0xFFFFFFFF, .c 0x0, .none⟩  -- EVT_RAISED
  , ⟨0x20010, [(34, 0x4)], .ro, 0xFFFFFFFF, .c 0x0, .none⟩  -- EVT_PEND
  , ⟨0x20140, [], .ro, 0xFFFFFFFF, .c 0x0, .EVT_TELQ_LEVEL⟩  -- EVT_TELQ_LEVEL
  , ⟨0x20144, [], .rc, 0xFFFFFFFF, .c 0x0, .none⟩  -- EVT_TEL_DROP
  , ⟨0x21000, [(1088, 0x4)], .rw, 0xC0000001, .EVT_ROUTE, .EVT_ROUTE⟩  -- EVT_ROUTE
  ]

/-- Window 0x0003 of the tile. -/
def regRowsT3 : List RegRow :=
  [ ⟨0x30000, [], .rw, 0x80000007, .c 0x80000001, .FLT_CTRL⟩  -- FLT_CTRL
  , ⟨0x30004, [], .rw, 0xFFFFF, .c 0x2710, .FLT_GRACE⟩  -- FLT_GRACE
  , ⟨0x30008, [], .ro, 0xFFFFFFFF, .c 0x0, .FLT_STAT⟩  -- FLT_STAT
  , ⟨0x3000C, [], .wo, 0xFFFFFFFF, .c 0x0, .FLT_SAFE_CMD⟩  -- FLT_SAFE_CMD
  , ⟨0x30010, [], .ro, 0xFFFFFFFF, .c 0, .FLT_FIRST⟩  -- FLT_FIRST
  , ⟨0x30014, [], .wo, 0x1, .c 0x0, .FLT_CLR_FIRST⟩  -- FLT_CLR_FIRST
  , ⟨0x30020, [(8, 0x4)], .ro, 0xFFFFFFFF, .c 0, .FLT_ACC⟩  -- FLT_ACC
  , ⟨0x30040, [(16, 0x8)], .ro, 0xFFFFFFFF, .c 0x0, .FLT_ATT_ID⟩  -- FLT_ATT_ID
  , ⟨0x30044, [(16, 0x8)], .ro, 0xFFFFFFFF, .c 0x0, .FLT_ATT_DUE⟩  -- FLT_ATT_DUE
  , ⟨0x300C0, [], .rc, 0xFFFFFFFF, .c 0x0, .none⟩  -- FLT_ESC_CNT
  ]

/-- Window 0x0004 of the tile. -/
def regRowsT4 : List RegRow :=
  [ ⟨0x40000, [], .sh, 0xE0000000, .c 0xE0000000, .none⟩  -- THM_CTRL
  , ⟨0x40008, [], .sh, 0xFFFF, .c 0x1F4, .none⟩  -- THM_SHUT
  , ⟨0x4000C, [], .sh, 0xFFFF, .c 0x17C, .none⟩  -- THM_RESTART
  , ⟨0x40100, [], .ro, 0xFFFFFFFF, .c 0x1010000, .none⟩  -- THM_STAT
  , ⟨0x40104, [], .ro, 0xFFFFFFFF, .c 0x0, .none⟩  -- THM_TMAX
  , ⟨0x40108, [], .ro, 0xFFFFFFFF, .c 0x0, .none⟩  -- THM_VALID
  , ⟨0x4010C, [], .ro, 0xFFFFFFFF, .c 0x0, .none⟩  -- THM_EXCL
  , ⟨0x40110, [], .ro, 0xFFFFFFFF, .c 0x0, .none⟩  -- THM_FAULT
  , ⟨0x40114, [], .rc, 0xFFFFFFFF, .c 0x0, .none⟩  -- THM_LEHR_CNT
  , ⟨0x40118, [], .ro, 0xFFFFFFFF, .c 0x0, .none⟩  -- THM_LEHR_WT
  , ⟨0x4011C, [], .wo, 0x1, .c 0x0, .THM_LEHR_EXIT⟩  -- THM_LEHR_EXIT
  , ⟨0x40120, [(4, 0x4)], .ro, 0xFFFFFFFF, .c 0x0, .none⟩  -- THM_REGION
  , ⟨0x40130, [], .ro, 0xFFFFFFFF, .c 0x0, .none⟩  -- THM_DRV_MAX
  , ⟨0x40134, [], .ro, 0xFFFFFFFF, .c 0x0, .none⟩  -- THM_DRV_MEAN
  , ⟨0x40200, [(20, 0x4)], .ro, 0xFFFFFFFF, .c 0x0, .none⟩  -- THM_T
  , ⟨0x40300, [(20, 0x4)], .ro, 0xFFFFFFFF, .c 0x0, .none⟩  -- THM_RAW
  , ⟨0x40400, [(20, 0x4)], .ro, 0xFFFFFFFF, .THM_TRIM_N0, .none⟩  -- THM_TRIM_N0
  , ⟨0x40480, [(20, 0x4)], .ro, 0xFFFFFFFF, .THM_TRIM_K, .none⟩  -- THM_TRIM_K
  ]

/-- Window 0x0005 of the tile. -/
def regRowsT5 : List RegRow :=
  [ ⟨0x50000, [], .ro, 0xFFFFFFFF, .c 0x0, .TIME_NOW_LO⟩  -- TIME_NOW_LO
  , ⟨0x50008, [], .ro, 0xFFFFFFFF, .c 0x0, .none⟩  -- TIME_NOW_FRAC
  , ⟨0x50010, [], .ro, 0xFFFFFFFF, .c 0x0, .none⟩  -- TIME_STAT
  , ⟨0x50020, [], .ro, 0xFFFFFFFF, .c 0x0, .none⟩  -- TIME_RATE
  , ⟨0x50030, [], .rw, 0xFFFFFFFF, .c 0x3E8, .none⟩  -- TIME_STEP_THR
  , ⟨0x50038, [], .ro, 0xFFFFFFFF, .c 0x0, .none⟩  -- TIME_LAST_OFS
  , ⟨0x5003C, [], .rw, 0xFFFFFFFF, .c 0x64, .TIME_TXINT⟩  -- TIME_TXINT
  , ⟨0x50100, [], .ro, 0xFFFFFFFF, .c 0x0, .none⟩  -- TIME_FRM_NUM
  , ⟨0x50104, [], .ro, 0xFFFFFFFF, .c 0x0, .none⟩  -- TIME_FRM_ORIGIN
  , ⟨0x50180, [(8, 0x4)], .ro, 0xFFFFFFFF, .c 0x0, .none⟩  -- TIME_SLOT_CUR
  , ⟨0x50200, [(2, 0x4)], .ro, 0xFFFFFFFF, .c 0x0, .none⟩  -- TIME_HOP
  , ⟨0x51000, [], .sh, 0x8000000F, .c 0x1, .none⟩  -- TIME_FRM_CTRL
  , ⟨0x51004, [], .sh, 0xFFFFFFFF, .c 0x7F2815, .none⟩  -- TIME_FRM_PER
  , ⟨0x51008, [], .sh, 0xFFFFFFFF, .c 0x55555555, .none⟩  -- TIME_FRM_PERF
  , ⟨0x5100C, [], .sh, 0xFFFFFFFF, .c 0x0, .none⟩  -- TIME_FRM_START
  , ⟨0x51010, [], .sh, 0xFFFFFFFF, .c 0x0, .none⟩  -- TIME_FRM_SNUM
  , ⟨0x51020, [(8, 0x8)], .sh, 0xE3FFFFFF, .c 0x0, .none⟩  -- TIME_SLOT_OFS
  , ⟨0x51024, [(8, 0x8)], .sh, 0x3FFFFFF, .c 0x0, .none⟩  -- TIME_SLOT_LEN
  ]

/-- Window 0x0020 of the tile. -/
def regRowsT20 : List RegRow :=
  [ ⟨0x200000, [(2, 0x2000)], .rw, 0xF8000000, .c 0x88000000, .LNK_CTRL⟩  -- LNK_CTRL
  , ⟨0x200004, [(2, 0x2000)], .ro, 0xEEF0FF00, .c 0x0, .none⟩  -- LNK_STAT
  , ⟨0x200008, [(2, 0x2000)], .ro, 0xFFFFFFFF, .c 0x60600, .none⟩  -- LNK_LANES
  , ⟨0x20000C, [(2, 0x2000)], .ro, 0xFFFFFFFF, .c 0x0, .none⟩  -- LNK_PEER
  , ⟨0x200010, [(2, 0x2000)], .ro, 0xFFFFFFFF, .c 0x0, .none⟩  -- LNK_PEER_ID_LO
  , ⟨0x200014, [(2, 0x2000)], .ro, 0xFFFFFFFF, .c 0x0, .none⟩  -- LNK_PEER_ID_HI
  , ⟨0x200018, [(2, 0x2000)], .ro, 0xFFFFFFFF, .c 0x0, .none⟩  -- LNK_FOM
  , ⟨0x20001C, [(2, 0x2000)], .rw, 0xFFFF, .c 0x4020, .none⟩  -- LNK_FOM_THR
  , ⟨0x200020, [(2, 0x2000)], .ro, 0xFFFFFFFF, .c 0x0, .none⟩  -- LNK_EQ_SEL
  , ⟨0x200040, [(2, 0x2000), (8, 0x4)], .rw, 0x8FFF1F1F, .LNK_EQ, .none⟩  -- LNK_EQ
  , ⟨0x200080, [(2, 0x2000)], .rc, 0xFFFFFFFF, .c 0x0, .none⟩  -- LNK_CRC_ERR
  , ⟨0x200084, [(2, 0x2000)], .rc, 0xFFFFFFFF, .c 0x0, .none⟩  -- LNK_STOMPED
  , ⟨0x200088, [(2, 0x2000)], .rc, 0xFFFFFFFF, .c 0x0, .none⟩  -- LNK_HDR_ERR
  , ⟨0x20008C, [(2, 0x2000)], .rc, 0xFFFFFFFF, .c 0x0, .none⟩  -- LNK_SWAPS
  , ⟨0x200090, [(2, 0x2000)], .rc, 0xFFFFFFFF, .c 0x0, .none⟩  -- LNK_RETRAINS
  , ⟨0x200098, [(2, 0x2000)], .rc, 0xFFFFFFFF, .c 0x0, .none⟩  -- LNK_OWN_DROP
  , ⟨0x20009C, [(2, 0x2000)], .rc, 0xFFFFFFFF, .c 0x0, .none⟩  -- LNK_BYP_MAX
  ]

/-- Window 0x0022 of the tile. -/
def regRowsT22 : List RegRow :=
  [ ⟨0x220004, [], .ro, 0xFFFFFFFF, .c 0x7F, .none⟩  -- LNK_POS
  , ⟨0x220008, [], .ro, 0xFFFFFFFF, .LNK_DEVID_LO, .none⟩  -- LNK_DEVID_LO
  , ⟨0x22000C, [], .ro, 0xFFFFFFFF, .LNK_DEVID_HI, .none⟩  -- LNK_DEVID_HI
  , ⟨0x220010, [], .ro, 0xFFFFFFFF, .c 0x0, .none⟩  -- LNK_WALL
  , ⟨0x220018, [], .ro, 0xFFFFFFFF, .c 0x0, .none⟩  -- LNK_REF
  ]

/-- Window 0x0024 of the tile. -/
def regRowsT24 : List RegRow :=
  [ ⟨0x240000, [], .sh, 0x90000000, .c 0x80000000, .none⟩  -- LOAN_CTRL
  , ⟨0x240004, [], .sh, 0xFFFF, .c 0x3E8, .none⟩  -- LOAN_ORPHAN_TO
  , ⟨0x240020, [], .ro, 0xFFFFFFFF, .c 0x0, .LOAN_REC⟩  -- LOAN_REC
  , ⟨0x240024, [], .ro, 0xFFFFFFFF, .c 0x0, .none⟩  -- LOAN_EXPIRY
  , ⟨0x240028, [], .ro, 0xFFFFFFFF, .c 0x0, .none⟩  -- LOAN_REC_TERM
  , ⟨0x24002C, [], .ro, 0xFFFFFFFF, .c 0x0, .none⟩  -- LOAN_REL_TIME
  , ⟨0x240030, [], .rc, 0xFFFFFFFF, .c 0x0, .none⟩  -- LOAN_GRANTS
  , ⟨0x240034, [], .rc, 0xFFFFFFFF, .c 0x0, .none⟩  -- LOAN_EXPIRIES
  , ⟨0x240038, [], .ro, 0xFFFFFFFF, .c 0x0, .none⟩  -- LOAN_LAST_GAP
  , ⟨0x24003C, [], .rc, 0xFFFFFFFF, .c 0x0, .none⟩  -- LOAN_GAP_MAX
  , ⟨0x240040, [], .rc, 0xFFFFFFFF, .c 0x0, .none⟩  -- LOAN_BADPKT
  , ⟨0x240050, [], .rc, 0xFFFFFFFF, .c 0x0, .none⟩  -- LOAN_SBY_MISS
  , ⟨0x240054, [], .rc, 0xFFFFFFFF, .c 0x0, .none⟩  -- LOAN_SBY_PATH
  , ⟨0x240058, [], .rc, 0xFFFFFFFF, .c 0x0, .none⟩  -- LOAN_SBY_UNPAIRED
  , ⟨0x24005C, [], .ro, 0xFFFFFFFF, .c 0x0, .none⟩  -- LOAN_SBY_LAST
  , ⟨0x240060, [], .ro, 0xFFFFFFFF, .c 0x0, .none⟩  -- LOAN_SBY_FRAME
  ]

/-- Window 0x0028 of the tile. -/
def regRowsT28 : List RegRow :=
  [ ⟨0x280000, [(64, 0x10)], .sh, 0x8FFF003F, .c 0x0, .none⟩  -- SIG_POS
  , ⟨0x280004, [(64, 0x10)], .sh, 0x7F00FF, .c 0x0, .none⟩  -- SIG_XY
  , ⟨0x280008, [(64, 0x10)], .sh, 0xFF01FF, .c 0x0, .none⟩  -- SIG_WH
  , ⟨0x28000C, [(64, 0x10)], .ro, 0xFFFFFFFF, .c 0x0, .none⟩  -- SIG_VAL
  , ⟨0x281000, [(64, 0x4)], .ro, 0xFFFFFFFF, .c 0x0, .none⟩  -- SIG_VAL_FRAME
  , ⟨0x281100, [(64, 0x4)], .ro, 0xFFFFFFFF, .c 0x0, .none⟩  -- SIG_VAL_SLOT
  , ⟨0x282000, [(64, 0x10)], .sh, 0x3, .c 0x0, .none⟩  -- SIG_ACT
  , ⟨0x282004, [(64, 0x10)], .sh, 0x3FFF3FFF, .c 0x0, .none⟩  -- SIG_SUBST_RG
  , ⟨0x282008, [(64, 0x10)], .sh, 0x3FFF, .c 0x0, .none⟩  -- SIG_SUBST_B
  , ⟨0x282800, [], .rc, 0xFFFFFFFF, .c 0x0, .none⟩  -- SIG_MISS
  , ⟨0x282804, [], .ro, 0xFFFFFFFF, .c 0x0, .none⟩  -- SIG_LAST
  , ⟨0x282808, [], .ro, 0xFFFFFFFF, .c 0x0, .none⟩  -- SIG_LAST_FRAME
  , ⟨0x28280C, [], .rc, 0xFFFFFFFF, .c 0x0, .none⟩  -- SIG_NOSIG
  , ⟨0x282810, [], .rc, 0xFFFFFFFF, .c 0x0, .none⟩  -- SIG_SKIP
  ]

/-- Window 0x0030 of the tile. -/
def regRowsT30 : List RegRow :=
  [ ⟨0x300000, [(16, 0x4)], .ro, 0xFFFFFFFF, .IDN_PUBKEY, .none⟩  -- IDN_PUBKEY
  , ⟨0x300040, [(16, 0x4)], .ro, 0xFFFFFFFF, .IDN_CERT, .none⟩  -- IDN_CERT
  , ⟨0x300080, [(16, 0x4)], .ro, 0xFFFFFFFF, .IDN_ROOT, .none⟩  -- IDN_ROOT
  , ⟨0x3000C0, [], .ro, 0xFFFFFFFF, .c 0, .IDN_RAND⟩  -- IDN_RAND
  , ⟨0x300100, [(8, 0x4)], .rw, 0xFFFFFFFF, .c 0x0, .IDN_NONCE⟩  -- IDN_NONCE
  , ⟨0x300120, [], .wo, 0x1, .c 0x0, .IDN_CHAL_CMD⟩  -- IDN_CHAL_CMD
  , ⟨0x300124, [], .ro, 0xFFFFFFFF, .c 0x0, .none⟩  -- IDN_CHAL_STAT
  , ⟨0x300140, [(16, 0x4)], .ro, 0xFFFFFFFF, .c 0x0, .none⟩  -- IDN_SIG
  , ⟨0x300200, [], .rw, 0xFFFFFFFF, .c 0x0, .IDN_GEN⟩  -- IDN_GEN
  , ⟨0x300204, [], .ro, 0xFFFFFFFF, .c 0x0, .none⟩  -- IDN_CAT_STAT
  , ⟨0x300208, [], .ro, 0xFFFFFFFF, .c 0x0, .none⟩  -- IDN_CAT_FRAME
  , ⟨0x300210, [(4, 0x4)], .ro, 0xFFFFFFFF, .c 0x0, .none⟩  -- IDN_CAT
  , ⟨0x300220, [(8, 0x4)], .ro, 0xFFFFFFFF, .c 0x0, .none⟩  -- IDN_FOLIO_HASH
  , ⟨0x300240, [(8, 0x4)], .ro, 0xFFFFFFFF, .c 0, .none⟩  -- IDN_IMG_HASH
  , ⟨0x300260, [(8, 0x4)], .ro, 0xFFFFFFFF, .c 0x0, .none⟩  -- IDN_BANK_HASH
  , ⟨0x300280, [], .rw, 0xFFFFFFFF, .c 0x0, .none⟩  -- IDN_CAL_ID_LO
  , ⟨0x300284, [], .rw, 0xFFFFFFFF, .c 0x0, .none⟩  -- IDN_CAL_ID_HI
  , ⟨0x300288, [], .ro, 0xFFFFFFFF, .c 0x0, .none⟩  -- IDN_CAL_STAT
  , ⟨0x300800, [(16, 0x4)], .rw, 0xFFFFFFFF, .c 0x0, .none⟩  -- IDN_VFY_KEY
  , ⟨0x300840, [(8, 0x4)], .rw, 0xFFFFFFFF, .c 0x0, .none⟩  -- IDN_VFY_HASH
  , ⟨0x300860, [(16, 0x4)], .rw, 0xFFFFFFFF, .c 0x0, .none⟩  -- IDN_VFY_SIG
  , ⟨0x3008A0, [], .wo, 0x103, .c 0x0, .IDN_VFY_CMD⟩  -- IDN_VFY_CMD
  , ⟨0x3008A4, [], .ro, 0xFFFFFFFF, .c 0x0, .none⟩  -- IDN_VFY_STAT
  , ⟨0x3008A8, [], .rw, 0xFFFFFFFF, .c 0x0, .none⟩  -- IDN_VFY_DEVID_LO
  , ⟨0x3008AC, [], .rw, 0xFFFFFFFF, .c 0x0, .none⟩  -- IDN_VFY_DEVID_HI
  ]

/-- Window 0x0031 of the tile. -/
def regRowsT31 : List RegRow :=
  [ ⟨0x310000, [], .ro, 0xFFFFFFFF, .c 0, .none⟩  -- UPD_STAT
  , ⟨0x310004, [], .wo, 0xF0000001, .c 0x0, .UPD_CMD⟩  -- UPD_CMD
  , ⟨0x310008, [], .rw, 0xFFFFFFFF, .c 0x0, .none⟩  -- UPD_DL_LEN
  , ⟨0x31000C, [], .ro, 0xFFFFFFFF, .c 0x0, .none⟩  -- UPD_DL_NEXT
  , ⟨0x310014, [], .ro, 0xFFFFFFFF, .c 0x0, .none⟩  -- UPD_SESSION
  , ⟨0x310020, [], .ro, 0xFFFFFFFF, .c 0, .none⟩  -- UPD_ACT_VER
  , ⟨0x310024, [], .ro, 0xFFFFFFFF, .c 0x0, .none⟩  -- UPD_STG_VER
  , ⟨0x310028, [], .ro, 0xFFFFFFFF, .c 0, .none⟩  -- UPD_FLOOR
  , ⟨0x31002C, [], .ro, 0xFFFFFFFF, .UPD_EPOCH, .none⟩  -- UPD_EPOCH
  , ⟨0x310030, [], .ro, 0xFFFFFFFF, .c 0, .none⟩  -- UPD_PEER_MIN
  , ⟨0x310034, [], .rw, 0xFFF, .c 0x3C, .UPD_CONF_TO⟩  -- UPD_CONF_TO
  , ⟨0x310038, [], .ro, 0xFFFFFFFF, .c 0x0, .UPD_CONF_LEFT⟩  -- UPD_CONF_LEFT
  , ⟨0x31003C, [], .ro, 0xFFFFFFFF, .c 0, .none⟩  -- UPD_COR_BASE
  , ⟨0x310040, [], .ro, 0xFFFFFFFF, .c 0, .none⟩  -- UPD_SET_STAT
  , ⟨0x310044, [], .ro, 0xFFFFFFFF, .c 0, .none⟩  -- UPD_SETFMT
  , ⟨0x310048, [], .wo, 0x1, .c 0x0, .UPD_SET_CMD⟩  -- UPD_SET_CMD
  , ⟨0x310100, [(64, 0x4)], .rw, 0xFFFFFFFF, .c 0x0, .none⟩  -- UPD_FW_DATA
  , ⟨0x310200, [], .rw, 0xFFFFFFFF, .c 0x0, .none⟩  -- UPD_FW_ADDR
  , ⟨0x310204, [], .wo, 0xF000007F, .c 0x0, .UPD_FW_CMD⟩  -- UPD_FW_CMD
  , ⟨0x310208, [], .ro, 0xFFFFFFFF, .c 0x0, .none⟩  -- UPD_FW_STAT
  , ⟨0x310240, [(8, 0x4)], .ro, 0xFFFFFFFF, .UPD_OWNER, .none⟩  -- UPD_OWNER
  , ⟨0x310260, [], .wo, 0xFFFFFFFF, .c 0x0, .UPD_OWNER_CMD⟩  -- UPD_OWNER_CMD
  ]

/-- Window 0x0060 of the tile. -/
def regRowsT60 : List RegRow :=
  [ ⟨0x600000, [], .sh, 0x1, .c 0x0, .none⟩  -- PIX_CTRL
  , ⟨0x600100, [], .ro, 0xFFFFFFFF, .c 0x0, .none⟩  -- PIX_STAT
  , ⟨0x600104, [], .ro, 0xFFFFFFFF, .c 0x0, .none⟩  -- PIX_RX_FRAME
  , ⟨0x600108, [], .ro, 0xFFFFFFFF, .c 0x0, .none⟩  -- PIX_DISP_FRAME
  , ⟨0x60010C, [], .ro, 0xFFFFFFFF, .c 0x0, .none⟩  -- PIX_RX_MISSING
  , ⟨0x600110, [], .rc, 0xFFFFFFFF, .c 0x0, .none⟩  -- PIX_SHOWN
  , ⟨0x600114, [], .rc, 0xFFFFFFFF, .c 0x0, .none⟩  -- PIX_HELD
  , ⟨0x600118, [], .rc, 0xFFFFFFFF, .c 0x0, .none⟩  -- PIX_LOST
  , ⟨0x60011C, [], .rc, 0xFFFFFFFF, .c 0x0, .none⟩  -- PIX_CRC
  , ⟨0x600120, [], .rc, 0xFFFFFFFF, .c 0x0, .none⟩  -- PIX_DUP
  , ⟨0x600124, [], .rc, 0xFFFFFFFF, .c 0x0, .none⟩  -- PIX_STRAY
  , ⟨0x600128, [], .rc, 0xFFFFFFFF, .c 0x0, .none⟩  -- PIX_LATE
  , ⟨0x60012C, [], .rc, 0xFFFFFFFF, .c 0x0, .none⟩  -- PIX_ABORTS
  , ⟨0x600130, [], .rc, 0xFFFFFFFF, .c 0x0, .none⟩  -- PIX_ABANDON
  , ⟨0x600134, [], .rc, 0xFFFFFFFF, .c 0x0, .none⟩  -- PIX_OVERRUN
  , ⟨0x600200, [], .rc, 0xFFFFFFFF, .c 0x0, .none⟩  -- PIX_ECC_CORR
  , ⟨0x600204, [], .rc, 0xFFFFFFFF, .c 0x0, .none⟩  -- PIX_ECC_UNCORR
  , ⟨0x600208, [], .ro, 0xFFFFFFFF, .c 0x0, .none⟩  -- PIX_ECC_LAST
  , ⟨0x600220, [(8, 0x4)], .ro, 0xFFFFFFFF, .c 0x0, .none⟩  -- PIX_SPARE_USED
  , ⟨0x600240, [], .ro, 0xFFFFFFFF, .c 0x0, .none⟩  -- PIX_DARK
  , ⟨0x600244, [], .wo, 0xF, .c 0x0, .PIX_DARK_CLR⟩  -- PIX_DARK_CLR
  ]

/-- Window 0x0064 of the tile. -/
def regRowsT64 : List RegRow :=
  [ ⟨0x640000, [], .sh, 0x701, .c 0x1, .none⟩  -- COR_CTRL
  , ⟨0x640004, [], .sh, 0xFFFFFFFF, .c 0x1040064, .none⟩  -- COR_TANCH
  , ⟨0x640008, [], .sh, 0x1FF, .c 0x1, .none⟩  -- COR_WSTEP
  , ⟨0x64000C, [], .sh, 0x800001FF, .c 0x0, .none⟩  -- COR_WFORCE
  , ⟨0x640100, [], .ro, 0xFFFFFFFF, .c 0x0, .none⟩  -- COR_BSTAT
  , ⟨0x640104, [], .wo, 0x1, .c 0x0, .COR_COPY⟩  -- COR_COPY
  , ⟨0x640108, [], .rc, 0xFFFFFFFF, .c 0x0, .none⟩  -- COR_WDROP
  , ⟨0x640110, [(4, 0x4)], .ro, 0xFFFFFFFF, .c 0x0, .none⟩  -- COR_W
  , ⟨0x640120, [], .rc, 0xFFFFFFFF, .c 0x0, .none⟩  -- COR_CLIP
  , ⟨0x640124, [], .rc, 0xFFFFFFFF, .c 0x0, .none⟩  -- COR_FLOOR
  , ⟨0x640200, [], .rc, 0xFFFFFFFF, .c 0x0, .none⟩  -- COR_ECC_CORR
  , ⟨0x640204, [], .rc, 0xFFFFFFFF, .c 0x0, .none⟩  -- COR_ECC_UNCORR
  , ⟨0x640208, [], .ro, 0xFFFFFFFF, .c 0x0, .none⟩  -- COR_ECC_LAST
  , ⟨0x64020C, [], .ro, 0xFFFFFFFF, .c 0x0, .none⟩  -- COR_DEGRADED
  , ⟨0x640220, [(8, 0x4)], .ro, 0xFFFFFFFF, .c 0x0, .none⟩  -- COR_SPARE_USED
  ]

/-- Window 0x0065 of the tile. -/
def regRowsT65 : List RegRow :=
  [ ⟨0x650000, [(8192, 0x4)], .sh, 0xFFFFF, .COR_DEC, .none⟩  -- COR_DEC
  ]

/-- Window 0x0066 of the tile. -/
def regRowsT66 : List RegRow :=
  [ ⟨0x660000, [(8192, 0x4)], .sh, 0xFFFFF, .COR_DEC, .none⟩  -- COR_DEC
  ]

/-- Window 0x0068 of the tile. -/
def regRowsT68 : List RegRow :=
  [ ⟨0x680000, [], .sh, 0x80000033, .c 0x80000003, .none⟩  -- DRV_CTRL
  , ⟨0x680004, [(3, 0x4)], .sh, 0x3FF, .c 0x64, .none⟩  -- DRV_ICUR
  , ⟨0x680010, [], .sh, 0xF, .c 0x5, .none⟩  -- DRV_PDIS
  , ⟨0x680020, [], .sh, 0xFFFF, .c 0x154, .none⟩  -- DRV_KNEE
  , ⟨0x680024, [], .sh, 0xFFFF, .c 0x148, .none⟩  -- DRV_SLOPE
  , ⟨0x680028, [], .sh, 0x1FFFF, .c 0x8000, .none⟩  -- DRV_FLOOR
  , ⟨0x68002C, [], .sh, 0x1FFFF, .c 0x40, .none⟩  -- DRV_GSTEP
  , ⟨0x680030, [], .sh, 0xFFFF, .c 0x28, .none⟩  -- DRV_GUARD
  , ⟨0x680034, [], .sh, 0x1FFFF, .c 0x10000, .none⟩  -- DRV_WALL_GAIN
  , ⟨0x680100, [], .ro, 0xFFFFFFFF, .c 0x0, .none⟩  -- DRV_STAT
  , ⟨0x680104, [], .ro, 0xFFFFFFFF, .c 0x0, .none⟩  -- DRV_TMAX
  , ⟨0x680108, [], .ro, 0xFFFFFFFF, .c 0x10000, .none⟩  -- DRV_G_LOC
  , ⟨0x68010C, [], .ro, 0xFFFFFFFF, .c 0x10000, .none⟩  -- DRV_G_TGT
  , ⟨0x680110, [], .ro, 0xFFFFFFFF, .c 0x10000, .none⟩  -- DRV_G_USE
  , ⟨0x680114, [], .rc, 0xFFFFFFFF, .c 0x0, .none⟩  -- DRV_CLIP
  ]

/-- Window 0x006C of the tile. -/
def regRowsT6C : List RegRow :=
  [ ⟨0x6C0000, [], .sh, 0x813F0F07, .c 0x81200500, .none⟩  -- SCAN_CFG
  , ⟨0x6C0008, [], .sh, 0x1F, .c 0x0, .none⟩  -- SCAN_BANDSEL
  , ⟨0x6C0010, [(2, 0x10)], .sh, 0xFFF, .c 0x190, .none⟩  -- SCAN_BLANK
  , ⟨0x6C0014, [(2, 0x10)], .sh, 0xFFFFF0FF, .c 0x280C803C, .none⟩  -- SCAN_TIMING
  , ⟨0x6C0100, [(2, 0x20), (8, 0x4)], .sh, 0x1F1F1F1F, .SCAN_ORDER, .none⟩  -- SCAN_ORDER
  , ⟨0x6C0400, [], .ro, 0xFFFFFFFF, .c 0x0, .SCAN_STAT⟩  -- SCAN_STAT
  , ⟨0x6C0404, [], .ro, 0xFFFFFFFF, .c 0x0, .SCAN_LATCH⟩  -- SCAN_LATCH
  , ⟨0x6C0408, [], .rc, 0xFFFFFFFF, .c 0x0, .none⟩  -- SCAN_CUT
  ]

/-- Window 0x0070 of the tile. -/
def regRowsT70 : List RegRow :=
  [ ⟨0x700000, [], .sh, 0x9000000F, .c 0x0, .none⟩  -- TRIM_CTRL
  , ⟨0x700004, [], .sh, 0xFFFF, .c 0x258, .none⟩  -- TRIM_INT
  , ⟨0x700008, [], .sh, 0x3FFFFFF, .c 0x648000, .none⟩  -- TRIM_REF
  , ⟨0x70000C, [], .sh, 0xFFFF, .c 0x2000, .none⟩  -- TRIM_AGE
  , ⟨0x700010, [], .sh, 0x37FFFFF, .c 0x0, .none⟩  -- TRIM_I2C_CFG
  , ⟨0x700014, [(2, 0x4)], .sh, 0xFFFFFFFF, .c 0x0, .none⟩  -- TRIM_I2C_WR
  , ⟨0x70001C, [], .sh, 0xFFFF03FF, .c 0x3E80064, .none⟩  -- TRIM_I2C_TIM
  , ⟨0x700020, [(3, 0x4)], .sh, 0x17, .idx, .none⟩  -- TRIM_CH
  , ⟨0x700030, [(3, 0x4)], .sh, 0xFFFF, .c 0x0, .none⟩  -- TRIM_TGT
  , ⟨0x700040, [(3, 0x4)], .sh, 0xFFFF, .c 0x0, .none⟩  -- TRIM_TCO
  , ⟨0x70004C, [], .sh, 0xFFFF, .c 0x64, .none⟩  -- TRIM_TCAL
  , ⟨0x700050, [], .sh, 0xFFFFFFFF, .c 0xA0006666, .none⟩  -- TRIM_LIMIT
  , ⟨0x700054, [], .sh, 0xFFFF, .c 0x1, .none⟩  -- TRIM_STEP
  , ⟨0x700060, [(3, 0x4)], .sh, 0x8000FFFF, .c 0x0, .none⟩  -- TRIM_FORCE
  , ⟨0x700100, [], .ro, 0xFFFFFFFF, .c 0x0, .TRIM_STAT⟩  -- TRIM_STAT
  , ⟨0x700104, [(3, 0x4)], .ro, 0xFFFFFFFF, .c 0x0, .none⟩  -- TRIM_MEAS
  , ⟨0x700110, [(3, 0x4)], .ro, 0xFFFFFFFF, .c 0x0, .none⟩  -- TRIM_TARGET
  , ⟨0x700120, [(3, 0x4)], .ro, 0xFFFFFFFF, .c 0x8000, .none⟩  -- TRIM_GAIN
  , ⟨0x700130, [], .rc, 0xFFFFFFFF, .c 0x0, .none⟩  -- TRIM_I2C_ERRS
  , ⟨0x700134, [], .ro, 0xFFFFFFFF, .c 0x0, .none⟩  -- TRIM_LAST_WT
  , ⟨0x700140, [(3, 0x4)], .ro, 0xFFFFFFFF, .c 0x0, .none⟩  -- TRIM_RAW
  ]

/-- Window 0x0074 of the tile. -/
def regRowsT74 : List RegRow :=
  [ ⟨0x740000, [], .sh, 0xF800000F, .c 0xF8000003, .none⟩  -- DIAG_CTRL
  , ⟨0x740004, [], .sh, 0xFF07, .c 0x1E03, .none⟩  -- DIAG_THR
  , ⟨0x740008, [], .sh, 0xFF, .c 0x1, .none⟩  -- DIAG_PROBE
  , ⟨0x740010, [(8, 0x4)], .sh, 0xFFFFFFFF, .c 0x0, .none⟩  -- DIAG_SG_MAP
  , ⟨0x740030, [], .sh, 0xFFFF, .c 0x0, .none⟩  -- DIAG_SG_EN
  , ⟨0x740100, [(64, 0x4)], .sh, 0x803F803F, .c 0x0, .none⟩  -- DIAG_REMAP_SET
  , ⟨0x741000, [], .ro, 0xFFFFFFFF, .c 0x0, .none⟩  -- DIAG_STAT
  , ⟨0x741004, [], .w1c, 0xFFFF, .c 0x0, .DIAG_SG_OFF⟩  -- DIAG_SG_OFF
  , ⟨0x741008, [], .rw, 0x1F0FFF, .c 0x0, .none⟩  -- DIAG_LAMP_SEL
  , ⟨0x74100C, [], .ro, 0xFFFFFFFF, .c 0x0, .DIAG_LAMP_STAT⟩  -- DIAG_LAMP_STAT
  , ⟨0x741010, [], .wo, 0x1, .c 0x0, .DIAG_FLIST_CLR⟩  -- DIAG_FLIST_CLR
  , ⟨0x741018, [], .ro, 0xFFFFFFFF, .c 0x0, .none⟩  -- DIAG_GATE_STAT
  , ⟨0x74101C, [], .ro, 0xFFFFFFFF, .c 0x0, .none⟩  -- DIAG_REF_STAT
  , ⟨0x741020, [], .rc, 0xFFFFFFFF, .c 0x0, .none⟩  -- DIAG_PROBES
  , ⟨0x741024, [], .rc, 0xFFFFFFFF, .c 0x0, .none⟩  -- DIAG_RB_ERR
  , ⟨0x741100, [(64, 0x4)], .ro, 0xFFFFFFFF, .c 0x0, .none⟩  -- DIAG_FLIST
  , ⟨0x741200, [(64, 0x4)], .ro, 0xFFFFFFFF, .c 0x0, .none⟩  -- DIAG_REMAP_HW
  , ⟨0x741300, [(64, 0x4)], .ro, 0xFFFFFFFF, .c 0x0, .DIAG_BLK_STAT⟩  -- DIAG_BLK_STAT
  ]

/-- The rows of one 64 KiB window of a part's folio space. -/
def regRows : Part → Nat → List RegRow
  | .sender, 0x1 => regRowsS1
  | .sender, 0x2 => regRowsS2
  | .sender, 0x3 => regRowsS3
  | .sender, 0x4 => regRowsS4
  | .sender, 0x5 => regRowsS5
  | .sender, 0x8 => regRowsS8
  | .sender, 0x9 => regRowsS9
  | .sender, 0xA => regRowsSA
  | .sender, 0x10 => regRowsS10
  | .sender, 0x14 => regRowsS14
  | .sender, 0x18 => regRowsS18
  | .sender, 0x19 => regRowsS19
  | .sender, 0x1A => regRowsS1A
  | .sender, 0x1B => regRowsS1B
  | .sender, 0x1C => regRowsS1C
  | .sender, 0x1D => regRowsS1D
  | .sender, 0x20 => regRowsS20
  | .sender, 0x21 => regRowsS21
  | .sender, 0x22 => regRowsS22
  | .sender, 0x24 => regRowsS24
  | .sender, 0x28 => regRowsS28
  | .sender, 0x30 => regRowsS30
  | .sender, 0x31 => regRowsS31
  | .tile, 0x1 => regRowsT1
  | .tile, 0x2 => regRowsT2
  | .tile, 0x3 => regRowsT3
  | .tile, 0x4 => regRowsT4
  | .tile, 0x5 => regRowsT5
  | .tile, 0x20 => regRowsT20
  | .tile, 0x22 => regRowsT22
  | .tile, 0x24 => regRowsT24
  | .tile, 0x28 => regRowsT28
  | .tile, 0x30 => regRowsT30
  | .tile, 0x31 => regRowsT31
  | .tile, 0x60 => regRowsT60
  | .tile, 0x64 => regRowsT64
  | .tile, 0x65 => regRowsT65
  | .tile, 0x66 => regRowsT66
  | .tile, 0x68 => regRowsT68
  | .tile, 0x6C => regRowsT6C
  | .tile, 0x70 => regRowsT70
  | .tile, 0x74 => regRowsT74
  | _, _ => []

/-- The indices of `off` within dimensions listed from the widest stride down, if it falls exactly
on an instance. -/
def dimIdx : List (Nat × Nat) → Nat → Option (List Nat)
  | [], off => if off = 0 then some [] else none
  | (n, s) :: ds, off =>
    let i := off / s
    if i < n then (dimIdx ds (off - i * s)).map (i :: ·)
    else none

/-- The first row of a list that holds address `a`, with the indices there. -/
def findRow : List RegRow → Nat → Option (RegRow × List Nat)
  | [], _ => none
  | r :: rs, a =>
    if r.base ≤ a then
      match dimIdx r.dims (a - r.base) with
      | some ix => some (r, ix)
      | none => findRow rs a
    else findRow rs a

/-- The register of part `p` at folio address `a` (an active address). -/
def findReg (p : Part) (a : Nat) : Option (RegRow × List Nat) :=
  findRow (regRows p (a / 0x10000)) a

end Sys2Proof.Machine
end

