-- ==== Sys2Proof/Machine/EventMap.lean ====
section
/-!
DEFINITION. The event map: the ID of every event in each part (`Ev.<NAME>`), and one row per event
with its class (R412) and whether it is a level event (R411). Written from the event tables of
spec/02 to spec/19; each definition cites the rule of its table.
-/

namespace Sys2Proof.Machine

/-- Event classes of R412, with the codes of R413. -/
inductive Cls where | none | note | attend | urgent | fatal
  deriving DecidableEq, Repr

/-- The class code of R413. -/
def Cls.code : Cls → Nat
  | .none => 0 | .note => 1 | .attend => 2 | .urgent => 3 | .fatal => 4

/-- One event of the map: first ID, index dimensions, class, whether it is a level event. -/
structure EvRow where
  base  : Nat
  dims  : List (Nat × Nat)
  cls   : Cls
  level : Bool
  deriving DecidableEq, Repr

/-- CMT_APPLIED (R69), both parts. -/
def Ev.CMT_APPLIED : Nat := 0x000
/-- CMT_REJECTED (R69), both parts. -/
def Ev.CMT_REJECTED : Nat := 0x001
/-- SHADOW_LOCKED (R69), both parts. -/
def Ev.SHADOW_LOCKED : Nat := 0x002
/-- SWAP_REPORT (R69), sender only. -/
def Ev.SWAP_REPORT : Nat := 0x003
/-- MBX_IN (R69), sender only. -/
def Ev.MBX_IN : Nat := 0x004
/-- MBX_OUT_ACK (R69), sender only. -/
def Ev.MBX_OUT_ACK : Nat := 0x005
/-- HOST_DENIED (R69), sender only. -/
def Ev.HOST_DENIED : Nat := 0x006
/-- SWAP_REFUSED (R69), tile only. -/
def Ev.SWAP_REFUSED : Nat := 0x006
/-- RW_GAP (R69), tile only. -/
def Ev.RW_GAP : Nat := 0x007
/-- CORE_FAULT (R69). -/
def Ev.CORE_FAULT (part : Part) (n : Nat) : Nat := match part with
  | .sender => 0x008 + n
  | .tile => 0x008
/-- CORE_HALT (R69). -/
def Ev.CORE_HALT (part : Part) (n : Nat) : Nat := match part with
  | .sender => 0x00C + n
  | .tile => 0x00C
/-- TRCV_READY (R108), both parts. -/
def Ev.TRCV_READY : Nat := 0x010
/-- TRCV_OVF (R108), both parts. -/
def Ev.TRCV_OVF : Nat := 0x011
/-- XFER_DONE (R108). -/
def Ev.XFER_DONE (part : Part) (n : Nat) : Nat := match part with
  | .sender => 0x014 + n
  | .tile => 0x014
/-- XFER_ERR (R108). -/
def Ev.XFER_ERR (part : Part) (n : Nat) : Nat := match part with
  | .sender => 0x018 + n
  | .tile => 0x018
/-- NET_LINK (R141), sender only. -/
def Ev.NET_LINK (i : Nat) : Nat := 0x100 + i
/-- NET_CNT_HALF (R141), sender only. -/
def Ev.NET_CNT_HALF (i : Nat) : Nat := 0x104 + i
/-- NET_RX_ERR (R141), sender only. -/
def Ev.NET_RX_ERR (i : Nat) : Nat := 0x108 + i
/-- NET_WAKE (R141), sender only. -/
def Ev.NET_WAKE (i : Nat) : Nat := 0x10C + i
/-- NET_SNAP_DONE (R141), sender only. -/
def Ev.NET_SNAP_DONE (i : Nat) : Nat := 0x110 + i
/-- FLOW_FRAME (R141), sender only. -/
def Ev.FLOW_FRAME (f : Nat) : Nat := 0x120 + f
/-- FLOW_STALE (R141), sender only. -/
def Ev.FLOW_STALE (f : Nat) : Nat := 0x130 + f
/-- FLOW_PATH (R141), sender only. -/
def Ev.FLOW_PATH (f : Nat) : Nat := 0x140 + f
/-- FLOW_FMT (R141), sender only. -/
def Ev.FLOW_FMT (f : Nat) : Nat := 0x150 + f
/-- RING_READY (R141), sender only. -/
def Ev.RING_READY (r : Nat) : Nat := 0x160 + r
/-- RING_NOBUF (R141), sender only. -/
def Ev.RING_NOBUF : Nat := 0x1A0
/-- RING_TOOLONG (R141), sender only. -/
def Ev.RING_TOOLONG : Nat := 0x1A1
/-- FLOW_CNT_HALF (R141), sender only. -/
def Ev.FLOW_CNT_HALF : Nat := 0x1A4
/-- FRAME_LATCH (R170), both parts. -/
def Ev.FRAME_LATCH : Nat := 0x080
/-- FRAME_ORIGIN (R170), both parts. -/
def Ev.FRAME_ORIGIN : Nat := 0x081
/-- TIME_STATE (R170), both parts. -/
def Ev.TIME_STATE : Nat := 0x082
/-- TIME_STEP (R170), both parts. -/
def Ev.TIME_STEP : Nat := 0x083
/-- TIME_STEP_BLOCKED (R170), sender only. -/
def Ev.TIME_STEP_BLOCKED : Nat := 0x084
/-- PPS_EDGE (R170), sender only. -/
def Ev.PPS_EDGE : Nat := 0x085
/-- PPS_MISSING (R170), sender only. -/
def Ev.PPS_MISSING : Nat := 0x086
/-- PPS_OUTLIER (R170), sender only. -/
def Ev.PPS_OUTLIER : Nat := 0x087
/-- REF_LOST (R170), sender only. -/
def Ev.REF_LOST : Nat := 0x088
/-- TIME_SRC_LOST (R170), both parts. -/
def Ev.TIME_SRC_LOST : Nat := 0x089
/-- HOP_CHANGE (R170), both parts. -/
def Ev.HOP_CHANGE : Nat := 0x08A
/-- TXQ_READY (R170), sender only. -/
def Ev.TXQ_READY (i : Nat) : Nat := 0x090 + i
/-- TXQ_OVF (R170), sender only. -/
def Ev.TXQ_OVF (i : Nat) : Nat := 0x094 + i
/-- PHASE_STATE (R170), sender only. -/
def Ev.PHASE_STATE (j : Nat) : Nat := 0x098 + j
/-- PHASE_WINDOW (R170), sender only. -/
def Ev.PHASE_WINDOW (j : Nat) : Nat := 0x09C + j
/-- SLOT_LIMIT (R170), sender only. -/
def Ev.SLOT_LIMIT (s : Nat) : Nat := 0x0A0 + s
/-- DRC_READY (R197), sender only. -/
def Ev.DRC_READY : Nat := 0x200
/-- DRC_TRAIN_FAIL (R197), sender only. -/
def Ev.DRC_TRAIN_FAIL : Nat := 0x201
/-- DRC_CFG_DENIED (R197), sender only. -/
def Ev.DRC_CFG_DENIED : Nat := 0x202
/-- DRC_BW_OVER (R197), sender only. -/
def Ev.DRC_BW_OVER : Nat := 0x203
/-- TEST_DONE (R197), sender only. -/
def Ev.TEST_DONE : Nat := 0x204
/-- DRC_ECC_CORR (R197), sender only. -/
def Ev.DRC_ECC_CORR (i : Nat) : Nat := 0x208 + i
/-- DRC_ECC_UNCORR (R197), sender only. -/
def Ev.DRC_ECC_UNCORR (i : Nat) : Nat := 0x210 + i
/-- DRC_DRAM_HOT (R197), sender only. -/
def Ev.DRC_DRAM_HOT (i : Nat) : Nat := 0x218 + i
/-- DRC_DRIFT (R197), sender only. -/
def Ev.DRC_DRIFT (i : Nat) : Nat := 0x220 + i
/-- DRC_REFRESH_MULT (R197), sender only. -/
def Ev.DRC_REFRESH_MULT (i : Nat) : Nat := 0x228 + i
/-- DRC_LATE (R197), sender only. -/
def Ev.DRC_LATE (p : Nat) : Nat := 0x230 + p
/-- CMP_PIPE_FAIL (R222), sender only. -/
def Ev.CMP_PIPE_FAIL (p : Nat) : Nat := 0x280 + p
/-- CMP_UNIT_OFF (R222), sender only. -/
def Ev.CMP_UNIT_OFF (p : Nat) : Nat := 0x2A0 + p
/-- CMP_FO (R222), sender only. -/
def Ev.CMP_FO : Nat := 0x2B8
/-- CMP_FO_NONE (R222), sender only. -/
def Ev.CMP_FO_NONE : Nat := 0x2B9
/-- LYR_STALE (R222), sender only. -/
def Ev.LYR_STALE : Nat := 0x2BA
/-- LYR_LL_MISS (R222), sender only. -/
def Ev.LYR_LL_MISS : Nat := 0x2BB
/-- LYR_POISON (R222), sender only. -/
def Ev.LYR_POISON : Nat := 0x2BC
/-- LYR_NOFRAME (R222), sender only. -/
def Ev.LYR_NOFRAME : Nat := 0x2BD
/-- PV_FRAME (R222), sender only. -/
def Ev.PV_FRAME : Nat := 0x2BE
/-- PV_LATE (R222), sender only. -/
def Ev.PV_LATE : Nat := 0x2BF
/-- CLR_NEG (R239), sender only. -/
def Ev.CLR_NEG : Nat := 0x2C0
/-- CLR_OVER (R239), sender only. -/
def Ev.CLR_OVER : Nat := 0x2C1
/-- CHN_ABORT (R259), sender only. -/
def Ev.CHN_ABORT (k : Nat) : Nat := 0x380 + k
/-- CHN_NOLINK (R259), sender only. -/
def Ev.CHN_NOLINK (k : Nat) : Nat := 0x390 + k
/-- CHN_SKIP (R259), sender only. -/
def Ev.CHN_SKIP : Nat := 0x3A0
/-- LNK_STATE (R294). -/
def Ev.LNK_STATE (part : Part) (k : Nat) : Nat := match part with
  | .sender => 0x400 + 0x10 * k
  | .tile => 0x0C0 + 0x10 * k
/-- LNK_FAIL (R294). -/
def Ev.LNK_FAIL (part : Part) (k : Nat) : Nat := match part with
  | .sender => 0x401 + 0x10 * k
  | .tile => 0x0C1 + 0x10 * k
/-- LNK_LANE_SWAP (R294). -/
def Ev.LNK_LANE_SWAP (part : Part) (k : Nat) : Nat := match part with
  | .sender => 0x402 + 0x10 * k
  | .tile => 0x0C2 + 0x10 * k
/-- LNK_EQ_WEAK (R294). -/
def Ev.LNK_EQ_WEAK (part : Part) (k : Nat) : Nat := match part with
  | .sender => 0x403 + 0x10 * k
  | .tile => 0x0C3 + 0x10 * k
/-- LNK_CRC_ERR (R294). -/
def Ev.LNK_CRC_ERR (part : Part) (k : Nat) : Nat := match part with
  | .sender => 0x404 + 0x10 * k
  | .tile => 0x0C4 + 0x10 * k
/-- LNK_HDR_ERR (R294). -/
def Ev.LNK_HDR_ERR (part : Part) (k : Nat) : Nat := match part with
  | .sender => 0x405 + 0x10 * k
  | .tile => 0x0C5 + 0x10 * k
/-- LNK_NOPEER (R294). -/
def Ev.LNK_NOPEER (part : Part) (k : Nat) : Nat := match part with
  | .sender => 0x406 + 0x10 * k
  | .tile => 0x0C6 + 0x10 * k
/-- LNK_TRAIN_FAIL (R294). -/
def Ev.LNK_TRAIN_FAIL (part : Part) (k : Nat) : Nat := match part with
  | .sender => 0x407 + 0x10 * k
  | .tile => 0x0C7 + 0x10 * k
/-- LNK_REF_LOST (R294). -/
def Ev.LNK_REF_LOST (part : Part) (k : Nat) : Nat := match part with
  | .sender => 0x408 + 0x10 * k
  | .tile => 0x0C8 + 0x10 * k
/-- LNK_SLEEP (R294). -/
def Ev.LNK_SLEEP (part : Part) (k : Nat) : Nat := match part with
  | .sender => 0x409 + 0x10 * k
  | .tile => 0x0C9 + 0x10 * k
/-- LNK_WAKE (R294). -/
def Ev.LNK_WAKE (part : Part) (k : Nat) : Nat := match part with
  | .sender => 0x40A + 0x10 * k
  | .tile => 0x0CA + 0x10 * k
/-- LNK_DISCARD (R294), sender only. -/
def Ev.LNK_DISCARD (k : Nat) : Nat := 0x40B + 0x10 * k
/-- PV_DONE (R294), sender only. -/
def Ev.PV_DONE (k : Nat) : Nat := 0x40C + 0x10 * k
/-- PV_COLLISION (R294), sender only. -/
def Ev.PV_COLLISION (k : Nat) : Nat := 0x40D + 0x10 * k
/-- PV_BIAS (R294), sender only. -/
def Ev.PV_BIAS (k : Nat) : Nat := 0x40E + 0x10 * k
/-- LNK_PEER_CHANGE (R294). -/
def Ev.LNK_PEER_CHANGE (part : Part) (k : Nat) : Nat := match part with
  | .sender => 0x40F + 0x10 * k
  | .tile => 0x0CF + 0x10 * k
/-- POS_CHANGED (R294), tile only. -/
def Ev.POS_CHANGED : Nat := 0x0E0
/-- POS_CONFLICT (R294), tile only. -/
def Ev.POS_CONFLICT : Nat := 0x0E1
/-- OWN_DROP (R294), tile only. -/
def Ev.OWN_DROP : Nat := 0x0E2
/-- PV_WAKE (R294), tile only. -/
def Ev.PV_WAKE : Nat := 0x0E3
/-- REF_RESTORED (R294), tile only. -/
def Ev.REF_RESTORED : Nat := 0x0E4
/-- LOAN_STATE (R317), sender only. -/
def Ev.LOAN_STATE : Nat := 0x500
/-- PEER_LOST (R317), sender only. -/
def Ev.PEER_LOST : Nat := 0x501
/-- PEER_FOUND (R317), sender only. -/
def Ev.PEER_FOUND : Nat := 0x502
/-- XPATH_LOST (R317), sender only. -/
def Ev.XPATH_LOST : Nat := 0x503
/-- CHAIN_BEAT_LOST (R317), sender only. -/
def Ev.CHAIN_BEAT_LOST (k : Nat) : Nat := 0x510 + k
/-- HELD_CHANGE (R317), sender only. -/
def Ev.HELD_CHANGE (k : Nat) : Nat := 0x520 + k
/-- STK_DONE (R317), sender only. -/
def Ev.STK_DONE : Nat := 0x530
/-- STK_SKIP (R317), sender only. -/
def Ev.STK_SKIP : Nat := 0x531
/-- STK_PARTIAL (R317), sender only. -/
def Ev.STK_PARTIAL : Nat := 0x532
/-- LOAN_SPLIT (R317), sender only. -/
def Ev.LOAN_SPLIT : Nat := 0x533
/-- ORPHAN_SEEN (R317), sender only. -/
def Ev.ORPHAN_SEEN : Nat := 0x534
/-- LOAN_EXCL_DENIED (R317), sender only. -/
def Ev.LOAN_EXCL_DENIED : Nat := 0x535
/-- LOAN_GRANT (R317), tile only. -/
def Ev.LOAN_GRANT : Nat := 0x100
/-- LOAN_EXPIRED (R317), tile only. -/
def Ev.LOAN_EXPIRED : Nat := 0x101
/-- LOAN_RELEASED (R317), tile only. -/
def Ev.LOAN_RELEASED : Nat := 0x102
/-- LOAN_ORPHAN (R317), tile only. -/
def Ev.LOAN_ORPHAN : Nat := 0x103
/-- STBY_MISMATCH (R317), tile only. -/
def Ev.STBY_MISMATCH : Nat := 0x104
/-- STBY_PATH (R317), tile only. -/
def Ev.STBY_PATH : Nat := 0x105
/-- LOAN_BADPKT (R317), tile only. -/
def Ev.LOAN_BADPKT : Nat := 0x106
/-- SIG_MISMATCH (R345), tile only. -/
def Ev.SIG_MISMATCH : Nat := 0x120
/-- SIG_NOSIG (R345), tile only. -/
def Ev.SIG_NOSIG : Nat := 0x121
/-- PIX_SWAP (R345), tile only. -/
def Ev.PIX_SWAP : Nat := 0x140
/-- PIX_HOLD (R345), tile only. -/
def Ev.PIX_HOLD : Nat := 0x141
/-- PIX_LOSS (R345), tile only. -/
def Ev.PIX_LOSS : Nat := 0x142
/-- PIX_ABORT (R345), tile only. -/
def Ev.PIX_ABORT : Nat := 0x143
/-- PIX_LATE (R345), tile only. -/
def Ev.PIX_LATE : Nat := 0x144
/-- PIX_OVERRUN (R345), tile only. -/
def Ev.PIX_OVERRUN : Nat := 0x145
/-- PIX_ECC_CORR (R345), tile only. -/
def Ev.PIX_ECC_CORR : Nat := 0x146
/-- PIX_ECC_UNCORR (R345), tile only. -/
def Ev.PIX_ECC_UNCORR : Nat := 0x147
/-- PIX_NOSPARE (R345), tile only. -/
def Ev.PIX_NOSPARE : Nat := 0x148
/-- COR_COPY_DONE (R345), tile only. -/
def Ev.COR_COPY_DONE : Nat := 0x150
/-- COR_ECC_CORR (R345), tile only. -/
def Ev.COR_ECC_CORR : Nat := 0x151
/-- COR_ROW_LOST (R345), tile only. -/
def Ev.COR_ROW_LOST : Nat := 0x152
/-- COR_NOSPARE (R345), tile only. -/
def Ev.COR_NOSPARE : Nat := 0x153
/-- COR_TEMP_HOLD (R345), tile only. -/
def Ev.COR_TEMP_HOLD : Nat := 0x154
/-- COR_CLIP (R345), tile only. -/
def Ev.COR_CLIP : Nat := 0x155
/-- DRV_DERATE (R372), tile only. -/
def Ev.DRV_DERATE : Nat := 0x180
/-- DRV_DERATE_REQ (R372), tile only. -/
def Ev.DRV_DERATE_REQ : Nat := 0x181
/-- DRV_GUARD (R372), tile only. -/
def Ev.DRV_GUARD : Nat := 0x182
/-- DRV_FLOOR (R372), tile only. -/
def Ev.DRV_FLOOR : Nat := 0x183
/-- DRV_CLIP (R372), tile only. -/
def Ev.DRV_CLIP : Nat := 0x184
/-- SCAN_BAND (R372), tile only. -/
def Ev.SCAN_BAND : Nat := 0x190
/-- SCAN_CUT (R372), tile only. -/
def Ev.SCAN_CUT : Nat := 0x191
/-- TRIM_DONE (R372), tile only. -/
def Ev.TRIM_DONE : Nat := 0x1A0
/-- TRIM_I2C_ERR (R372), tile only. -/
def Ev.TRIM_I2C_ERR : Nat := 0x1A1
/-- TRIM_RANGE (R372), tile only. -/
def Ev.TRIM_RANGE : Nat := 0x1A2
/-- LAMP_FAULT (R394), tile only. -/
def Ev.LAMP_FAULT (b : Nat) : Nat := 0x1C0 + 0x8 * b
/-- CELL_FAIL (R394), tile only. -/
def Ev.CELL_FAIL (b : Nat) : Nat := 0x1C1 + 0x8 * b
/-- NOSPARE (R394), tile only. -/
def Ev.NOSPARE (b : Nat) : Nat := 0x1C2 + 0x8 * b
/-- UNMEASURED (R394), tile only. -/
def Ev.UNMEASURED (b : Nat) : Nat := 0x1C3 + 0x8 * b
/-- REMAP_DROP (R394), tile only. -/
def Ev.REMAP_DROP (b : Nat) : Nat := 0x1C4 + 0x8 * b
/-- GATE_SHORT (R394), tile only. -/
def Ev.GATE_SHORT (r : Nat) : Nat := 0x3C0 + 0x8 * r
/-- GATE_STUCK (R394), tile only. -/
def Ev.GATE_STUCK (r : Nat) : Nat := 0x3C1 + 0x8 * r
/-- GROUP_OFF (R394), tile only. -/
def Ev.GROUP_OFF (g : Nat) : Nat := 0x3E0 + g
/-- GATE_CHIP (R394), tile only. -/
def Ev.GATE_CHIP : Nat := 0x3F0
/-- REF_SHORT (R394), tile only. -/
def Ev.REF_SHORT : Nat := 0x3F1
/-- REF_OPEN (R394), tile only. -/
def Ev.REF_OPEN : Nat := 0x3F2
/-- FLIST_OVF (R394), tile only. -/
def Ev.FLIST_OVF : Nat := 0x3F3
/-- THM_BAND (R410), both parts. -/
def Ev.THM_BAND : Nat := 0x040
/-- THM_HOT (R410), both parts. -/
def Ev.THM_HOT : Nat := 0x041
/-- THM_CRITICAL (R410), both parts. -/
def Ev.THM_CRITICAL : Nat := 0x042
/-- THM_LEHR (R410), both parts. -/
def Ev.THM_LEHR : Nat := 0x043
/-- THM_LEHR_EXIT (R410), both parts. -/
def Ev.THM_LEHR_EXIT : Nat := 0x044
/-- THM_BLIND (R410), both parts. -/
def Ev.THM_BLIND : Nat := 0x045
/-- THM_EXCLUDE (R410), both parts. -/
def Ev.THM_EXCLUDE : Nat := 0x046
/-- THM_SENSOR_FAULT (R410), both parts. -/
def Ev.THM_SENSOR_FAULT : Nat := 0x047
/-- FLT_ESCALATED (R432). -/
def Ev.FLT_ESCALATED (part : Part) : Nat := match part with
  | .sender => 0x5C0
  | .tile => 0x400
/-- FLT_FIRST (R432). -/
def Ev.FLT_FIRST (part : Part) : Nat := match part with
  | .sender => 0x5C1
  | .tile => 0x401
/-- SAFE_STATE (R432). -/
def Ev.SAFE_STATE (part : Part) : Nat := match part with
  | .sender => 0x5C2
  | .tile => 0x402
/-- LOG_READY (R432), sender only. -/
def Ev.LOG_READY : Nat := 0x5C3
/-- LOG_OVF (R432), sender only. -/
def Ev.LOG_OVF : Nat := 0x5C4
/-- TLOG_READY (R432), sender only. -/
def Ev.TLOG_READY : Nat := 0x5C5
/-- TLOG_OVF (R432), sender only. -/
def Ev.TLOG_OVF : Nat := 0x5C6
/-- TEL_SEQ_GAP (R432), sender only. -/
def Ev.TEL_SEQ_GAP : Nat := 0x5C7
/-- TEL_DROP (R432), tile only. -/
def Ev.TEL_DROP : Nat := 0x403
/-- NODE_BLOCK (R432). -/
def Ev.NODE_BLOCK (part : Part) : Nat := match part with
  | .sender => 0x5C8
  | .tile => 0x404
/-- NODE_REGION (R432). -/
def Ev.NODE_REGION (part : Part) : Nat := match part with
  | .sender => 0x5C9
  | .tile => 0x405
/-- FABRIC_ERR (R432), sender only. -/
def Ev.FABRIC_ERR (q : Nat) : Nat := 0x5CA + q
/-- FABRIC_CHIP (R432), sender only. -/
def Ev.FABRIC_CHIP : Nat := 0x5CE
/-- COLL_CHECK (R432). -/
def Ev.COLL_CHECK (part : Part) : Nat := match part with
  | .sender => 0x5CF
  | .tile => 0x406
/-- CHAL_DONE (R446). -/
def Ev.CHAL_DONE (part : Part) : Nat := match part with
  | .sender => 0x580
  | .tile => 0x410
/-- VFY_DONE (R446). -/
def Ev.VFY_DONE (part : Part) : Nat := match part with
  | .sender => 0x581
  | .tile => 0x411
/-- CAT_READY (R446). -/
def Ev.CAT_READY (part : Part) : Nat := match part with
  | .sender => 0x582
  | .tile => 0x412
/-- CAL_FOREIGN (R446), tile only. -/
def Ev.CAL_FOREIGN : Nat := 0x413
/-- CATRX (R446), sender only. -/
def Ev.CATRX : Nat := 0x583
/-- CHAIN_RX (R446), sender only. -/
def Ev.CHAIN_RX : Nat := 0x584
/-- UPD_STAGE (R471). -/
def Ev.UPD_STAGE (part : Part) : Nat := match part with
  | .sender => 0x590
  | .tile => 0x420
/-- UPD_VERIFY_FAIL (R471). -/
def Ev.UPD_VERIFY_FAIL (part : Part) : Nat := match part with
  | .sender => 0x591
  | .tile => 0x421
/-- UPD_CONFIRMED (R471). -/
def Ev.UPD_CONFIRMED (part : Part) : Nat := match part with
  | .sender => 0x592
  | .tile => 0x422
/-- UPD_RECOVERY (R471). -/
def Ev.UPD_RECOVERY (part : Part) : Nat := match part with
  | .sender => 0x593
  | .tile => 0x423
/-- SETTINGS_FALLBACK (R471). -/
def Ev.SETTINGS_FALLBACK (part : Part) : Nat := match part with
  | .sender => 0x594
  | .tile => 0x424
/-- UPD_FLASH_ERR (R471). -/
def Ev.UPD_FLASH_ERR (part : Part) : Nat := match part with
  | .sender => 0x595
  | .tile => 0x425
/-- UPD_COR_SWITCH (R471), tile only. -/
def Ev.UPD_COR_SWITCH : Nat := 0x426
/-- UPD_TX_DONE (R471), sender only. -/
def Ev.UPD_TX_DONE : Nat := 0x596
/-- UPD_FW_DONE (R471). -/
def Ev.UPD_FW_DONE (part : Part) : Nat := match part with
  | .sender => 0x597
  | .tile => 0x427
/-- RAIL_WARN (R488), both parts. -/
def Ev.RAIL_WARN : Nat := 0x020
/-- HOST_PERST (R488), sender only. -/
def Ev.HOST_PERST : Nat := 0x021
/-- BOOTED (R488), both parts. -/
def Ev.BOOTED : Nat := 0x022

/-- The events of the sender. -/
def evRowsS : List EvRow :=
  [ ⟨0x0, [], .none, false⟩  -- CMT_APPLIED
  , ⟨0x1, [], .note, false⟩  -- CMT_REJECTED
  , ⟨0x2, [], .note, false⟩  -- SHADOW_LOCKED
  , ⟨0x3, [], .note, false⟩  -- SWAP_REPORT
  , ⟨0x4, [], .none, true⟩  -- MBX_IN
  , ⟨0x5, [], .none, false⟩  -- MBX_OUT_ACK
  , ⟨0x6, [], .note, false⟩  -- HOST_DENIED
  , ⟨0x8, [(4, 0x1)], .urgent, false⟩  -- CORE_FAULT
  , ⟨0xC, [(4, 0x1)], .none, false⟩  -- CORE_HALT
  , ⟨0x10, [], .none, true⟩  -- TRCV_READY
  , ⟨0x11, [], .note, false⟩  -- TRCV_OVF
  , ⟨0x14, [(4, 0x1)], .none, false⟩  -- XFER_DONE
  , ⟨0x18, [(4, 0x1)], .note, false⟩  -- XFER_ERR
  , ⟨0x100, [(4, 0x1)], .none, false⟩  -- NET_LINK
  , ⟨0x104, [(4, 0x1)], .none, false⟩  -- NET_CNT_HALF
  , ⟨0x108, [(4, 0x1)], .note, false⟩  -- NET_RX_ERR
  , ⟨0x10C, [(4, 0x1)], .none, false⟩  -- NET_WAKE
  , ⟨0x110, [(4, 0x1)], .none, false⟩  -- NET_SNAP_DONE
  , ⟨0x120, [(16, 0x1)], .none, false⟩  -- FLOW_FRAME
  , ⟨0x130, [(16, 0x1)], .note, false⟩  -- FLOW_STALE
  , ⟨0x140, [(16, 0x1)], .note, false⟩  -- FLOW_PATH
  , ⟨0x150, [(16, 0x1)], .note, false⟩  -- FLOW_FMT
  , ⟨0x160, [(64, 0x1)], .none, false⟩  -- RING_READY
  , ⟨0x1A0, [], .note, false⟩  -- RING_NOBUF
  , ⟨0x1A1, [], .note, false⟩  -- RING_TOOLONG
  , ⟨0x1A4, [], .none, false⟩  -- FLOW_CNT_HALF
  , ⟨0x80, [], .none, false⟩  -- FRAME_LATCH
  , ⟨0x81, [], .none, false⟩  -- FRAME_ORIGIN
  , ⟨0x82, [], .note, false⟩  -- TIME_STATE
  , ⟨0x83, [], .note, false⟩  -- TIME_STEP
  , ⟨0x84, [], .note, false⟩  -- TIME_STEP_BLOCKED
  , ⟨0x85, [], .none, false⟩  -- PPS_EDGE
  , ⟨0x86, [], .note, false⟩  -- PPS_MISSING
  , ⟨0x87, [], .note, false⟩  -- PPS_OUTLIER
  , ⟨0x88, [], .note, false⟩  -- REF_LOST
  , ⟨0x89, [], .note, false⟩  -- TIME_SRC_LOST
  , ⟨0x8A, [], .note, false⟩  -- HOP_CHANGE
  , ⟨0x90, [(4, 0x1)], .none, true⟩  -- TXQ_READY
  , ⟨0x94, [(4, 0x1)], .note, false⟩  -- TXQ_OVF
  , ⟨0x98, [(4, 0x1)], .note, false⟩  -- PHASE_STATE
  ] ++
  [ ⟨0x9C, [(4, 0x1)], .note, false⟩  -- PHASE_WINDOW
  , ⟨0xA0, [(8, 0x1)], .note, false⟩  -- SLOT_LIMIT
  , ⟨0x200, [], .none, false⟩  -- DRC_READY
  , ⟨0x201, [], .fatal, false⟩  -- DRC_TRAIN_FAIL
  , ⟨0x202, [], .note, false⟩  -- DRC_CFG_DENIED
  , ⟨0x203, [], .note, false⟩  -- DRC_BW_OVER
  , ⟨0x204, [], .none, false⟩  -- TEST_DONE
  , ⟨0x208, [(8, 0x1)], .note, false⟩  -- DRC_ECC_CORR
  , ⟨0x210, [(8, 0x1)], .note, false⟩  -- DRC_ECC_UNCORR
  , ⟨0x218, [(8, 0x1)], .urgent, false⟩  -- DRC_DRAM_HOT
  , ⟨0x220, [(8, 0x1)], .note, false⟩  -- DRC_DRIFT
  , ⟨0x228, [(8, 0x1)], .none, false⟩  -- DRC_REFRESH_MULT
  , ⟨0x230, [(12, 0x1)], .note, false⟩  -- DRC_LATE
  , ⟨0x280, [(17, 0x1)], .urgent, false⟩  -- CMP_PIPE_FAIL
  , ⟨0x2A0, [(17, 0x1)], .note, false⟩  -- CMP_UNIT_OFF
  , ⟨0x2B8, [], .note, false⟩  -- CMP_FO
  , ⟨0x2B9, [], .urgent, false⟩  -- CMP_FO_NONE
  , ⟨0x2BA, [], .note, false⟩  -- LYR_STALE
  , ⟨0x2BB, [], .note, false⟩  -- LYR_LL_MISS
  , ⟨0x2BC, [], .note, false⟩  -- LYR_POISON
  , ⟨0x2BD, [], .note, false⟩  -- LYR_NOFRAME
  , ⟨0x2BE, [], .none, false⟩  -- PV_FRAME
  , ⟨0x2BF, [], .note, false⟩  -- PV_LATE
  , ⟨0x2C0, [], .note, false⟩  -- CLR_NEG
  , ⟨0x2C1, [], .note, false⟩  -- CLR_OVER
  , ⟨0x380, [(16, 0x1)], .note, false⟩  -- CHN_ABORT
  , ⟨0x390, [(16, 0x1)], .note, false⟩  -- CHN_NOLINK
  , ⟨0x3A0, [], .none, false⟩  -- CHN_SKIP
  , ⟨0x400, [(16, 0x10)], .none, false⟩  -- LNK_STATE
  , ⟨0x401, [(16, 0x10)], .urgent, false⟩  -- LNK_FAIL
  , ⟨0x402, [(16, 0x10)], .note, false⟩  -- LNK_LANE_SWAP
  , ⟨0x403, [(16, 0x10)], .note, false⟩  -- LNK_EQ_WEAK
  , ⟨0x404, [(16, 0x10)], .note, false⟩  -- LNK_CRC_ERR
  , ⟨0x405, [(16, 0x10)], .note, false⟩  -- LNK_HDR_ERR
  , ⟨0x406, [(16, 0x10)], .note, false⟩  -- LNK_NOPEER
  , ⟨0x407, [(16, 0x10)], .note, false⟩  -- LNK_TRAIN_FAIL
  , ⟨0x408, [(16, 0x10)], .note, false⟩  -- LNK_REF_LOST
  , ⟨0x409, [(16, 0x10)], .none, false⟩  -- LNK_SLEEP
  , ⟨0x40A, [(16, 0x10)], .none, false⟩  -- LNK_WAKE
  , ⟨0x40B, [(16, 0x10)], .note, false⟩  -- LNK_DISCARD
  ] ++
  [ ⟨0x40C, [(16, 0x10)], .none, false⟩  -- PV_DONE
  , ⟨0x40D, [(16, 0x10)], .note, false⟩  -- PV_COLLISION
  , ⟨0x40E, [(16, 0x10)], .note, false⟩  -- PV_BIAS
  , ⟨0x40F, [(16, 0x10)], .note, false⟩  -- LNK_PEER_CHANGE
  , ⟨0x500, [], .none, false⟩  -- LOAN_STATE
  , ⟨0x501, [], .note, false⟩  -- PEER_LOST
  , ⟨0x502, [], .none, false⟩  -- PEER_FOUND
  , ⟨0x503, [], .note, false⟩  -- XPATH_LOST
  , ⟨0x510, [(16, 0x1)], .note, false⟩  -- CHAIN_BEAT_LOST
  , ⟨0x520, [(16, 0x1)], .none, false⟩  -- HELD_CHANGE
  , ⟨0x530, [], .none, false⟩  -- STK_DONE
  , ⟨0x531, [], .note, false⟩  -- STK_SKIP
  , ⟨0x532, [], .note, false⟩  -- STK_PARTIAL
  , ⟨0x533, [], .note, false⟩  -- LOAN_SPLIT
  , ⟨0x534, [], .note, false⟩  -- ORPHAN_SEEN
  , ⟨0x535, [], .note, false⟩  -- LOAN_EXCL_DENIED
  , ⟨0x40, [], .none, false⟩  -- THM_BAND
  , ⟨0x41, [], .note, false⟩  -- THM_HOT
  , ⟨0x42, [], .urgent, false⟩  -- THM_CRITICAL
  , ⟨0x43, [], .urgent, false⟩  -- THM_LEHR
  , ⟨0x44, [], .none, false⟩  -- THM_LEHR_EXIT
  , ⟨0x45, [], .urgent, false⟩  -- THM_BLIND
  , ⟨0x46, [], .note, false⟩  -- THM_EXCLUDE
  , ⟨0x47, [], .note, false⟩  -- THM_SENSOR_FAULT
  , ⟨0x5C0, [], .urgent, false⟩  -- FLT_ESCALATED
  , ⟨0x5C1, [], .none, false⟩  -- FLT_FIRST
  , ⟨0x5C2, [], .none, false⟩  -- SAFE_STATE
  , ⟨0x5C3, [], .none, true⟩  -- LOG_READY
  , ⟨0x5C4, [], .note, false⟩  -- LOG_OVF
  , ⟨0x5C5, [], .none, true⟩  -- TLOG_READY
  , ⟨0x5C6, [], .note, false⟩  -- TLOG_OVF
  , ⟨0x5C7, [], .note, false⟩  -- TEL_SEQ_GAP
  , ⟨0x5C8, [], .urgent, false⟩  -- NODE_BLOCK
  , ⟨0x5C9, [], .fatal, false⟩  -- NODE_REGION
  , ⟨0x5CA, [(4, 0x1)], .urgent, false⟩  -- FABRIC_ERR
  , ⟨0x5CE, [], .fatal, false⟩  -- FABRIC_CHIP
  , ⟨0x5CF, [], .fatal, false⟩  -- COLL_CHECK
  , ⟨0x580, [], .none, false⟩  -- CHAL_DONE
  , ⟨0x581, [], .none, false⟩  -- VFY_DONE
  , ⟨0x582, [], .none, false⟩  -- CAT_READY
  ] ++
  [ ⟨0x583, [], .none, false⟩  -- CATRX
  , ⟨0x584, [], .none, false⟩  -- CHAIN_RX
  , ⟨0x590, [], .none, false⟩  -- UPD_STAGE
  , ⟨0x591, [], .note, false⟩  -- UPD_VERIFY_FAIL
  , ⟨0x592, [], .none, false⟩  -- UPD_CONFIRMED
  , ⟨0x593, [], .urgent, false⟩  -- UPD_RECOVERY
  , ⟨0x594, [], .note, false⟩  -- SETTINGS_FALLBACK
  , ⟨0x595, [], .note, false⟩  -- UPD_FLASH_ERR
  , ⟨0x596, [], .none, false⟩  -- UPD_TX_DONE
  , ⟨0x597, [], .none, false⟩  -- UPD_FW_DONE
  , ⟨0x20, [], .note, false⟩  -- RAIL_WARN
  , ⟨0x21, [], .note, false⟩  -- HOST_PERST
  , ⟨0x22, [], .none, false⟩  -- BOOTED
  ]

/-- The events of the tile. -/
def evRowsT : List EvRow :=
  [ ⟨0x0, [], .none, false⟩  -- CMT_APPLIED
  , ⟨0x1, [], .note, false⟩  -- CMT_REJECTED
  , ⟨0x2, [], .note, false⟩  -- SHADOW_LOCKED
  , ⟨0x6, [], .note, false⟩  -- SWAP_REFUSED
  , ⟨0x7, [], .note, false⟩  -- RW_GAP
  , ⟨0x8, [], .urgent, false⟩  -- CORE_FAULT
  , ⟨0xC, [], .none, false⟩  -- CORE_HALT
  , ⟨0x10, [], .none, true⟩  -- TRCV_READY
  , ⟨0x11, [], .note, false⟩  -- TRCV_OVF
  , ⟨0x14, [], .none, false⟩  -- XFER_DONE
  , ⟨0x18, [], .note, false⟩  -- XFER_ERR
  , ⟨0x80, [], .none, false⟩  -- FRAME_LATCH
  , ⟨0x81, [], .none, false⟩  -- FRAME_ORIGIN
  , ⟨0x82, [], .note, false⟩  -- TIME_STATE
  , ⟨0x83, [], .note, false⟩  -- TIME_STEP
  , ⟨0x89, [], .note, false⟩  -- TIME_SRC_LOST
  , ⟨0x8A, [], .note, false⟩  -- HOP_CHANGE
  , ⟨0xC0, [(2, 0x10)], .none, false⟩  -- LNK_STATE
  , ⟨0xC1, [(2, 0x10)], .urgent, false⟩  -- LNK_FAIL
  , ⟨0xC2, [(2, 0x10)], .note, false⟩  -- LNK_LANE_SWAP
  , ⟨0xC3, [(2, 0x10)], .note, false⟩  -- LNK_EQ_WEAK
  , ⟨0xC4, [(2, 0x10)], .note, false⟩  -- LNK_CRC_ERR
  , ⟨0xC5, [(2, 0x10)], .note, false⟩  -- LNK_HDR_ERR
  , ⟨0xC6, [(2, 0x10)], .note, false⟩  -- LNK_NOPEER
  , ⟨0xC7, [(2, 0x10)], .note, false⟩  -- LNK_TRAIN_FAIL
  , ⟨0xC8, [(2, 0x10)], .note, false⟩  -- LNK_REF_LOST
  , ⟨0xC9, [(2, 0x10)], .none, false⟩  -- LNK_SLEEP
  , ⟨0xCA, [(2, 0x10)], .none, false⟩  -- LNK_WAKE
  , ⟨0xCF, [(2, 0x10)], .note, false⟩  -- LNK_PEER_CHANGE
  , ⟨0xE0, [], .none, false⟩  -- POS_CHANGED
  , ⟨0xE1, [], .note, false⟩  -- POS_CONFLICT
  , ⟨0xE2, [], .note, false⟩  -- OWN_DROP
  , ⟨0xE3, [], .none, false⟩  -- PV_WAKE
  , ⟨0xE4, [], .none, false⟩  -- REF_RESTORED
  , ⟨0x100, [], .none, false⟩  -- LOAN_GRANT
  , ⟨0x101, [], .note, false⟩  -- LOAN_EXPIRED
  , ⟨0x102, [], .none, false⟩  -- LOAN_RELEASED
  , ⟨0x103, [], .note, false⟩  -- LOAN_ORPHAN
  , ⟨0x104, [], .note, false⟩  -- STBY_MISMATCH
  , ⟨0x105, [], .note, false⟩  -- STBY_PATH
  ] ++
  [ ⟨0x106, [], .note, false⟩  -- LOAN_BADPKT
  , ⟨0x120, [], .note, false⟩  -- SIG_MISMATCH
  , ⟨0x121, [], .note, false⟩  -- SIG_NOSIG
  , ⟨0x140, [], .none, false⟩  -- PIX_SWAP
  , ⟨0x141, [], .note, false⟩  -- PIX_HOLD
  , ⟨0x142, [], .note, false⟩  -- PIX_LOSS
  , ⟨0x143, [], .note, false⟩  -- PIX_ABORT
  , ⟨0x144, [], .note, false⟩  -- PIX_LATE
  , ⟨0x145, [], .note, false⟩  -- PIX_OVERRUN
  , ⟨0x146, [], .note, false⟩  -- PIX_ECC_CORR
  , ⟨0x147, [], .note, false⟩  -- PIX_ECC_UNCORR
  , ⟨0x148, [], .urgent, false⟩  -- PIX_NOSPARE
  , ⟨0x150, [], .none, false⟩  -- COR_COPY_DONE
  , ⟨0x151, [], .note, false⟩  -- COR_ECC_CORR
  , ⟨0x152, [], .note, false⟩  -- COR_ROW_LOST
  , ⟨0x153, [], .urgent, false⟩  -- COR_NOSPARE
  , ⟨0x154, [], .note, false⟩  -- COR_TEMP_HOLD
  , ⟨0x155, [], .note, false⟩  -- COR_CLIP
  , ⟨0x180, [], .note, false⟩  -- DRV_DERATE
  , ⟨0x181, [], .none, false⟩  -- DRV_DERATE_REQ
  , ⟨0x182, [], .note, false⟩  -- DRV_GUARD
  , ⟨0x183, [], .note, false⟩  -- DRV_FLOOR
  , ⟨0x184, [], .note, false⟩  -- DRV_CLIP
  , ⟨0x190, [], .none, false⟩  -- SCAN_BAND
  , ⟨0x191, [], .note, false⟩  -- SCAN_CUT
  , ⟨0x1A0, [], .none, false⟩  -- TRIM_DONE
  , ⟨0x1A1, [], .note, false⟩  -- TRIM_I2C_ERR
  , ⟨0x1A2, [], .note, false⟩  -- TRIM_RANGE
  , ⟨0x1C0, [(64, 0x8)], .note, false⟩  -- LAMP_FAULT
  , ⟨0x1C1, [(64, 0x8)], .note, false⟩  -- CELL_FAIL
  , ⟨0x1C2, [(64, 0x8)], .note, false⟩  -- NOSPARE
  , ⟨0x1C3, [(64, 0x8)], .none, false⟩  -- UNMEASURED
  , ⟨0x1C4, [(64, 0x8)], .note, false⟩  -- REMAP_DROP
  , ⟨0x3C0, [(4, 0x8)], .urgent, false⟩  -- GATE_SHORT
  , ⟨0x3C1, [(4, 0x8)], .urgent, false⟩  -- GATE_STUCK
  , ⟨0x3E0, [(16, 0x1)], .urgent, false⟩  -- GROUP_OFF
  , ⟨0x3F0, [], .urgent, false⟩  -- GATE_CHIP
  , ⟨0x3F1, [], .note, false⟩  -- REF_SHORT
  , ⟨0x3F2, [], .note, false⟩  -- REF_OPEN
  , ⟨0x3F3, [], .note, false⟩  -- FLIST_OVF
  ] ++
  [ ⟨0x40, [], .none, false⟩  -- THM_BAND
  , ⟨0x41, [], .note, false⟩  -- THM_HOT
  , ⟨0x42, [], .urgent, false⟩  -- THM_CRITICAL
  , ⟨0x43, [], .urgent, false⟩  -- THM_LEHR
  , ⟨0x44, [], .none, false⟩  -- THM_LEHR_EXIT
  , ⟨0x45, [], .urgent, false⟩  -- THM_BLIND
  , ⟨0x46, [], .note, false⟩  -- THM_EXCLUDE
  , ⟨0x47, [], .note, false⟩  -- THM_SENSOR_FAULT
  , ⟨0x400, [], .urgent, false⟩  -- FLT_ESCALATED
  , ⟨0x401, [], .none, false⟩  -- FLT_FIRST
  , ⟨0x402, [], .none, false⟩  -- SAFE_STATE
  , ⟨0x403, [], .note, false⟩  -- TEL_DROP
  , ⟨0x404, [], .urgent, false⟩  -- NODE_BLOCK
  , ⟨0x405, [], .fatal, false⟩  -- NODE_REGION
  , ⟨0x406, [], .fatal, false⟩  -- COLL_CHECK
  , ⟨0x410, [], .none, false⟩  -- CHAL_DONE
  , ⟨0x411, [], .none, false⟩  -- VFY_DONE
  , ⟨0x412, [], .none, false⟩  -- CAT_READY
  , ⟨0x413, [], .note, false⟩  -- CAL_FOREIGN
  , ⟨0x420, [], .none, false⟩  -- UPD_STAGE
  , ⟨0x421, [], .note, false⟩  -- UPD_VERIFY_FAIL
  , ⟨0x422, [], .none, false⟩  -- UPD_CONFIRMED
  , ⟨0x423, [], .urgent, false⟩  -- UPD_RECOVERY
  , ⟨0x424, [], .note, false⟩  -- SETTINGS_FALLBACK
  , ⟨0x425, [], .note, false⟩  -- UPD_FLASH_ERR
  , ⟨0x426, [], .none, false⟩  -- UPD_COR_SWITCH
  , ⟨0x427, [], .none, false⟩  -- UPD_FW_DONE
  , ⟨0x20, [], .note, false⟩  -- RAIL_WARN
  , ⟨0x22, [], .none, false⟩  -- BOOTED
  ]

/-- The row of event `id` in a list. -/
def findEv : List EvRow → Nat → Option EvRow
  | [], _ => none
  | r :: rs, id =>
    if r.base ≤ id then
      match dimIdx r.dims (id - r.base) with
      | some _ => some r
      | none => findEv rs id
    else findEv rs id

/-- The event rows of a part. -/
def evRows : Part → List EvRow
  | .sender => evRowsS
  | .tile => evRowsT

/-- The class of an event before promotion (R412); IDs of no table, the software events among
them, are no faults. -/
def evClass (p : Part) (id : Nat) : Cls := (findEv (evRows p) id).elim .none (·.cls)

/-- Whether an event is a level event (R411). -/
def evLevel (p : Part) (id : Nat) : Bool := (findEv (evRows p) id).elim false (·.level)

/-- The number of event IDs of a part (R411). -/
def evLimit : Part → Nat
  | .sender => 0x600
  | .tile => 0x440

end Sys2Proof.Machine
end

