-- ==== Sys2Proof/Machine/Lf24.lean ====
section
/-!
DEFINITION. LF24, the working format of the colour stages (R223), its rounding (R224), and the curves
that the colour tables hold after reset (R230, R232, R234), computed in fixed point far below half a
unit of any table entry.
-/

namespace Sys2Proof.Machine

/-- An LF24 value: sign [23], exponent [22:15], fraction [14:0] (R223). -/
abbrev LF := BitVec 24

/-- An exact number n ÷ d × 2^e. -/
structure Exact where
  n : Int
  d : Nat
  e : Int
  deriving DecidableEq, Repr

/-- The exact value of an LF24 encoding (R223). -/
def LF.val (x : LF) : Exact :=
  let v := x.toNat
  let s : Int := if v / 2 ^ 23 = 1 then -1 else 1
  let e : Nat := v / 2 ^ 15 % 256
  let f : Nat := v % 2 ^ 15
  if e = 0 then ⟨0, 1, 0⟩ else ⟨s * ((32768 + f : Nat) : Int), 1, (e : Int) - 127 - 15⟩

/-- Sign bit of an LF24 value. -/
def LF.neg (x : LF) : Bool := x.getLsbD 23

/-- An LF24 value is zero (R223). -/
def LF.isZero (x : LF) : Bool := x.toNat / 2 ^ 15 % 256 == 0

/-- The product of two exact values. -/
def Exact.mul (a b : Exact) : Exact := ⟨a.n * b.n, a.d * b.d, a.e + b.e⟩

/-- The sum of two exact values. -/
def Exact.add (a b : Exact) : Exact :=
  if a.e ≤ b.e then
    ⟨a.n * b.d + b.n * a.d * (2 ^ (b.e - a.e).toNat : Nat), a.d * b.d, a.e⟩
  else
    ⟨a.n * b.d * (2 ^ (a.e - b.e).toNat : Nat) + b.n * a.d, a.d * b.d, b.e⟩

/-- The negation of an exact value. -/
def Exact.neg (a : Exact) : Exact := ⟨-a.n, a.d, a.e⟩

/-- The quotient of two exact values; a divisor of 0 gives 0. -/
def Exact.div (a b : Exact) : Exact :=
  if b.n = 0 then ⟨0, 1, 0⟩
  else ⟨a.n * b.d * (if b.n < 0 then -1 else 1), a.d * b.n.natAbs, a.e - b.e⟩

/-- An integer as an exact value. -/
def Exact.ofInt (n : Int) : Exact := ⟨n, 1, 0⟩

/-- n ÷ d to nearest, ties to even. -/
def roundEven (n d : Nat) : Nat :=
  let q := n / d
  let r := n % d
  if 2 * r < d then q else if d < 2 * r then q + 1 else q + q % 2

/-- n ÷ d to nearest, halves upward. -/
def roundUp (n d : Nat) : Nat := (2 * n + d) / (2 * d)

/-- n × 2^k ÷ d with a k of either sign, as numerator and denominator. -/
def scale2 (n d : Nat) (k : Int) : Nat × Nat :=
  if 0 ≤ k then (n * 2 ^ k.toNat, d) else (n, d * 2 ^ (-k).toNat)

/-- The exponent E with 2^E ≤ n ÷ d × 2^e < 2^(E + 1), for n and d above 0. -/
def expOf (n d : Nat) (e : Int) : Int :=
  let g : Int := (Nat.log2 n : Int) - Nat.log2 d
  let (a, b) := scale2 n d (-g)
  if a < b then g - 1 + e else g + e

/-- Rounding of an exact value to LF24: to nearest, ties to even; magnitudes below 2⁻¹²⁶ become zero
with their sign, magnitudes above the largest saturate (R224). `sz` is the sign of an exact zero. -/
def roundLF (x : Exact) (sz : Bool := false) : LF :=
  if x.n = 0 then BitVec.ofNat 24 (if sz then 2 ^ 23 else 0)
  else
    let s := if x.n < 0 then 2 ^ 23 else 0
    let n := x.n.natAbs
    let E := expOf n x.d x.e
    if E < -126 then BitVec.ofNat 24 s
    else
      let (a, b) := scale2 n x.d (x.e + 15 - E)
      let m := roundEven a b
      let (m, E) := if m = 65536 then (32768, E + 1) else (m, E)
      if 128 < E then BitVec.ofNat 24 (s + 0x7FFFFF)
      else BitVec.ofNat 24 (s + (E + 127).toNat * 2 ^ 15 + (m - 32768))

/-- LF24 product, rounded once (R224). -/
def LF.mul (a b : LF) : LF := roundLF (a.val.mul b.val) (a.neg != b.neg)

/-- LF24 sum, rounded once (R224). -/
def LF.add (a b : LF) : LF := roundLF (a.val.add b.val) (a.neg && b.neg)

/-- LF24 difference, rounded once (R224). -/
def LF.sub (a b : LF) : LF := roundLF (a.val.add b.val.neg) (a.neg && !b.neg)

/-- LF24 multiply-add `c + a × b`, rounded once (R209, R224). -/
def LF.fma (c a b : LF) : LF := roundLF (c.val.add (a.val.mul b.val)) (c.neg && (a.neg != b.neg))

/-- LF24 quotient, rounded once (R224, R231). -/
def LF.div (a b : LF) : LF := roundLF (a.val.div b.val) (a.neg != b.neg)

/-- LF24 1.0 (R223). -/
def LF.one : LF := 0x3F8000

/-- LF24 zero (R223). -/
def LF.zero : LF := 0

/-- a × 2^k compared: the exact value is below the other. -/
def Exact.lt (a b : Exact) : Bool := (a.add b.neg).n < 0

/-- LF24 order. -/
def LF.lt (a b : LF) : Bool := Exact.lt a.val b.val

/-- The larger of two LF24 values. -/
def LF.max (a b : LF) : LF := if LF.lt a b then b else a

/-- x × n rounded to a number, for a non-negative x (R233): to nearest, ties to even. -/
def LF.toNatScaled (x : LF) (k : Nat) : Nat :=
  let v := x.val
  if v.n ≤ 0 then 0
  else
    let (a, b) := scale2 (v.n.natAbs * k) v.d v.e
    roundEven a b

/-- An IEEE 754 half-precision value as LF24: exact; an infinity becomes the largest magnitude, a NaN
becomes 0 (R224). -/
def lfOfHalf (h : BitVec 16) : LF :=
  let v := h.toNat
  let s := v / 2 ^ 15
  let e : Nat := v / 2 ^ 10 % 32
  let f : Nat := v % 2 ^ 10
  let sg : Int := if s = 1 then -1 else 1
  if e = 31 then
    if f = 0 then BitVec.ofNat 24 (s * 2 ^ 23 + 0x7FFFFF) else 0
  else if e = 0 then roundLF ⟨sg * f, 1, -24⟩ (s == 1)
  else roundLF ⟨sg * ((1024 + f : Nat) : Int), 1, (e : Int) - 25⟩

/-! ### Curves in fixed point, 2⁻¹⁶⁰ -/

/-- Fractional bits of the fixed point of the curves. -/
def fxBits : Nat := 160

/-- 1.0 in fixed point. -/
def fxOne : Nat := 2 ^ fxBits

/-- Terms of the series of 2 atanh(z) = 2 (z + z³ ÷ 3 + …): `p` is the power reached, `k` its odd exponent. -/
def atanhSum (z2 : Nat) : Nat → Nat → Nat → Nat
  | 0, _, _ => 0
  | t + 1, p, k => p / k + atanhSum z2 t (p * z2 / fxOne) (k + 2)

/-- ln of m in fixed point, for 1 ≤ m < 2. -/
def fxLn1 (m : Nat) : Nat :=
  let z := (m - fxOne) * fxOne / (m + fxOne)
  2 * atanhSum (z * z / fxOne) 60 z 1

/-- ln 2 in fixed point. -/
def fxLn2 : Nat := fxLn1 (2 * fxOne - 1)

/-- ln of n ÷ d in fixed point, for n and d above 0. -/
def fxLn (n d : Nat) : Int :=
  let E := expOf n d 0
  let (a, b) := scale2 n d (-E)
  E * fxLn2 + fxLn1 (a * fxOne / b)

/-- Terms of the exponential series of r in fixed point. -/
def expSum (r : Nat) : Nat → Nat → Nat → Nat
  | 0, _, _ => 0
  | t + 1, p, k => p + expSum r t (p * r / fxOne / k) (k + 1)

/-- exp of a fixed-point number, as an exact value. -/
def fxExp (x : Int) : Exact :=
  let k := x / fxLn2
  let r := (x - k * fxLn2).toNat
  ⟨expSum r 60 fxOne 1, 1, k - fxBits⟩

/-- (n ÷ d)^(p ÷ q) for n, d, q above 0, as an exact value; 0 for n = 0. -/
def fxPow (n d : Nat) (p q : Nat) : Exact :=
  if n = 0 then ⟨0, 1, 0⟩ else fxExp (fxLn n d * p / q)

/-- An exact non-negative value in fixed point. -/
def Exact.fx (x : Exact) : Nat :=
  let (a, b) := scale2 x.n.natAbs x.d (x.e + fxBits)
  a / b

/-- The BT.2100 PQ EOTF at n ÷ d, 1.0 standing for 10,000 cd/m² (R230). -/
def pqEotf (n d : Nat) : Exact :=
  if n = 0 then ⟨0, 1, 0⟩
  else if n = d then ⟨1, 1, 0⟩
  else
    -- V^(1 ÷ m₂), m₂ = 2523 ÷ 32
    let v := (fxPow n d 32 2523).fx
    -- (v − c₁) ÷ (c₂ − c₃ v), c₁ = 3424 ÷ 4096, c₂ = 2413 ÷ 128, c₃ = 2392 ÷ 128
    let num : Int := (v : Int) * 4096 - 3424 * fxOne
    let den : Int := (2413 * fxOne : Nat) - (2392 : Int) * v
    if num ≤ 0 then ⟨0, 1, 0⟩
    else fxPow num.toNat (den.toNat * 32) 8192 1305

/-- The BT.2100 HLG inverse OETF at n ÷ d (R230). -/
def hlgInv (n d : Nat) : Exact :=
  if 2 * n ≤ d then ⟨(n * n : Nat), 3 * d * d, 0⟩
  else
    -- (exp((V − c) ÷ a) + b) ÷ 12, a = 0.17883277, b = 1 − 4a, c = 0.5 − a ln(4a)
    let a : Nat := 17883277
    let lna := fxLn (4 * a) 100000000
    -- (V − 0.5) ÷ a + ln(4a)
    let x : Int := ((2 * (n : Int) - d) * fxOne * 100000000) / (2 * d * a) + lna
    let e := fxExp x
    let r := e.add ⟨100000000 - 4 * a, 100000000, 0⟩
    ⟨r.n, r.d * 12, r.e⟩

/-- The default tone curve at m for a peak of P cd/m², at L = 10,000 m (R232). -/
def toneDefault (m : Exact) : LF :=
  -- L ÷ P = 10 m at P = 1,000
  let r : Exact := ⟨10 * m.n, m.d, m.e⟩
  if r.n = 0 then 0
  else if Exact.lt ⟨3, 4, 0⟩ r then
    -- 1 − 0.25 exp(−(r − 0.75) ÷ 0.25) = 1 − 0.25 exp(3 − 4 r)
    let x : Int := 3 * fxOne - (⟨4 * r.n, r.d, r.e⟩ : Exact).fx
    let e := fxExp x
    roundLF ((Exact.ofInt 1).add ⟨-e.n, e.d * 4, e.e⟩)
  else roundLF r

/-! ### Reset contents of the tables -/

/-- Which curve a profile's transfer table holds after reset (R230). -/
def tfReset (prof i : Nat) : Nat :=
  let x : Exact :=
    if prof = 1 then hlgInv i 1024
    else if prof = 2 ∨ prof = 3 then fxPow i 1024 12 5
    else pqEotf i 1024
  (roundLF x).toNat

/-- `CLR_PROF_CTRL[n]` after reset (R230). -/
def profCtrlReset : Nat → Nat
  | 1 => 0x10780200 | 2 => 0x100 | 3 => 0x10 | 4 => 0x10 | 5 => 0x11 | _ => 0x200

/-- `CLR_PROF_GAIN[n]` after reset (R230). -/
def profGainReset : Nat → Nat
  | 1 => 0x3DCCCD | 2 => 0x3CA64C | 3 => 0x3CA64C | 5 => 0x3CA64C | _ => 0x3F8000

/-- `CLR_MTX[n][r][c]` after reset (R230). -/
def mtxReset (n r c : Nat) : Nat :=
  if n = 2 ∨ n = 3 ∨ n = 5 then
    (([10279, 5395, 710, 1132, 15066, 186, 269, 1442, 14673] : List Nat)[3 * r + c]?).getD 0
  else if r = c then 16384 else 0

/-- `CLR_TONE[b][i]` after reset, entry 512 standing for `CLR_TONE_END` (R232). -/
def toneReset (i : Nat) : Nat :=
  if i = 512 then (toneDefault ⟨4, 1, 0⟩).toNat
  else (toneDefault ⟨(16 + i % 16 : Nat), 16, (i / 16 : Nat) - 30⟩).toNat

/-- The default wall code (R234). -/
def encReset (c : Nat) : Nat :=
  let p := pqEotf c 16383
  let (a, b) := scale2 (p.n.natAbs * 1048575) p.d p.e
  max c (roundUp a b)

/-- The coefficient words of a bank after reset, by word offset in the bank: the bilinear filter (R211). -/
def coefReset (w : Nat) : Nat :=
  let w := w % 384
  if w < 256 then
    let ph := w / 4
    -- taps 2 and 3 share word 1, taps 4 and 5 share word 2
    if w % 4 = 1 then (16 * (64 - ph)) * 2 ^ 16 else if w % 4 = 2 then 16 * ph else 0
  else
    let ph := (w - 256) / 2
    -- taps 0 and 1 share word 0, taps 2 and 3 share word 1
    if w % 2 = 0 then (16 * (64 - ph)) * 2 ^ 16 else 16 * ph

end Sys2Proof.Machine
end

