-- ==== Sys2Proof/Machine/Sha256.lean ====
section
/-!
DEFINITION. SHA-256 (FIPS 180-4), which R434, R435, R441, R444, R447, R449 and R450 name.
-/

namespace Sys2Proof.Machine

/-- The integer part of the e-th root of n, built from bit i - 1 downwards. -/
def rootFrom (e n : Nat) : Nat → Nat → Nat
  | 0, r => r
  | i + 1, r => rootFrom e n i (if (r + 2 ^ i) ^ e ≤ n then r + 2 ^ i else r)

/-- The primes below 312, the first 64. -/
def shaPrimes : List Nat :=
  (List.range 312).filter fun p => 2 ≤ p && ([2, 3, 5, 7, 11, 13, 17] : List Nat).all fun d => p == d || p % d != 0

/-- The first 32 bits of the fractional part of the e-th root of p. -/
def rootFrac (e p : Nat) : Word := BitVec.ofNat 32 (rootFrom e (p * 2 ^ (32 * e)) 37 0)

/-- The round constants: from the cube roots of the primes. -/
def shaK : List Word := shaPrimes.map (rootFrac 3)

/-- The eight working words. -/
structure ShaSt where
  a : Word
  b : Word
  c : Word
  d : Word
  e : Word
  f : Word
  g : Word
  h : Word
  deriving DecidableEq, Repr

/-- The initial hash value: from the square roots of the first eight primes. -/
def shaInit : ShaSt :=
  let h := fun i => rootFrac 2 (shaPrimes.getD i 0)
  ⟨h 0, h 1, h 2, h 3, h 4, h 5, h 6, h 7⟩

/-- The message schedule: the last 16 words, oldest first, give the next one. -/
def shaExpand : Nat → List Word → List Word
  | 0, w => w
  | n + 1, w =>
    match w with
    | [] => []
    | x :: xs =>
      let w1 := xs.getD 0 0
      let w9 := xs.getD 8 0
      let w14 := xs.getD 13 0
      let s0 := w1.rotateRight 7 ^^^ w1.rotateRight 18 ^^^ (w1 >>> 3)
      let s1 := w14.rotateRight 17 ^^^ w14.rotateRight 19 ^^^ (w14 >>> 10)
      x :: shaExpand n (xs ++ [x + s0 + w9 + s1])

/-- One round. -/
def shaRound (s : ShaSt) (k w : Word) : ShaSt :=
  let s1 := s.e.rotateRight 6 ^^^ s.e.rotateRight 11 ^^^ s.e.rotateRight 25
  let ch := (s.e &&& s.f) ^^^ (~~~s.e &&& s.g)
  let t1 := s.h + s1 + ch + k + w
  let s0 := s.a.rotateRight 2 ^^^ s.a.rotateRight 13 ^^^ s.a.rotateRight 22
  let maj := (s.a &&& s.b) ^^^ (s.a &&& s.c) ^^^ (s.b &&& s.c)
  ⟨t1 + (s0 + maj), s.a, s.b, s.c, s.d + t1, s.e, s.f, s.g⟩

/-- The rounds over a message schedule. -/
def shaRounds : List Word → List Word → ShaSt → ShaSt
  | k :: ks, w :: ws, s => shaRounds ks ws (shaRound s k w)
  | _, _, s => s

/-- One block of 16 words. -/
def shaBlock (s : ShaSt) (w : List Word) : ShaSt :=
  let t := shaRounds shaK (shaExpand 48 w) s
  ⟨s.a + t.a, s.b + t.b, s.c + t.c, s.d + t.d, s.e + t.e, s.f + t.f, s.g + t.g, s.h + t.h⟩

/-- The blocks of a padded message, `n` of them. -/
def shaBlocks : Nat → List Word → ShaSt → ShaSt
  | 0, _, s => s
  | n + 1, ws, s => shaBlocks n (ws.drop 16) (shaBlock s (ws.take 16))

/-- A message with its padding: a 1 bit, zeros, the bit length in 64 bits. -/
def shaPad (m : List Byte) : List Byte :=
  m ++ 0x80 :: List.replicate ((119 - m.length % 64) % 64) 0 ++ bytesOfNatBE 8 (8 * m.length)

/-- SHA-256 of a byte string, as eight words, most significant first. -/
def sha256w (m : List Byte) : List Word :=
  let p := shaPad m
  let s := shaBlocks (p.length / 64) (wordsBE p) shaInit
  [s.a, s.b, s.c, s.d, s.e, s.f, s.g, s.h]

/-- SHA-256 of a byte string. -/
def sha256 (m : List Byte) : List Byte := bytesBE (sha256w m)

/-- The bytes of an ASCII tag of eight characters. -/
def asciiBytes (s : String) : List Byte := s.toList.map fun c => BitVec.ofNat 8 c.toNat

end Sys2Proof.Machine
end

