-- ==== Sys2Proof/Machine/P256.lean ====
section
/-!
DEFINITION. ECDSA over P-256 with SHA-256 (FIPS 186-5), which R434, R435, R438 and R449 name, and the keys and the
certificate of a part (R434).
-/

namespace Sys2Proof.Machine

/-- The field prime. -/
def p256P : Nat := 0xffffffff00000001000000000000000000000000ffffffffffffffffffffffff
/-- The curve's coefficient b; a is −3. -/
def p256B : Nat := 0x5ac635d8aa3a93e7b3ebbd55769886bc651d06b0cc53b0f63bce3c3e27d2604b
/-- The order of the base point. -/
def p256N : Nat := 0xffffffff00000000ffffffffffffffffbce6faada7179e84f3b9cac2fc632551

/-- A point: its coordinates, or none for the point at infinity. -/
abbrev EcPoint := Option (Nat × Nat)

/-- The base point. -/
def p256G : EcPoint :=
  some (0x6b17d1f2e12c4247f8bce6e563a440f277037d812deb33a0f4a13945d898c296,
        0x4fe342e2fe1a7f9b8ee7eb4a7c0f9e162bce33576b315ececbb6406837bf51f5)

/-- `b ^ e` modulo `m`, for an exponent of at most `n` bits, from its lowest bit up. -/
def powMod (m : Nat) : Nat → Nat → Nat → Nat → Nat
  | 0, _, _, acc => acc
  | n + 1, b, e, acc => powMod m n (b * b % m) (e / 2) (if e % 2 = 1 then acc * b % m else acc)

/-- The inverse modulo a prime. -/
def invMod (m x : Nat) : Nat := powMod m 256 (x % m) (m - 2) 1

/-- The third point of a line of slope l through points with abscissas x1 and x2, mirrored. -/
def ecLine (l x1 y1 x2 : Nat) : EcPoint :=
  let x := (l * l + (p256P - x1) + (p256P - x2)) % p256P
  some (x, (l * (x1 + (p256P - x)) + (p256P - y1)) % p256P)

/-- A point doubled. -/
def ecDouble : EcPoint → EcPoint
  | none => none
  | some (x, y) =>
    if y = 0 then none
    else ecLine ((3 * x * x + (p256P - 3)) % p256P * invMod p256P (2 * y) % p256P) x y x

/-- The sum of two points. -/
def ecAdd : EcPoint → EcPoint → EcPoint
  | none, q => q
  | p, none => p
  | some (x1, y1), some (x2, y2) =>
    if x1 = x2 then (if y1 = y2 then ecDouble (some (x1, y1)) else none)
    else ecLine ((y2 + (p256P - y1)) % p256P * invMod p256P (x2 + (p256P - x1)) % p256P) x1 y1 x2

/-- `k` times a point, for a `k` of at most `n` bits. -/
def ecMul : Nat → Nat → EcPoint → EcPoint
  | 0, _, _ => none
  | n + 1, k, q =>
    let r := ecMul n (k / 2) (ecDouble q)
    if k % 2 = 1 then ecAdd r q else r

/-- A point lies on the curve. -/
def onCurve (x y : Nat) : Bool :=
  x < p256P && y < p256P && y * y % p256P == (x * x % p256P * x + 3 * (p256P - x) + p256B) % p256P

/-- The abscissa of a point, 0 at infinity. -/
def ecX : EcPoint → Nat
  | none => 0
  | some (x, _) => x

/-- A signature r ‖ s of a hash with a private key and a per-signature secret. -/
def ecdsaSign (d k h : Nat) : List Byte :=
  let r := ecX (ecMul 256 k p256G) % p256N
  let s := invMod p256N k * ((h + r * d) % p256N) % p256N
  bytesOfNatBE 32 r ++ bytesOfNatBE 32 s

/-- A signature r ‖ s of a hash is valid under the public key X ‖ Y. -/
def ecdsaOk (key : List Byte) (h : Nat) (sig : List Byte) : Bool :=
  let x := natBE (key.take 32)
  let y := natBE (key.drop 32)
  let r := natBE (sig.take 32)
  let s := natBE (sig.drop 32)
  if onCurve x y && 0 < r && r < p256N && 0 < s && s < p256N then
    let w := invMod p256N s
    let q := ecAdd (ecMul 256 (h * w % p256N) p256G) (ecMul 256 (r * w % p256N) (some (x, y)))
    q.isSome && ecX q % p256N == r
  else false

/-- A private key or a per-signature secret, from 1 to n − 1, from random bits. -/
def scalarOf (x : Nat) : Nat := 1 + x % (p256N - 1)

/-- The public key X ‖ Y of a private key. -/
def pubOf (d : Nat) : List Byte :=
  match ecMul 256 d p256G with
  | none => List.replicate 64 0
  | some (x, y) => bytesOfNatBE 32 x ++ bytesOfNatBE 32 y

/-- The part code (R434, R447). -/
def partCode : Part → Byte
  | .sender => 0x30
  | .tile => 0x31

/-- A part's private key (R434). -/
def privKey (p : Part) : Nat := scalarOf (Config.keyBits p)

/-- A part's public key Q (R434). -/
def pubKey (p : Part) : List Byte := pubOf (privKey p)

/-- Yemaesk's production key (R434). -/
def rootPriv : Nat := scalarOf Config.rootBits

/-- Yemaesk's public production key (R434). -/
def rootKey : List Byte := pubOf rootPriv

/-- `LNK_DEVID` as 8 bytes, the most significant first (R434). -/
def devIdBytes (p : Part) : List Byte := bytesOfNatBE 8 (Config.devId p).toNat

/-- A part's certificate (R434). -/
def certOf (p : Part) : List Byte :=
  ecdsaSign rootPriv (scalarOf (Config.certBits p))
    (natBE (sha256 (asciiBytes "SKDG-CRT" ++ partCode p :: devIdBytes p ++ pubKey p)))

/-- Word `j` of a byte string (R433). -/
def idnWord (b : List Byte) (j : Nat) : Word := (wordsBE b).getD j 0

end Sys2Proof.Machine
end

