-- ==== Sys2Proof/Machine/State.lean ====
section
/-!
DEFINITION. The state of the block: one sender and one tile, everything the spec gives each, the
packets and messages sent, the queue of waiting commands, the reasons a step can stop, and the state
right after reset. State is plain data.
-/

namespace Sys2Proof.Machine

/-- Why a step stops with a fault. No command of this block faults the model: the faults of the Folko
cores are state (R104). -/
inductive Fault where
  /-- Raised by no step; kept so that the type has a name for a stop of the whole model. Safe. -/
  | none
  deriving DecidableEq, Repr

/-- Why a step gives no meaning. -/
inductive Refusal where
  /-- A command without a meaning yet, named by its mnemonic; raised by a refused arm of `exec`. Safe. -/
  | notModelled (mnemonic : String)
  deriving DecidableEq, Repr

/-- Reset phase of a part (R478, R480, R476). -/
inductive Phase where
  /-- internal reset held -/
  | held
  /-- internal reset released, cores not released yet -/
  | booting
  /-- cores released -/
  | up
  /-- the sender's low-power state -/
  | low
  deriving DecidableEq, Repr

/-- Why a core that runs does not issue its next instruction (R46, R50, R59, R60, R82). -/
inductive Stall where
  | none
  /-- WAITT until a wall time (R83) -/
  | waitt (w : Word)
  /-- WAITE on an event, with a wall time in the timed mode; `d` takes the result (R84) -/
  | waite (d : BitVec 5) (ev : Nat) (w : Option Word)
  /-- FRD of an address; `d` takes the value (R46) -/
  | frd (d : BitVec 5) (addr : Word)
  /-- FENCE (R82) -/
  | fence
  /-- CMT with mask and wall time; `d` takes the result word (R88) -/
  | cmt (d : BitVec 5) (mask w : Word)
  /-- FWR that found the posted-write queue full: address and value (R81) -/
  | fwr (addr v : Word)
  deriving DecidableEq, Repr

/-- A transfer the engine of a core has accepted (R97, R99). -/
structure XferJob where
  src : Nat
  dst : Nat
  ssp : Nat
  dsp : Nat
  len : Nat
  deriving DecidableEq, Repr

/-- One Folko core with its instruction memory and transfer engine (R39, R70, R71, R81, R97). -/
structure Core where
  /-- g1 to g31; g0 is never listed (R70) -/
  g : List (Nat × Word)
  pc : Word
  halted : Bool
  /-- HOST_CORE_CTL.CAUSE: 0 host, 1 BRK, 2 fault, 3 step (R62) -/
  cause : Nat
  /-- HOST_CORE_CTL.HALT: a halt is requested -/
  haltReq : Bool
  stall : Stall
  /-- the posted-write queue, oldest first: address and value (R81) -/
  posted : List (Word × Word)
  /-- writes that have left the queue and not reached their block node yet, oldest first (R110) -/
  transit : List (Word × Word)
  xfer : Option XferJob
  imem : List Host.Cell
  /-- the address of a debug FRD that waits for its value (R63) -/
  dbgFrd : Option Word
  /-- debug FWRs that wait for an entry of the posted-write queue, oldest first: address and value (R63) -/
  dbgFwr : List (Word × Word)
  /-- STEP runs: the core halts again once its one instruction has completed (R62) -/
  stepping : Bool
  /-- boot has not released the core (R457, R464) -/
  held : Bool
  deriving DecidableEq, Repr

/-- A core as reset leaves it (R40). -/
def Core.reset : Core :=
  { g := [], pc := 0, halted := false, cause := 0, haltReq := false, stall := .none, posted := [], transit := [],
    xfer := none, imem := [], dbgFrd := none, dbgFwr := [], stepping := false, held := true }

/-- An event record, four words (R413), and by `elapsed` when it entered its queue, 0 outside a queue (R419). -/
structure EvRec where
  w0 : Word
  w1 : Word
  w2 : Word
  w3 : Word
  entered : Nat
  deriving DecidableEq, Repr

/-- One ATTEND slot in use (R421). -/
structure AttSlot where
  id : Nat
  due : Word
  deriving DecidableEq, Repr

/-- The accession record (R426, R427); words 4 to 7 follow from these fields. -/
structure Accession where
  record : EvRec
  valid : Bool
  ovf : Bool
  safe : Bool
  lehr : Bool
  pos : Nat
  resets : Nat
  deriving DecidableEq, Repr

/-- An accession record that holds nothing (R426). -/
def Accession.empty : Accession :=
  { record := ⟨0, 0, 0, 0, 0⟩, valid := false, ovf := false, safe := false, lehr := false, pos := 0,
    resets := 0 }

/-- When a pending commit applies (R48, R49). -/
inductive Landing where
  /-- CMT: the first latch point at or after `w` and not before count `earliest` (2⁻³² ns) -/
  | byTime (w : Word) (earliest : Nat)
  /-- a swap: the latch point that ends frame F − 1 (R48) -/
  | byFrame
  deriving DecidableEq, Repr

/-- The pending commit of a part (R51). -/
structure Pending where
  mask : Word
  frame : Word
  landing : Landing
  remote : Bool
  tag : Word
  deriving DecidableEq, Repr

/-- The host interface of the sender (R61, R62): the BAR0 registers that have no other home. -/
structure HostIf where
  /-- HOST_DMA_SEL -/
  dmaSel : Word
  /-- HOST_MBX_IN_CTRL: BUSY [31], OVR [30], LEN [6:0] -/
  mbxIn : Word
  dbgSel : Word
  dbgAddr : Word
  dbgData : Word
  dbgStat : Word
  /-- MSI-X table words, 64 entries of four words (R62) -/
  msix : List (Nat × Word)
  /-- MSI-X pending bits -/
  pba : List (Nat × Word)
  deriving DecidableEq, Repr

/-- The host interface as reset leaves it (R62). -/
def HostIf.reset : HostIf :=
  { dmaSel := 0, mbxIn := 0, dbgSel := 0, dbgAddr := 0, dbgData := 0, dbgStat := 0, msix := [], pba := [] }

/-- What leaves the block. -/
inductive Output where
  /-- a Zugon packet on a LNK port (R277) -/
  | packet (port : LnkPort) (words : Packet)
  /-- an MSI-X message of a vector (R68) -/
  | msix (vec : Nat)
  /-- an Ethernet frame on a NET port, the FCS left out; `bad` when it ends with an inverted FCS (R190) -/
  | frame (port : Nat) (bytes : List Byte) (bad : Bool)
  /-- a control block of a port's logical lane with the bytes of its payload, after its sync header 0b01: an alignment
  block (R264, R266) -/
  | alignBlock (port : LnkPort) (lane : Nat) (bytes : List Byte)
  /-- a port sends control blocks of a type on its lanes: 0x5A for TRAIN, 0x3C for the four of SLEEP (R266, R268, R275) -/
  | control (port : LnkPort) (type : Byte)
  /-- filler words that a tile sends in the place of words it drops (R283) -/
  | filler (port : LnkPort) (words : Nat)
  /-- what a NET port begins to send while its link is down: Clause 81 remote fault, or idles (R112) -/
  | netFill (port : Nat) (remote : Bool)
  /-- a Porval frame of a sender port, preamble and delimiter included (R288) -/
  | porval (port : Nat) (bytes : List Byte)
  /-- a Porval response of the tile, preamble and delimiter included (R288) -/
  | porvalResp (bytes : List Byte)
  /-- the presence pulse of the tile on its pair (R290) -/
  | presence
  /-- bytes the tile's I²C master sends in a transfer, addresses included, and its clock in kHz (R364, R365) -/
  | i2c (khz : Nat) (bytes : List Byte)
  /-- the I²C master clears the bus: 9 SCL pulses, then STOP (R364, R367) -/
  | i2cClear
  /-- the I²C master ends a transfer with STOP after the byte in progress (R367) -/
  | i2cStop
  /-- what a read of a register by a command of its own gives (R438) -/
  | value (v : Word)
  /-- what a read of the frame-memory window gives, and the poisoned bit of its completion (R65, R190) -/
  | hostRead (v : Word) (ep : Bool)
  /-- the word a TAP's data register holds for shifting out (R509) -/
  | tdo (p : Part) (w : Word)
  deriving DecidableEq, Repr

/-- An open frame of a flow: timestamp, buffer, bytes placed by line, the packets by sequence number with the paths
that delivered each (1, 2 or 3 for both), the paths whose marker has come, and the start of the merge timer (R129 to
R132). -/
structure OpenFrame where
  ts : Word
  buf : Nat
  tally : List (Nat × Nat)
  got : List (Nat × Nat)
  mark1 : Bool
  mark2 : Bool
  timer : Option Word
  deriving DecidableEq, Repr

/-- What the flow engine and the compositor keep of a flow (R129 to R133, R200). -/
structure Flow where
  /-- open frames, oldest first -/
  frames : List OpenFrame
  /-- timestamps of the closed frames -/
  closed : List Word
  /-- the newest sequence number and the numbers marked within the last 131,072 -/
  newest : Option Nat
  marked : List Nat
  /-- wall time of the last packet of each path -/
  at1 : Word
  at2 : Word
  /-- the buffer after the one opened last -/
  next : Nat
  /-- the buffer that the compositor holds, with its frame's timestamp (R200) -/
  held : Option (Nat × Word)
  deriving DecidableEq, Repr

/-- A flow as reset leaves it. -/
def Flow.reset : Flow :=
  { frames := [], closed := [], newest := none, marked := [], at1 := 0, at2 := 0, next := 0, held := none }

/-- An entry of a channel's write queue, or a write that waits for one: its unit, the enabled bytes with their data
by place in the unit, its port, deadline and arrival (R183). -/
structure WqEntry where
  unit : Nat
  bytes : List (Nat × Byte)
  port : Nat
  deadline : Word
  entered : Word
  deriving DecidableEq, Repr

/-- A read that a channel has still to answer: its unit, port, chain and layer (ports 0 to 3), deadline and arrival, the
bytes a write-queue entry gave it, and the unit as the devices held it before a later write, or once issued (R184). -/
structure RdReq where
  unit : Nat
  port : Nat
  chain : Nat
  layer : Option Nat
  deadline : Word
  entered : Word
  fwd : List (Nat × Byte)
  data : List Byte
  deriving DecidableEq, Repr

/-- A request of a port that a write of it stalls (R183). -/
inductive DramReq where
  | write (e : WqEntry)
  | read (r : RdReq)
  deriving DecidableEq, Repr

/-- A unit handed to a port (R189, R190). -/
structure RdDone where
  port : Nat
  unit : Nat
  data : List Byte
  poisoned : Bool
  deriving DecidableEq, Repr

/-- A channel engine (R182 to R188). -/
structure DramCh where
  /-- the write queue, oldest first -/
  wq : List WqEntry
  /-- writes that found the queue full, at most one of each port, oldest first (R183) -/
  stalled : List WqEntry
  /-- reads not issued, oldest first -/
  reads : List RdReq
  /-- reads issued, oldest first -/
  flight : List RdReq
  /-- the open page of each bank: 16 × rank + bank, and its row -/
  pages : List (Nat × Nat)
  /-- 48 entries have been reached and the queue drains to 16 (R183) -/
  draining : Bool
  /-- banks whose refresh is postponed (R187) -/
  postponed : List Nat
  /-- log2 of the multiplier MR4 requires (R186, R188) -/
  mr4 : Nat
  deriving DecidableEq, Repr

/-- A channel engine as reset leaves it. -/
def DramCh.reset : DramCh :=
  { wq := [], stalled := [], reads := [], flight := [], pages := [], draining := false, postponed := [], mr4 := 0 }

/-- The frame memory and its controller (R171 to R196). -/
structure Dram where
  chans : List DramCh
  /-- bytes the devices hold that differ from what `fill` says, or that have been written since training when no fill
  has run -/
  mem : List Host.Cell
  /-- the pattern of the last FILL since training (R196) -/
  fill : Option Word
  /-- how often training has left the contents undefined (R176) -/
  epoch : Nat
  /-- requests of ports that are stalled, oldest first (R183) -/
  behind : List DramReq
  /-- units moved in the bandwidth window under way, and when it began (R193) -/
  moved : Nat
  windowAt : Word
  /-- a window that a latch point has ended and that is still to be reported: units moved, and ns (R193) -/
  window : Option (Nat × Nat)
  /-- the unit handed out last: the model's own -/
  last : Option RdDone
  deriving DecidableEq, Repr

/-- The frame memory as reset leaves it. -/
def Dram.reset : Dram :=
  { chans := List.replicate 8 DramCh.reset, mem := [], fill := none, epoch := 0,
    behind := [], moved := 0, windowAt := 0, window := none, last := none }

/-- What a chain's raster does with the frame in progress (R251, R252). -/
inductive SendSt where
  /-- its first line has not started -/
  | fresh
  | sending
  /-- the link was not ACTIVE throughout -/
  | unsent
  | aborted
  deriving DecidableEq, Repr

/-- A source line that a composition fetches: descriptor, fetch deadline, and the units still to be asked for (R209,
R247). -/
structure Fetched where
  layer : Nat
  deadline : Word
  left : List Nat
  deriving DecidableEq, Repr

/-- The composition a pipe works on for a chain: its slot, the unit of each layer by descriptor, the lines whose
fetch has units to ask for, bottom layer first, the low-latency lines missed by descriptor and row, and the source pixels replaced as poisoned: descriptor, row, first and
last column (R190, R202, R206, R209). -/
structure Comp where
  frame : Word
  slot : Nat
  units : List (Nat × Nat)
  fetched : List Fetched
  missed : List (Nat × Nat)
  poison : List (Nat × Nat × Nat × Nat)
  deriving DecidableEq, Repr

/-- The frame that the chain rasters work on (R244 to R255). -/
structure RasFrame where
  frame : Word
  /-- R255 skips it -/
  skip : Bool
  /-- the next raster line -/
  line : Nat
  chains : List (Nat × SendSt)
  /-- the write-back buffer it goes to (R215) -/
  wb : Option Nat
  /-- events raised once per frame: event, and layer (R201, R202, R240) -/
  once : List (Nat × Nat)
  /-- the CRC of each signature region so far (R218) -/
  crcs : List (Nat × Nat)
  /-- flows whose low-latency selection is made (R202) -/
  picked : List Nat
  deriving DecidableEq, Repr

/-- A preview frame being sent (R216), as the registers described it at its start: its buffer, RTP timestamp, the number
of its first packet and the packets sent; its port, lines, bytes of a line, payload bytes of a packet and packets of a
line; where its buffer lies and the pitch; the wall time of its start and the ns in which it is to be sent; its Ethernet
header, `CMP_PV_IPH`, IPv4 addresses, UDP ports, payload type and SSRC. -/
structure PvRun where
  buf : Nat
  ts : Word
  seq : Nat
  next : Nat
  port : Nat
  lines : Nat
  bytes : Nat
  plen : Nat
  per : Nat
  base : Nat
  pitch : Nat
  start : Word
  span : Nat
  eth : List Byte
  iph : Word
  ips : List Byte
  ports : List Byte
  pt : Nat
  ssrc : List Byte
  deriving DecidableEq, Repr

/-- Where a direction that is being trained stands (R267, R273). -/
inductive Sub where
  | train | lock
  deriving DecidableEq, Repr

/-- The Porval transaction of a chain port (R289, R294). -/
inductive PvPhase where
  | idle
  /-- the request goes out -/
  | sending
  /-- a response may start -/
  | await
  /-- the presence sample of a PING is due -/
  | sample
  /-- the random wait after a collision -/
  | backoff
  deriving DecidableEq, Repr

/-- One command of TSND in a transmit queue: its descriptor words and its destination word (R91, R93). -/
structure TxCmd where
  desc : List Word
  dst : Word
  deriving DecidableEq, Repr

/-- What a LNK port holds beside its registers. -/
structure Port where
  /-- the tile's own packets that wait for this port, oldest first (R285) -/
  own : List Packet
  /-- LNK_NOPEER has been raised in this DETECT (R267) -/
  noPeer : Bool
  /-- the entry measured last in this TRAIN (R268) -/
  lastEntry : Option Nat
  /-- the best FOM and its entry of receive lanes 0 to 2 in this TRAIN (R268) -/
  best : List (Nat × Nat)
  /-- good alignment blocks in a row, by logical lane (R267) -/
  good : List Nat
  /-- bad alignment blocks in a row, by logical lane (R271) -/
  bad : List Nat
  /-- body of the last EXCH received, ACK cleared (R269) -/
  exchBody : List Word
  /-- EXCH received unchanged in a row (R269) -/
  exchSame : Nat
  /-- identical EXCH with ACK set received in a row (R267) -/
  exchAcked : Nat
  /-- hop-delay results since EXCHANGE began (R267) -/
  hopN : Nat
  /-- the last hop-delay results, newest first, in units of 31.25 ps (R155) -/
  hops : List Nat
  /-- the probe under way: ID and t1 in units of 62.5 ps (R155) -/
  probe : Option (Word × Nat)
  /-- the receive and the transmit direction run TRAIN or LOCK alone (R273) -/
  rxSub : Sub
  txSub : Sub
  /-- failed attempts of a direction in RETRAIN (R273) -/
  tries : Nat
  /-- the lanes were deskewed at the last alignment block (R267) -/
  aligned : Bool
  /-- alignment blocks sent, by logical lane (R266) -/
  alignSent : List Nat
  /-- the scrambler's generator as the last alignment block of each logical lane left it, sent and received; 0 before the
  first (R264) -/
  scrTx : List (BitVec 31)
  scrRx : List (BitVec 31)
  /-- the entry whose FFE each transmit physical lane applies (R268) -/
  txEq : List Nat
  /-- FLAGS and BACK of the last good alignment block received (R266) -/
  peerFlags : Byte
  peerBack : BitVec 56
  /-- words of the tile's own packet that have still to go out, the forwarded packets that wait for its end, and the level
  of the bypass buffer in words (R285) -/
  ownLeft : Nat
  byp : List Packet
  level : Nat
  /-- the logical lane a swap in progress replaces (R272) -/
  rxSwap : Option Nat
  txSwap : Option Nat
  /-- a peer identity has been recorded since reset (R269) -/
  peerSeen : Bool
  /-- framing is lost until an alignment block points to a header (R283) -/
  unframed : Bool
  /-- when LNK_CRC_ERR and LNK_HDR_ERR were raised last, in ns since reset (R294) -/
  crcAt : Option Nat
  hdrAt : Option Nat
  /-- the Porval master of a chain port (R289) -/
  pv : PvPhase
  /-- the bytes of the request, CMD to the end of the payload (R292) -/
  pvTx : List Byte
  deriving DecidableEq, Repr

/-- A LNK port as reset leaves it. -/
def Port.reset : Port :=
  { own := [], noPeer := false, lastEntry := none, best := [(0, 0), (0, 0), (0, 0)], good := [0, 0, 0],
    bad := [0, 0, 0], exchBody := [], exchSame := 0, exchAcked := 0, hopN := 0, hops := [], probe := none,
    rxSub := .train, txSub := .train, tries := 0, aligned := false, alignSent := [0, 0, 0], scrTx := [0, 0, 0],
    scrRx := [0, 0, 0], txEq := [0, 0, 0], peerFlags := 0, peerBack := 0, ownLeft := 0, byp := [], level := 0, rxSwap := none, txSwap := none, peerSeen := false,
    unframed := false, crcAt := none, hdrAt := none, pv := .idle, pvTx := [] }

/-- The tile's Porval domain (R475, R290, R437): the accession record stands in `Chip.acc`. -/
structure PvDomain where
  powered : Bool
  noted : Bool
  /-- the WAKE_OUT_N pulse is low (R477) -/
  wakePulse : Bool
  /-- the last position known to the logic die, 0x7F for none (R290) -/
  lastPos : Word
  /-- the nonce of the challenge under way, or of the result held (R437) -/
  nonce : List Byte
  /-- a challenge runs (R437) -/
  busy : Bool
  /-- the signature of the last challenge, 64 bytes (R437) -/
  result : List Byte
  /-- the next FETCH answers PART 1 (R437) -/
  part : Bool
  /-- the last challenge was refused (R437) -/
  refused : Bool
  deriving DecidableEq, Repr

/-- The Porval domain as its own power-on reset leaves it (R475). -/
def PvDomain.reset : PvDomain :=
  { powered := true, noted := false, wakePulse := false, lastPos := 0x7F, nonce := [], busy := false,
    result := [], part := false, refused := false }

/-- RELEASE copies that a chain has still to send (R302, R310). -/
structure ReleaseJob where
  e : Word
  left : Nat
  deriving DecidableEq, Repr

/-- A stocktake under way in the sender (R310, R311). -/
structure Stocktake where
  chains : Nat
  frame : Word
  /-- when GO of a one-shot stocktake was written, in ns since reset -/
  goAt : Nat
  /-- the check at E − 1 ms has run -/
  checked : Bool
  /-- chains released -/
  released : Nat
  /-- result of the lowest-numbered chain that recorded one -/
  result : Option Nat
  /-- the release time E, fixed at the check -/
  e : Word
  deriving DecidableEq, Repr

/-- A claim that a tile has refused and kept: its expiry and term, and when it arrived, in ns since reset (R298). -/
structure Claim where
  letter : Letter
  expiry : Word
  term : Word
  arrived : Nat
  deriving DecidableEq, Repr

/-- A grant to a claim, and what it found, for a claim of sender A in the same cycle (R299). -/
structure GrantMark where
  at' : Nat
  lastHolder : Option Letter
  renewAt : Nat
  lastGap : Word
  gapMax : Word
  deriving DecidableEq, Repr

/-- The slot windows of a frame: the schedule base the tile used for it, and the start and length of each slot
(R322, R324). -/
structure Windows where
  frame : Word
  base : Word
  slots : List (Word × Nat)
  deriving DecidableEq, Repr

/-- The signatures a tile keeps of a region and slot for one frame, from the holder and from the standby (R313). -/
structure StandbySig where
  frame : Word
  h : Option Word
  s : Option Word
  deriving DecidableEq, Repr

/-- A running scan: its slot window, the line slots done, and the wall times of its start and scheduled end
(R356). -/
structure Scan where
  frame : Word
  slot : Nat
  start : Word
  stop : Word
  done : Nat
  deriving DecidableEq, Repr

/-- The line slot under way or last run: its line, its start, the gate tested in it, and the pads probed (R352, R376,
R388). -/
structure LineRun where
  line : Nat
  start : Word
  test : Option Nat
  probed : List Nat
  deriving DecidableEq, Repr

/-- The drive word of a lamp: low range or high range, and P (R346). -/
structure Drive where
  low : Bool
  p : Nat
  deriving DecidableEq, Repr

/-- A lamp's state (R375). -/
inductive LampState where
  | good | suspect | unmeasured | trial | openFault | shortFault
  deriving DecidableEq, Repr

/-- What the tile keeps of a lamp (R375, R376, R381). -/
structure Lamp where
  st : LampState
  /-- kind of the faulty readings: true SHORT, false OPEN -/
  short : Bool
  count : Nat
  /-- the run of a trial is one of GOOD readings -/
  good : Bool
  /-- the scanned-frame count of its line at the last reading -/
  readAt : Nat
  /-- the frame in which it took its last reading -/
  readFrame : Option Nat
  /-- the frame of its last probe -/
  probedAt : Option Nat
  deriving DecidableEq, Repr

/-- A lamp as reset leaves it (R375). -/
def Lamp.reset : Lamp :=
  { st := .unmeasured, short := false, count := 0, good := false, readAt := 0, readFrame := none, probedAt := none }

/-- A colour-trim cycle under way (R365, R367). -/
structure TrimCycle where
  colour : Nat
  readings : List Nat
  /-- the transfer awaited is the read of step 4, not the write of step 2 -/
  reading : Bool
  /-- the transfer awaited is a second try -/
  again : Bool
  /-- the bus has been cleared and the second try is due in 10 ms -/
  recover : Bool
  /-- when what is awaited began, in ns since reset, and whether the 1 ms of step 1 comes first -/
  since : Nat
  settle : Bool
  /-- reference sinks found open by this cycle's test (R389) -/
  opens : List Nat
  /-- `TRIM_TARGET` as the cycle found it (R367) -/
  before : List Word
  deriving DecidableEq, Repr

/-- What the thermal unit of a part keeps beside its registers (R397 to R406). -/
structure Thm where
  /-- conversions in a row without a fault condition, by sensor -/
  clean : List Nat
  /-- conversions in a row within 8 °C of the median, by sensor -/
  near : List Nat
  /-- the last candidate lay above the measured band -/
  up : Bool
  /-- the TIMEC cycle in which the measured band last moved, and the band it left (R403) -/
  bandAt : Option Nat
  bandWas : Nat
  blindRun : Nat
  shutRun : Nat
  coolRun : Nat
  /-- 1 has been written to `THM_LEHR_EXIT` since the part entered the lehr state -/
  permit : Bool
  deriving DecidableEq, Repr

/-- A thermal unit as reset leaves it. -/
def Thm.reset : Thm :=
  { clean := [], near := [], up := false, bandAt := none, bandWas := 1, blindRun := 0, shutRun := 0, coolRun := 0, permit := false }

/-- What the pixel store, its receiver and the correction stage hold beside their registers (R318 to R345). -/
structure PixUnit where
  /-- the receive and the display set: the 84 pixel words of each packet whose valid bit is 1, by 512 × slot +
  4 × row + column group (R318) -/
  pixRx : List (Nat × List Word)
  pixDisp : List (Nat × List Word)
  /-- rows of the display set that a spare has replaced, by 64 × (32 × slot + line) + block, until the set is
  written again (R339) -/
  deadRows : List Nat
  /-- the windows of the last accepted SYNC, and of the last frame whose slot starts the tile used (R324) -/
  sync : Option Windows
  win : Option Windows
  /-- the last slot of that frame whose window has started -/
  lastSlot : Option Nat
  /-- mismatching regions and slots, by 8 × region + slot, of the open frame and of the frame on display (R328) -/
  rxMis : List Nat
  dispMis : List Nat
  /-- regions and slots whose SIG has come for the open frame (R328) -/
  sigGot : List Nat
  /-- SIG_MISMATCH has been raised for the open frame (R345) -/
  sigRaised : Bool
  /-- the frame and the packets of the standby that the tile keeps, and the signatures by 8 × region + slot (R313) -/
  sbyFrame : Word
  sbyPix : List (Nat × List Word)
  sbySig : List (Nat × StandbySig)
  /-- the frames for which STBY_MISMATCH and STBY_PATH were raised last (R317) -/
  sbyTold : List (Option Word)
  /-- when PIX_ECC_CORR and COR_ECC_CORR were raised last, in ns since reset (R345) -/
  pixEccAt : Option Nat
  corEccAt : Option Nat
  /-- COR_CLIP and DRV_CLIP have been raised in this frame (R345, R372) -/
  corClip : Bool
  drvClip : Bool
  /-- words of the correction banks that are not the identity correction (R334, R338) -/
  cor0 : List (Nat × Word)
  cor1 : List (Nat × Word)
  /-- correction rows lit with identity correction, by 2,048 × bank + 32 × block + line, and whether the row has been written
  since; and rows of a dark region whose repair waits (R37, R340) -/
  corLost : List (Nat × Bool)
  corWait : List Nat
  /-- the identity fill after reset runs (R338) -/
  filling : Bool
  /-- the weight of a region has been taken from its temperature since reset (R333) -/
  wTaken : List Bool
  /-- the first latch point since reset has set G_use (R362) -/
  gTaken : Bool
  deriving DecidableEq, Repr

/-- The pixel path as reset leaves it (R326, R338). -/
def PixUnit.reset : PixUnit :=
  { pixRx := [], pixDisp := [], deadRows := [], sync := none, win := none, lastSlot := none, rxMis := [], dispMis := [],
    sigGot := [], sigRaised := false, sbyFrame := 0, sbyPix := [], sbySig := [], sbyTold := [none, none], pixEccAt := none, corEccAt := none,
    corClip := false, drvClip := false, cor0 := [], cor1 := [], corLost := [], corWait := [], filling := true, wTaken := [false, false, false, false],
    gTaken := false }

/-- What the scan engine, the trim loop and the lamp diagnostics hold beside their registers (R346 to R394). -/
structure LampUnit where
  /-- drive words of the slot that is scanned, by 3 × (256 × y + x) + colour (R346) -/
  drv : List (Nat × Drive)
  scan : Option Scan
  /-- pads lit by the last line slot, with their range and ticks (R350, R352) -/
  lit : List (Nat × Drive)
  /-- the line slot under way or last run (R352) -/
  run : Option LineRun
  /-- G_loc when DRV_DERATE_REQ was last raised (R362) -/
  gLast : Nat
  trim : Option TrimCycle
  /-- when `TRIM_CTRL.EN` became 1, or a commit abandoned a cycle; and when the last cycle since then was due; in ns since
  reset (R365, R367) -/
  trimEn : Nat
  trimLast : Option Nat
  /-- lamps that are not as reset leaves them, by 3,072 × line + pad (R375) -/
  lamps : List (Nat × Lamp)
  /-- frames in which a line was scanned and its lamps of a block counted, by 64 × line + block (R375) -/
  lineFrames : List (Nat × Nat)
  /-- lines scanned in this frame, as a mask; frames since reset (R374, R375) -/
  scanned : Nat
  diagFrame : Nat
  /-- blocks that have raised UNMEASURED in this frame (R375) -/
  unmEv : List Nat
  /-- the slot whose window carries this frame's probes, the first that `DIAG_PROBE.SLOTM` named at the latch
  point (R376) -/
  probeSlot : Option Nat
  /-- cells marked failed, by 64 × block + cell (R378) -/
  failed : List Nat
  /-- read-back results in a row: kind (3 STUCK_ON, 4 STUCK_OFF) and count, by 64 × block + cell (R379) -/
  rbRun : List (Nat × (Nat × Nat))
  /-- the next gate to test, and the results in a row by gate (R388) -/
  gateNext : Nat
  gateRun : List (Nat × (List (Nat × Nat) × Nat))
  /-- gate faults declared that the last tests still show: KIND and gate (R388) -/
  gateTold : List (Nat × Nat)
  /-- hardware remaps made since the pending commit's validation began: block, pad and, of a trial, the line
  of its lamp (R390) -/
  newMaps : List (Nat × Nat × Option Nat)
  deriving DecidableEq, Repr

/-- Scan, trim and diagnostics as reset leaves them (R375). -/
def LampUnit.reset : LampUnit :=
  { drv := [], scan := none, lit := [], run := none, gLast := 65536, trim := none, trimEn := 0, trimLast := none, lamps := [],
    lineFrames := [], scanned := 0, diagFrame := 0, unmEv := [], probeSlot := some 0, failed := [], rbRun := [], gateNext := 0,
    gateRun := [], gateTold := [], newMaps := [] }

/-- What the UPD block works on (R458 to R463). -/
inductive UpdJob where
  | none
  /-- the erase of OPEN -/
  | erase
  /-- the copy of LOAD: offset in the target, frame-memory byte address, bytes -/
  | load (off src len : Nat)
  | verify
  deriving DecidableEq, Repr

/-- The program that runs (R450, R464). -/
inductive Running where
  | confirmed | trial | recovery
  deriving DecidableEq, Repr

/-- A flash write of R469 under way. -/
inductive FwJob where
  | erase (addr : Nat)
  | program (addr : Nat) (words : List Word)
  deriving DecidableEq, Repr

/-- A DATA packet that waits to be programmed, and the sender and SESSION it came with (R460). -/
structure UpdData where
  off : Nat
  words : List Word
  sender : Letter
  session : Word
  deriving DecidableEq, Repr

/-- What the UPD block of a part holds beside its registers and the flash (R458 to R464). -/
structure Upd where
  job : UpdJob
  /-- the sender and the SESSION of the CONTROL packet that is answered when the job ends (R460) -/
  answer : Option (Letter × Word)
  /-- LEN of the OPEN (R459) -/
  len : Nat
  /-- the open session (R460) -/
  session : Option Word
  /-- DATA packets that wait to be programmed, oldest first (R460) -/
  waiting : List UpdData
  /-- the copy has been repeated once (R463) -/
  again : Bool
  fw : Option FwJob
  running : Running
  /-- OWNER_KEY and EPOCH of the running program (R447) -/
  ownerKey : List Byte
  epoch : Nat
  /-- TIMEC cycles left of the confirmation timer while it runs (R464) -/
  confLeft : Option Nat
  deriving DecidableEq, Repr

/-- The UPD block as reset leaves it. -/
def Upd.reset : Upd :=
  { job := .none, answer := none, len := 0, session := none, waiting := [], again := false, fw := none,
    running := .confirmed, ownerKey := [], epoch := 0, confLeft := none }

/-- A transmit run of the sender's UPD engine (R461). -/
structure UpdTx where
  /-- the next offset -/
  off : Nat
  /-- frame-memory byte address and bytes -/
  src : Nat
  len : Nat
  dest : Nat
  session : Word
  chains : Nat
  /-- when the run started, and when the next of a position advanced, by 64 × chain + position, in ns since reset -/
  since : Nat
  moved : List (Nat × Nat)
  deriving DecidableEq, Repr

/-- The instruction a TAP holds (R509). -/
inductive Tap where
  | bypass | sample | extest | idcode | clamp | highz
  deriving DecidableEq, Repr

/-- What one part holds, whichever part it is. -/
structure Chip where
  phase : Phase
  /-- every folio register and shadow image whose value is not its reset value, by folio address (R43, R44) -/
  folio : List (Nat × Word)
  cores : List Core
  dmem : List Host.Cell
  flash : List Host.Cell
  /-- the time unit: nanoseconds with a 32-bit fraction (R142) -/
  count : Nat
  /-- CORE cycles since reset (R101) -/
  cycles : Nat
  /-- the sender's event log, or the tile's TEL queue, oldest first (R418, R419) -/
  log : List EvRec
  /-- a record was dropped since the last one that entered (R413) -/
  logLost : Bool
  /-- ATTEND slots in use, by slot number (R421) -/
  att : List (Nat × AttSlot)
  acc : Accession
  /-- the receive queue of TRCV, oldest first: header, source and payload words (R95) -/
  rxq : List (List Word)
  commit : Option Pending
  /-- LNK ports: chain ports 0 to 15 of the sender; U and D of the tile (R45) -/
  ports : List Port
  /-- transmit command queues: one per chain port of the sender, one in the tile (R93), oldest first -/
  txq : List (List TxCmd)
  /-- the frame whose latch point, and whose origin, comes next while the schedule runs (R160, R162) -/
  nextLatch : Word
  nextOrigin : Word
  /-- the schedule base and origin of frames whose latch point has fixed them, by frame number (R160, R249) -/
  origins : List (Nat × (Word × Word))
  thm : Thm
  upd : Upd
  /-- the result that the verify engine has under way (R438) -/
  vfy : Option Bool
  /-- the boot to come, or the last one, follows a full reset (R457) -/
  fullBoot : Bool
  tap : Tap
  /-- the wall time of the last RAIL_WARN (R488) -/
  railAt : Option Nat
  deriving DecidableEq, Repr

/-- What only the sender holds. -/
structure SenderUnit where
  /-- the tile log: record and source word, oldest first (R418) -/
  tlog : List (EvRec × Word)
  /-- a record was dropped from the tile log since the last one that entered (R413) -/
  tlogLost : Bool
  /-- the last TEL SEQ by 64 × chain port + position (R418) -/
  telSeq : List (Nat × Nat)
  /-- the flows 0 to 15 (R126) -/
  flows : List Flow
  /-- transmit time-stamp queues of NET ports 0 to 3: stamp and TSID, oldest first (R147) -/
  txStamps : List (List (Word × Word))
  /-- `TIME_SET_HI` as last written (R151) -/
  setHi : Word
  /-- samples in a row within `TIME_LOCK_THR` in ACQUIRE (R152) -/
  lockRun : Nat
  /-- edges in a row with |e| at most 500 ns, by phase input (R166) -/
  phRun : List Nat
  /-- an edge of each phase input has been accepted since reset (R165) -/
  phSeen : List Bool
  /-- when each phase input last took an edge or was enabled, in ns since reset (R166) -/
  phAt : List Nat
  /-- when the servo last took a sample, in ns since reset (R152) -/
  sampleAt : Nat
  /-- when the link source's last TIME packet came, in ns since reset, until it is reported lost (R170) -/
  linkAt : Option Nat
  /-- the slot offsets of frames whose latch point has fixed them, by frame number (R165, R249) -/
  plans : List (Nat × List Word)
  /-- the folio at the wake, while the cycle of the wake lasts (R123) -/
  wakeFrom : Option (List (Nat × Word))
  /-- slots of the frame under way whose camera window is still to be checked, with their starts (R167) -/
  winDue : List (Nat × Word)
  /-- the frame memory (R171) -/
  dram : Dram
  /-- chains left without a working pipe (R207, R302) -/
  noPipe : List Bool
  /-- pipe 16 serves the chain that fail-over names; until the next latch point it does not (R207) -/
  foLive : Bool
  /-- when fail-over was taken, in ns since reset (R207) -/
  foAt : Nat
  /-- the raster frame in progress (R244) -/
  ras : Option RasFrame
  /-- the compositions in progress, by chain (R206) -/
  comps : List (Nat × Comp)
  /-- the write-back buffer after the one used last, and the RTP timestamp of the latest complete one (R215, R216) -/
  wbNext : Nat
  wbTs : Word
  /-- the preview frame being sent, the packets numbered so far, and the frame at whose origin one started last
  (R216) -/
  pv : Option PvRun
  pvSeq : Nat
  pvAt : Option Word
  /-- RELEASE copies due, by chain (R302, R310) -/
  release : List (Nat × ReleaseJob)
  /-- SEQ of the last BEAT sent (R306) -/
  beatSeq : Word
  /-- PEER_LOST has been raised and no beat has followed (R307) -/
  peerLost : Bool
  /-- the holder last reported by each seen position, by 64 × chain + position (R304) -/
  seenBy : List (Nat × Nat)
  /-- when the last STATE of each position came, by 64 × chain + position, the last BEAT of each chain's loop path and
  the last beat of the cross path, in ns since reset (R304, R307) -/
  seenAt : List (Nat × Nat)
  beatAt : List (Nat × Nat)
  crossAt : Nat
  /-- the one-shot and the scheduled stocktake under way (R310) -/
  stkOne : Option Stocktake
  stkSched : Option Stocktake
  /-- the transmit run of the UPD engine (R461) -/
  updTx : Option UpdTx
  deriving DecidableEq, Repr

/-- What only the tile holds. -/
structure TileUnit where
  /-- TEL packets formed, modulo 256 (R419) -/
  telSeq : Nat
  /-- the sequence number of the last CMD WRITE under the current tag (R55) -/
  rwSeq : Nat
  /-- packets in a row with |e| at most 2 ns in UNSYNC (R158) -/
  timeRun : Nat
  /-- a TIME packet has been taken from the source since reset (R158) -/
  timeTaken : Bool
  /-- when the last TIME packet of the source was taken, in ns since reset (R158) -/
  timeAt : Nat
  /-- what the slew has still to remove, in units of 2⁻³² ns, and over how many TIMEC cycles (R158) -/
  slew : Int
  slewLeft : Nat
  /-- claims kept, newest first: of each sender the latest, and the one before it if that came in the same cycle (R298,
  R299) -/
  claims : List Claim
  /-- the last grant to a claim (R299) -/
  granted : Option GrantMark
  /-- the last holder, and when the last renewal was taken from it, in ns since reset (R303) -/
  lastHolder : Option Letter
  renewAt : Nat
  /-- when the record became NONE, in ns since reset, and whether LOAN_ORPHAN has been raised since (R309) -/
  noneAt : Nat
  orphan : Bool
  /-- when LOAN_BADPKT was raised last, in ns since reset (R317) -/
  badAt : Option Nat
  /-- an edge of the U reference has been seen since power-on (R484) -/
  refSeen : Bool
  /-- the pixel path -/
  pix : PixUnit
  /-- scan, trim and lamp diagnostics -/
  lmp : LampUnit
  /-- the words of the active correction bank as it became active, where they are not the identity (R441) -/
  bankHashed : List (Nat × Word)
  /-- ports on which a DIGEST REQUEST waits for the recomputation to end (R443) -/
  digestDue : List Nat
  deriving DecidableEq, Repr

/-- The whole block. -/
structure State where
  sender : Chip
  tile : Chip
  host : HostIf
  snd : SenderUnit
  til : TileUnit
  /-- the tile's Porval domain -/
  pvd : PvDomain
  /-- what has left the block, newest last: the model's own -/
  out : List Output
  /-- how many free values have been drawn: the model's own -/
  draws : Nat
  /-- the commands that wait, first in, first out -/
  pending : List Instr
  deriving DecidableEq, Repr

/-- A part in its power-on reset (R478): every register at its reset value, `SYS_RST_CAUSE` with KIND POR. -/
def Chip.reset (p : Part) : Chip :=
  { phase := .held, folio := [(0x10008, 0x10000001)], cores := List.replicate (match p with | .sender => 4 | .tile => 1) Core.reset,
    dmem := [], flash := [], count := 0, cycles := 0, log := [], logLost := false, att := [],
    acc := Accession.empty, rxq := [], commit := none,
    ports := List.replicate (match p with | .sender => 16 | .tile => 2) Port.reset,
    txq := List.replicate (match p with | .sender => 16 | .tile => 1) [], nextLatch := 0, nextOrigin := 0, origins := [], thm := Thm.reset,
    upd := Upd.reset, vfy := none, fullBoot := true, tap := .idcode,
    railAt := none }

/-- What only the sender holds, as reset leaves it. -/
def SenderUnit.reset : SenderUnit :=
  { tlog := [], tlogLost := false, telSeq := []
    , flows := List.replicate 16 Flow.reset
    , txStamps := [[], [], [], []], setHi := 0, lockRun := 0, phRun := [0, 0, 0, 0],
    phSeen := [false, false, false, false], phAt := [0, 0, 0, 0], sampleAt := 0, linkAt := none, plans := [], wakeFrom := none, winDue := []
    , dram := Dram.reset
    , noPipe := List.replicate 16 false, foLive := false, foAt := 0
    , ras := none, comps := [], wbNext := 0, wbTs := 0, pv := none, pvSeq := 0, pvAt := none
    , release := [], beatSeq := 0, peerLost := false, seenBy := [], seenAt := [], beatAt := [], crossAt := 0, stkOne := none, stkSched := none
    , updTx := none
  }

/-- What only the tile holds, as reset leaves it. -/
def TileUnit.reset : TileUnit :=
  { telSeq := 0, rwSeq := 0
    , timeRun := 0, timeTaken := false, timeAt := 0, slew := 0, slewLeft := 0
    , claims := [], granted := none, lastHolder := none, renewAt := 0, noneAt := 0, orphan := false, badAt := none
    , refSeen := false, pix := PixUnit.reset, lmp := LampUnit.reset
    , bankHashed := [], digestDue := []
  }

/-- The block right after power-on reset. -/
def State.reset : State :=
  { sender := Chip.reset .sender, tile := Chip.reset .tile, host := HostIf.reset, snd := SenderUnit.reset, til := TileUnit.reset,
    pvd := PvDomain.reset, out := [], draws := 0,
    pending := [] }

end Sys2Proof.Machine
end

