-- ==== Sys2Proof/Machine/Ops.lean ====
section
/-!
DEFINITION. The named operations over the state: parts and cores, the folio register file (R7, R43,
R44), counters, data memory, wall time (R142, R144), the frame schedule's fields, outputs.
-/

namespace Sys2Proof.Machine

/-! ### Parts -/

/-- What a part holds. -/
def State.chip (s : State) : Part → Chip
  | .sender => s.sender
  | .tile => s.tile

/-- The state with one part changed. -/
def State.upd (p : Part) (f : Chip → Chip) (s : State) : State :=
  match p with
  | .sender => { s with sender := f s.sender }
  | .tile => { s with tile := f s.tile }

/-- A core of a part; a number the part does not have reads as a reset core. -/
def State.core (p : Part) (n : Nat) (s : State) : Core := ((s.chip p).cores[n]?).getD Core.reset

/-- The state with one core changed. -/
def State.updCore (p : Part) (n : Nat) (f : Core → Core) (s : State) : State :=
  s.upd p fun c => { c with cores := listModify c.cores n f }

/-- One more output. -/
def State.emit (o : Output) (s : State) : State := { s with out := s.out ++ [o] }

/-- The next free word of the random source, and the state after the draw. -/
def State.draw (s : State) : Word × State := (Config.randomWord s.draws, { s with draws := s.draws + 1 })

/-- The next free value for a place where the spec states none, and the state after the draw. -/
def State.free (site : Nat) (s : State) : Word × State :=
  (Config.freeValue site s.draws, { s with draws := s.draws + 1 })

/-! ### Reset values of registers -/

/-- The number of entries of a part's flash, in bytes (R455). -/
def flashSize : Part → Nat
  | .sender => 64 * 2 ^ 20
  | .tile => 16 * 2 ^ 20

/-- `EVT_ROUTE[i]` after reset (R430): LOG or TEL is 1 for a fault but for LOG_OVF, TLOG_OVF and TEL_DROP. -/
def evtRouteReset (p : Part) (i : Nat) : Nat :=
  let cores := match p with | .sender => 0xF | .tile => 0x1
  let never := match p with
    | .sender => i == Ev.LOG_OVF || i == Ev.TLOG_OVF
    | .tile => i == Ev.TEL_DROP
  if evClass p i = .none || never then cores else cores + 2 ^ 30

/-- The latency target of DRAM port `i` after reset, in ns (R180). -/
def portLatReset (i : Nat) : Nat :=
  (([2000, 2000, 2000, 2000, 20000, 10000, 20000, 5000, 10000, 50000, 50000, 1000000] : List Nat)[i]?).getD 0

/-- The reset value of a register from its row and indices. -/
def rstVal (p : Part) (r : RegRow) (ix : List Nat) : Word :=
  let i := ix.getLastD 0
  match r.rst with
  | .c w => wd w
  | .idx => wd i
  | .CLR_ENC => wd (encReset (if r.base = 0x1B0000 then i + 8192 else i))
  | .COR_DEC => wd (encReset (if r.base = 0x660000 then i + 8192 else i))
  | .CLR_MTX => wd (mtxReset (ix.getD 0 0) (ix.getD 1 0) (ix.getD 2 0))
  | .CLR_PROF_CTRL => wd (profCtrlReset i)
  | .CLR_PROF_GAIN => wd (profGainReset i)
  | .CLR_TF => wd (tfReset (ix.getD 0 0) i)
  | .CLR_TONE => wd (toneReset i)
  | .CLR_TONE_END => wd (toneReset 512)
  | .CMP_COEF => wd (coefReset i)
  | .DRC_PORT_LAT => wd (portLatReset i)
  | .EVT_ROUTE => wd (evtRouteReset p i)
  | .IDN_CERT => idnWord (certOf p) i
  | .IDN_PUBKEY => idnWord (pubKey p) i
  | .IDN_ROOT => idnWord rootKey i
  | .LNK_DEVID_HI => (Config.devId p).extractLsb' 32 32
  | .LNK_DEVID_LO => (Config.devId p).setWidth 32
  | .LNK_EQ => if i = 0 then 0x84300C0C else 0
  | .SCAN_ORDER => wd (4 * i + (4 * i + 1) * 2 ^ 8 + (4 * i + 2) * 2 ^ 16 + (4 * i + 3) * 2 ^ 24)
  | .THM_TRIM_K => (Config.thmK p i).setWidth 32
  | .THM_TRIM_N0 => (Config.thmN0 p i).setWidth 32
  | .UPD_EPOCH => 0
  | .UPD_OWNER => 0

/-- The active address whose shadow image lies at `a`, for the SH registers (R44). -/
def shadowOf (a : Nat) : Option Nat :=
  if a / 2 ^ 15 % 2 = 1 then some (a - 2 ^ 15) else none

/-- The SH register whose shadow image lies at `a`. -/
def findShadow (p : Part) (a : Nat) : Option (RegRow × List Nat) :=
  match shadowOf a with
  | none => none
  | some b =>
    match findReg p b with
    | some (r, ix) => if r.acc = .sh then some (r, ix) else none
    | none => none

/-- What a folio address reads as while nothing has changed it: the reset value of the register there,
or of the register whose shadow image it is (R47); 0 elsewhere (R43). -/
def regReset (p : Part) (a : Nat) : Word :=
  match findReg p a with
  | some (r, ix) => rstVal p r ix
  | none =>
    match findShadow p a with
    | some (r, ix) => rstVal p r ix
    | none => 0

/-! ### The register file -/

/-- The value a folio address holds. -/
def State.rd (p : Part) (a : Nat) (s : State) : Word := SMap.get (regReset p) (s.chip p).folio a

/-- A folio address set by the hardware. -/
def State.wr (p : Part) (a : Nat) (v : Word) (s : State) : State :=
  s.upd p fun c => { c with folio := SMap.set (regReset p) c.folio a v }

/-- A field of a folio address set by the hardware. -/
def State.wrFld (p : Part) (a hi lo v : Nat) (s : State) : State := s.wr p a (putFld (s.rd p a) hi lo v)

/-- One bit of a folio address set by the hardware. -/
def State.wrBit (p : Part) (a i : Nat) (b : Bool) (s : State) : State := s.wr p a (putBit (s.rd p a) i b)

/-- A counter that counts up by `n`, modulo 2³² (R7). -/
def State.bump (p : Part) (a : Nat) (n : Nat) (s : State) : State := s.wr p a (s.rd p a + wd n)

/-- A field of a folio address. -/
def State.fldOf (p : Part) (a hi lo : Nat) (s : State) : Nat := fld (s.rd p a) hi lo

/-- One bit of a folio address. -/
def State.bitOf (p : Part) (a i : Nat) (s : State) : Bool := bit (s.rd p a) i

/-- The shadow value of a register: what its image holds (R44, R47). -/
def State.shadow (p : Part) (a : Nat) (s : State) : Word := s.rd p (a + 0x8000)

/-! ### Blocks with a commit bit (R43) -/

/-- The 64 KiB windows of the block that a commit bit names. -/
def commitWindows : Part → Nat → List Nat
  | _, 0 => [0x4]
  | _, 1 => [0x5]
  | _, 2 => [0x24]
  | _, 3 => [0x28]
  | .sender, 4 => [0x9]
  | .sender, 5 => [0x10, 0x11, 0x12, 0x13]
  | .sender, 6 => [0x14, 0x15, 0x16, 0x17]
  | .sender, 7 => [0x18, 0x19, 0x1A, 0x1B]
  | .sender, 8 => [0x1C, 0x1D]
  | .tile, 9 => [0x60, 0x61, 0x62, 0x63]
  | .tile, 10 => [0x64, 0x65, 0x66, 0x67]
  | .tile, 11 => [0x68, 0x69, 0x6A, 0x6B]
  | .tile, 12 => [0x6C, 0x6D, 0x6E, 0x6F]
  | .tile, 13 => [0x70, 0x71, 0x72, 0x73]
  | .tile, 14 => [0x74, 0x75, 0x76, 0x77]
  | _, _ => []

/-- The addresses of dimensions from a base on. -/
def dimAddrs : List (Nat × Nat) → Nat → List Nat
  | [], a => [a]
  | (n, d) :: ds, a => (List.range n).flatMap fun i => dimAddrs ds (a + i * d)

/-- The addresses of a row's registers. -/
def rowAddrs (r : RegRow) : List Nat := dimAddrs r.dims r.base

/-! ### Time (R142, R144) -/

/-- One nanosecond in units of the count. -/
def ns : Nat := 2 ^ 32

/-- The wall time of a part: bits [31:0] of its nanosecond count (R142). -/
def State.wall (p : Part) (s : State) : Word := wd ((s.chip p).count / ns)

/-- The nanoseconds since reset by which a part's interval timers run: its CORE cycles of 1 ns in the sender and 2 ns in
the tile (R39). DESIGN CHOICE: no rule says which clock such a timer counts; this one neither steps nor wraps. -/
def State.elapsed (p : Part) (s : State) : Nat :=
  match p with
  | .sender => (s.chip p).cycles
  | .tile => 2 * (s.chip p).cycles

/-- `d` ns or more have passed since a stamp of `elapsed`. -/
def State.timedOut (p : Part) (at' d : Nat) (s : State) : Bool := at' + d ≤ s.elapsed p

/-- An event that is raised at most once per millisecond is due again. -/
def State.msDue (p : Part) (last : Option Nat) (s : State) : Bool :=
  match last with
  | none => true
  | some t => s.timedOut p t 1000000

/-- The sender's 64-bit nanosecond count (R143). -/
def State.ptp (s : State) : Nat := s.sender.count / ns % 2 ^ 64

/-- A wall time is reached in a part (R83). -/
def State.reachedAt (p : Part) (w : Word) (s : State) : Bool := reached w (s.wall p)

/-! ### Conditions used in every chapter -/

/-- The part's logic runs: internal reset is released and it is not in the low-power state. -/
def State.alive (p : Part) (s : State) : Bool :=
  match (s.chip p).phase with
  | .booting => true
  | .up => true
  | .held => false
  | .low => false

/-- EXTEST, CLAMP or HIGHZ is in force: the boundary takes the balls from their functions (R509). -/
def State.tapTakes (p : Part) (s : State) : Bool :=
  match (s.chip p).tap with
  | .extest => true
  | .clamp => true
  | .highz => true
  | _ => false

/-- A command of a part whose logic does not run changes nothing. -/
def State.when' (p : Part) (f : State → State) (s : State) : State := if s.alive p then f s else s

/-- The part is in its safe state (R423). -/
def State.safe (p : Part) (s : State) : Bool := s.bitOf p Reg.FLT_STAT 31

/-- The part's frame schedule runs (R162). -/
def State.schedOn (p : Part) (s : State) : Bool := s.bitOf p Reg.TIME_FRM_CTRL 31

/-- The sender's letter: `LNK_ROLE` 2 is B, every other value acts as A (R293). -/
def State.letter (s : State) : Letter := if s.fldOf .sender Reg.LNK_ROLE 1 0 = 2 then .b else .a

/-- The letter bit of K words (R279). -/
def letterBit : Letter → Nat
  | .a => 0
  | .b => 1

/-- The number of LNK ports of a part (R45). -/
def lnkPorts : Part → Nat
  | .sender => 16
  | .tile => 2

/-- The slot count of a part's active schedule (R163). -/
def State.slots (p : Part) (s : State) : Nat := s.fldOf p Reg.TIME_FRM_CTRL 3 0

/-- `CHN_CTRL[k]` MODE is chain (R19, R257). -/
def State.isChain (k : Nat) (s : State) : Bool := s.fldOf .sender (Reg.CHN_CTRL k) 31 30 == 1

/-- The chain length L of chain k (R15, R257). -/
def State.chainLen (k : Nat) (s : State) : Nat := s.fldOf .sender (Reg.CHN_CTRL k) 6 0

/-- The transmit direction of a port is ACTIVE: STATE is ACTIVE and TXD is UP (R270). -/
def State.txActive (p : Part) (i : Nat) (s : State) : Bool :=
  s.fldOf p (Reg.LNK_STAT i) 31 29 == 5 && s.fldOf p (Reg.LNK_STAT i) 27 25 == 1

/-- The receive direction of a port carries packets (R270). -/
def State.rxActive (p : Part) (i : Nat) (s : State) : Bool :=
  s.fldOf p (Reg.LNK_STAT i) 31 29 == 5 && s.fldOf p (Reg.LNK_STAT i) 23 21 == 1

/-- The tile's position, if it holds one (R269). -/
def State.tilePos (s : State) : Option Nat :=
  if s.bitOf .tile Reg.LNK_POS 31 then some (s.fldOf .tile Reg.LNK_POS 6 0) else none

/-! ### Data memory (R39, R80) -/

/-- The size of data memory, in bytes (R39). -/
def dmemSize : Part → Nat
  | .sender => 0x80000
  | .tile => 0x10000

/-- The size of one instruction memory, in bytes (R39). -/
def imemSize : Part → Nat
  | .sender => 0x20000
  | .tile => 0x10000

/-- A byte of a memory that nothing has written: boot clears data and instruction memory (R457). -/
def zeroByte : Nat → Byte := fun _ => 0

/-- A byte of flash that nothing has programmed. -/
def flashByte : Nat → Byte := fun _ => 0xFF

/-- A word of data memory. -/
def State.dmemRd (p : Part) (a : Nat) (s : State) : Word := Mem.readWord zeroByte (s.chip p).dmem a

/-- A word of data memory written. -/
def State.dmemWr (p : Part) (a : Nat) (v : Word) (s : State) : State :=
  s.upd p fun c => { c with dmem := Mem.writeWord zeroByte c.dmem a v }

/-- Consecutive words of data memory written. -/
def State.dmemWrs (p : Part) (a : Nat) (vs : List Word) (s : State) : State :=
  s.upd p fun c => { c with dmem := Mem.writeWords zeroByte c.dmem a vs }

/-- Consecutive words of data memory. -/
def State.dmemRds (p : Part) (a n : Nat) (s : State) : List Word := Mem.readWords zeroByte (s.chip p).dmem a n

/-! ### General registers (R70) -/

/-- A general register: g0 reads as 0 (R70). -/
def Core.gpr (c : Core) (i : BitVec 5) : Word := if i = 0 then 0 else SMap.get (fun _ => 0) c.g i.toNat

/-- A general register written: a write to g0 is discarded (R70). -/
def Core.setGpr (c : Core) (i : BitVec 5) (v : Word) : Core :=
  if i = 0 then c else { c with g := SMap.set (fun _ => 0) c.g i.toNat v }

end Sys2Proof.Machine
end

