-- ==== Sys2Proof/Machine/Flags.lean ====
section
/-!
DEFINITION. Event flags: raising an event (R411 to R417), its record (R413, R418, R419), its MSI-X
message (R68, R415), the ATTEND slots (R421), the accession record (R426) and the safe state (R423,
R424). The block has no condition flags (R70).
-/

namespace Sys2Proof.Machine

/-! ### MSI-X (R68) -/

/-- What an unwritten word of the MSI-X table reads as: the vector control word of every entry has its
mask bit set after reset, following PCIe (R62, R68). -/
def msixReset (i : Nat) : Word := if i % 4 = 3 then 1 else 0

/-- The PCIe endpoint exists: strap STRAP_PCIE is 1 (R482). -/
def State.pcie (s : State) : Bool := s.bitOf .sender Reg.SYS_STRAP 3

/-- A vector is masked (R68). -/
def State.msixMasked (v : Nat) (s : State) : Bool := bit (SMap.get msixReset s.host.msix (4 * v + 3)) 0

/-- The PBA bit of a vector set or cleared (R68). -/
def State.pbaSet (v : Nat) (b : Bool) (s : State) : State :=
  let w := SMap.get (fun _ => 0) s.host.pba (v / 32)
  { s with host := { s.host with pba := SMap.set (fun _ => 0) s.host.pba (v / 32) (putBit w (v % 32) b) } }

/-- A vector is sent if unmasked; a masked vector sets its PBA bit (R68). Vectors 8 to 63 carry routed
events, and vector 7 is never sent. -/
def State.msixSend (v : Nat) (s : State) : State :=
  if s.pcie then
    if s.msixMasked v then s.pbaSet v true else s.emit (.msix v)
  else s

/-! ### Pending bits (R411) -/

/-- An event's pending bit. -/
def State.pendBit (p : Part) (id : Nat) (s : State) : Bool := s.bitOf p (Reg.EVT_PEND (id / 32)) (id % 32)

/-- An event's pending bit set or cleared. -/
def State.setPend (p : Part) (id : Nat) (b : Bool) (s : State) : State :=
  s.wrBit p (Reg.EVT_PEND (id / 32)) (id % 32) b

/-- A core sees an event: its CORES bit is 1 (R416). -/
def State.sees (p : Part) (n id : Nat) (s : State) : Bool := s.bitOf p (Reg.EVT_ROUTE id) n

/-- The class of an event after promotion (R412). -/
def State.classOf (p : Part) (id : Nat) (s : State) : Cls :=
  let c := evClass p id
  if s.bitOf p (Reg.EVT_ROUTE id) 31 && !evLevel p id then
    match c with
    | .none => .attend
    | .note => .attend
    | c => c
  else c

/-! ### Cores that halt (R64, R104) -/

/-- A core's record after it halts: a wait is left, every other instruction in progress completes (R64). -/
def Core.halt (cause : Nat) (c : Core) : Core :=
  let st := match c.stall with
    | .waitt _ => .none
    | .waite _ _ _ => .none
    | x => x
  { c with halted := true, cause := cause, haltReq := false, stall := st, stepping := false }

/-! ### What the safe state stops at once (R424) -/

/-- Three RELEASE copies fall due on each chain of a mask (R302, R310). -/
def State.releaseChains (mask : Nat) (e : Word) (s : State) : State :=
  (List.range 16).foldl (fun s k =>
    if mask.testBit k then
      { s with snd := { s.snd with release := AMap.put s.snd.release k ⟨e, 3⟩ } }
    else s) s

/-- The chain ports configured as a chain, as a mask. -/
def State.chainMask (s : State) : Nat :=
  (List.range 16).foldl (fun m k => if s.isChain k then m + 2 ^ k else m) 0

/-- What only the tile holds, changed. -/
def State.updTil (f : TileUnit → TileUnit) (s : State) : State := { s with til := f s.til }
/-- The tile's pixel path changed. -/
def State.updPix (f : PixUnit → PixUnit) (s : State) : State := s.updTil fun t => { t with pix := f t.pix }
/-- The tile's scan, trim and diagnostics changed. -/
def State.updLmp (f : LampUnit → LampUnit) (s : State) : State := s.updTil fun t => { t with lmp := f t.lmp }
/-- What only the sender holds, changed. -/
def State.updSnd (f : SenderUnit → SenderUnit) (s : State) : State := { s with snd := f s.snd }

/-- The receive set becomes IDLE: valid bits cleared, signature state dropped (R320, R323). -/
def State.rxIdle (s : State) : State :=
  let s := s.wr .tile Reg.PIX_STAT (s.rd .tile Reg.PIX_STAT &&& 0x20000000)
  let s := s.wr .tile Reg.PIX_RX_MISSING 0
  s.updPix fun x => { x with pixRx := [], rxMis := [], sigGot := [], sigRaised := false }

/-- Every sink, reference sink and scan gate turns off: scanning and trim cycles stop (R405, R424). -/
def State.scanOff (s : State) : State :=
  let s := s.wrBit .tile Reg.SCAN_STAT 31 false
  s.updLmp fun l => { l with scan := none, lit := [], run := none, drv := [], trim := none }

/-- The tile's core halts with CAUSE 2 if it runs (R424), and the event this raises. -/
def State.safeHalt (s : State) : State × List (Nat × Word) :=
  if (s.core .tile 0).halted || (s.chip .tile).phase ≠ .up then (s, [])
  else (s.updCore .tile 0 (Core.halt 2), [(Ev.CORE_HALT .tile 0, 0)])

/-- The sender's pipes, rasters, write-back and preview flow stop (R405, R424). -/
def State.rasStop (s : State) : State :=
  let s := s.wrBit .sender Reg.CMP_PV_STAT 31 false
  s.updSnd fun t => { t with ras := none, comps := [], pv := none }

/-- What the safe state stops at once, and the events this raises (R424). The sender: LOAN_STAT.STATE
becomes SAFE, and the RELEASE copies fall due if it was ACTIVE (R302). The tile: its core halts, scanning
and trim stop, and an open frame is dropped uncounted. -/
def State.safeStops (p : Part) (s : State) : State × List (Nat × Word) :=
  match p with
  | .sender =>
    let s := s.rasStop
    let was := s.fldOf .sender Reg.LOAN_STAT 31 30
    let s := s.wrFld .sender Reg.LOAN_STAT 31 30 2
    let s := { s with snd := { s.snd with release := [] } }
    let s := if was = 1 then s.releaseChains s.chainMask 0 else s
    (s, if was = 2 then [] else [(Ev.LOAN_STATE, 0)])
  | .tile => s.rxIdle.scanOff.safeHalt

/-- The position an accession record latches (R427). -/
def State.accPos (p : Part) (s : State) : Nat :=
  match p with
  | .sender => 0x7E
  | .tile => s.tilePos.getD 0x7F

/-- The number of records the sender's event log or the tile's TEL queue holds (R418, R419). -/
def logCap : Part → Nat
  | .sender => 256
  | .tile => 64

/-- The lowest free ATTEND slot (R421). -/
def freeSlot (m : List (Nat × AttSlot)) : Option Nat :=
  (List.range 16).find? fun a => (AMap.find m a).isNone

/-- An event raised in the cycle in hand: its ID, its class after promotion, its record, and whether
`EVT_ROUTE` gives the record a log. -/
structure Raised where
  id : Nat
  cls : Cls
  rec' : EvRec
  logged : Bool
  deriving DecidableEq, Repr

/-- The part enters its safe state with a cause, if it is not in it, and the events this raises (R423,
R424): the tile's core halts with CAUSE 2, and SAFE_STATE reports every cause but 3. -/
def State.safeEnter (p : Part) (cause id : Nat) (s : State) : State × List (Nat × Word) :=
  if s.safe p then (s, [])
  else
    let s := s.wr p Reg.FLT_STAT (wd (2 ^ 31 + cause * 2 ^ 28 + id))
    let s := s.upd p fun c => { c with acc := { c.acc with safe := true } }
    let (s, ev) := s.safeStops p
    let rep : List (Nat × Word) :=
      if cause = 3 then [] else [(Ev.SAFE_STATE p, wd (cause * 2 ^ 28 + id))]
    (s, ev ++ rep)

/-- A slot's due time is reached (R421): FLT_ESCALATED, the count, and with ESC the safe state. -/
def State.escalate (p : Part) (id : Nat) (s : State) : State × List (Nat × Word) :=
  let s := s.bump p Reg.FLT_ESC_CNT 1
  let (s, ev) := if s.bitOf p Reg.FLT_CTRL 31 then s.safeEnter p 2 id else (s, [])
  (s, (Ev.FLT_ESCALATED p, wd id) :: ev)

/-- An ATTEND fault takes a slot, or is handled at once when all 16 are taken (R421). -/
def State.attend (p : Part) (id : Nat) (s : State) : State × List (Nat × Word) :=
  let m := (s.chip p).att
  if m.any (fun e => e.2.id = id) then (s, [])
  else
    match freeSlot m with
    | some a =>
      let due := s.wall p + wd (s.fldOf p Reg.FLT_GRACE 19 0 * 1000)
      (s.upd p fun c => { c with att := AMap.put c.att a ⟨id, due⟩ }, [])
    | none => s.escalate p id

/-- One event is raised (R411 to R417, R420): the count, the pending bit, the MSI-X message, the ATTEND
slot, the safe state of a FATAL fault; and the events these raise in turn. -/
def State.raise1 (p : Part) (id : Nat) (detail : Word) (s : State) : State × List (Nat × Word) × Raised :=
  let was := s.pendBit p id
  let s := s.bump p Reg.EVT_RAISED 1
  let s := if evLevel p id then s else s.setPend p id true
  let route := s.rd p (Reg.EVT_ROUTE id)
  let cls := s.classOf p id
  let r : Raised :=
    ⟨id, cls, ⟨wd (cls.code * 2 ^ 29 + id), s.wall p, s.rd p Reg.TIME_FRM_NUM, detail, 0⟩, bit route 30⟩
  let s := if p = .sender && bit route 29 && 8 ≤ fld route 21 16 then s.msixSend (fld route 21 16) else s
  let (s, ev1) := if cls = .attend && !was then s.attend p id else (s, [])
  let (s, ev2) := if cls = .fatal then s.safeEnter p 1 id else (s, [])
  (s, ev1 ++ ev2, r)

/-- A raised event put at its place in a list by ascending ID (R414). -/
def insRaised (r : Raised) : List Raised → List Raised
  | [] => [r]
  | x :: xs => if r.id < x.id then r :: x :: xs else x :: insRaised r xs

/-- An event put at its place in a list by ascending ID, after those of its own ID (R34). -/
def insEvent (e : Nat × Word) : List (Nat × Word) → List (Nat × Word)
  | [] => [e]
  | x :: xs => if e.1 < x.1 then e :: x :: xs else x :: insEvent e xs

/-- The events of a cycle by ascending ID, those of one ID in the order they were raised (R34). -/
def byId (evs : List (Nat × Word)) : List (Nat × Word) := evs.foldl (fun l e => insEvent e l) []

/-- The events of one cycle, taken in the order of the list, and after them those they cause; what was raised is listed
by ascending ID. The first argument bounds how many are raised. -/
def raiseLoop : Nat → Part → List (Nat × Word) → List Raised → State → State × List Raised
  | 0, _, _, rs, s => (s, rs)
  | _, _, [], rs, s => (s, rs)
  | f + 1, p, (id, d) :: todo, rs, s =>
    let (s, ev, r) := s.raise1 p id d
    raiseLoop f p (todo ++ ev) (insRaised r rs) s

/-- A fault at or above ACC_MIN qualifies for the accession record (R426). -/
def State.qualifies (p : Part) (c : Cls) (s : State) : Bool :=
  c ≠ .none && s.fldOf p Reg.FLT_CTRL 2 0 ≤ c.code

/-- The accession record takes the first of the cycle's qualifying faults, by ascending ID, and sets OVF
for each other one (R426). The flag tells whether it latched. -/
def accession : Part → List Raised → State → State × Bool
  | _, [], s => (s, false)
  | p, r :: rs, s =>
    if s.qualifies p r.cls then
      if (s.chip p).acc.valid then
        accession p rs (s.upd p fun c => { c with acc := { c.acc with ovf := true } })
      else
        let pos := s.accPos p
        let s := s.upd p fun c => { c with acc := { c.acc with record := r.rec', valid := true, pos := pos } }
        ((accession p rs s).1, true)
    else accession p rs s

/-- A record enters the sender's event log or the tile's TEL queue, or finds it full and is dropped; and
the event this raises (R418, R419). -/
def State.pushRec (p : Part) (r : EvRec) (s : State) : State × List (Nat × Word) :=
  let c := s.chip p
  if logCap p ≤ c.log.length then
    let s := s.upd p fun c => { c with logLost := true }
    match p with
    | .sender => (s, [(Ev.LOG_OVF, 0)])
    | .tile => (s.bump p Reg.EVT_TEL_DROP 1, [(Ev.TEL_DROP, 0)])
  else
    let r := { r with w0 := putBit r.w0 28 c.logLost, entered := s.elapsed p }
    let s := s.upd p fun c => { c with log := c.log ++ [r], logLost := false }
    match p with
    | .sender =>
      if s.pendBit p Ev.LOG_READY then (s, []) else (s.setPend p Ev.LOG_READY true, [(Ev.LOG_READY, 0)])
    | .tile => (s, [])

/-- No fewer than the events that `n` events of one cycle and their records raise, themselves included: each raises at
most an FLT_ESCALATED (R421), each record at most LOG_OVF, TEL_DROP or LOG_READY (R418, R419), and the cycle once
FLT_FIRST (R426) and the events of entering the safe state (R424). -/
def raiseFuel (n : Nat) : Nat := 8 * n + 64

/-- A FATAL fault among the events of a cycle is the cause of the safe state, whatever other cause falls in it (R423). -/
def State.fatalFirst (p : Part) (evs : List (Nat × Word)) (s : State) : State × List (Nat × Word) :=
  match evs.find? fun e => s.classOf p e.1 = .fatal with
  | none => (s, [])
  | some e => s.safeEnter p 1 e.1

/-- The events of a cycle with their accession step (R426): what they cause, FLT_FIRST included. They are taken in
ascending order of their ID (R34). -/
def State.raiseSet (p : Part) (evs : List (Nat × Word)) (s : State) : State × List Raised :=
  let (s, caused) := s.fatalFirst p (byId evs)
  let (s, rs) := raiseLoop (raiseFuel evs.length) p (byId evs ++ caused) [] s
  let (s, first) := accession p rs s
  if first then
    let (s, fs) := raiseLoop (raiseFuel 1) p [(Ev.FLT_FIRST p, 0)] [] s
    ((accession p fs s).1, fs.foldl (fun l r => insRaised r l) rs)
  else (s, rs)

/-- The records of a cycle, made in ascending ID order (R413, R414). -/
def recordLoop : Nat → Part → List Raised → State → State
  | 0, _, _, s => s
  | _, _, [], s => s
  | f + 1, p, r :: rs, s =>
    if r.logged then
      let (s, evs) := s.pushRec p r.rec'
      match evs with
      | [] => recordLoop f p rs s
      | _ =>
        let (s, more) := s.raiseSet p evs
        recordLoop f p (more.foldl (fun l r => insRaised r l) rs) s
    else recordLoop f p rs s

/-- The events of one cycle are raised, each with the DETAIL of its record (R411 to R426). A part whose boundary has
taken the balls raises no event (R509). -/
def State.raiseAll (p : Part) (evs : List (Nat × Word)) (s : State) : State :=
  if s.tapTakes p then s
  else
    let (s, rs) := s.raiseSet p evs
    recordLoop (raiseFuel rs.length) p rs s

/-- An event is raised (R411), with the DETAIL of its record (R413). -/
def State.raise (p : Part) (id : Nat) (s : State) (detail : Word := 0) : State := s.raiseAll p [(id, detail)]

/-- The condition of a level event becomes `b`: the event is pending exactly while it holds, and is
raised when it becomes true (R411). -/
def State.setLevel (p : Part) (id : Nat) (b : Bool) (s : State) : State :=
  if b && !s.pendBit p id then (s.setPend p id true).raise p id else s.setPend p id b

/-- The part enters its safe state (R423). -/
def State.enterSafe (p : Part) (cause id : Nat) (s : State) : State :=
  let (s, evs) := s.safeEnter p cause id
  s.raiseAll p evs

/-- An operation that gives events, followed by another: the events of both. -/
def evThen (x : State × List (Nat × Word)) (f : State → State × List (Nat × Word)) : State × List (Nat × Word) :=
  let (s, e) := x
  let (s, e') := f s
  (s, e ++ e')

/-- An operation over a list of items, with the events of each. -/
def evEach {α : Type} (l : List α) (f : α → State → State × List (Nat × Word)) (s : State) : State × List (Nat × Word) :=
  l.foldl (fun x a => evThen x (f a)) (s, [])

/-- The events that an operation gives are raised. -/
def evRaise (p : Part) (x : State × List (Nat × Word)) : State := x.1.raiseAll p x.2

/-- EVACK of an event: an edge event's pending bit is cleared and the ATTEND slot that holds it is freed;
a level event is not affected (R86, R87, R421). -/
def State.evack (p : Part) (id : Nat) (s : State) : State :=
  if evLevel p id then s
  else
    let s := s.setPend p id false
    s.upd p fun c => { c with att := c.att.filter fun e => e.2.id ≠ id }

/-- A core halts with a cause; CORE_FAULT is raised for a fault, CORE_HALT for every other cause (R69),
and the sender sends the core's MSI-X vector (R68). -/
def State.haltCore (p : Part) (n cause : Nat) (fault : Bool) (s : State) : State :=
  let s := s.updCore p n (Core.halt cause)
  let s :=
    if fault then s.raise p (Ev.CORE_FAULT p n) (s.rd p (Reg.SYS_CORE_FADDR n))
    else s.raise p (Ev.CORE_HALT p n)
  match p with
  | .sender => s.msixSend (2 + n)
  | .tile => s

end Sys2Proof.Machine
end

