-- ==== Sys2Proof/Machine/Packet.lean ====
section
/-!
DEFINITION. Zugon packets: the header and its fields, the checks of a received packet, and the builders
of every packet type (R277 to R282).
-/

namespace Sys2Proof.Machine

/-- Packet types (R279). -/
def tIDLE : Nat := 0x0
def tPIX : Nat := 0x1
def tSYNC : Nat := 0x2
def tCMD : Nat := 0x3
def tTEL : Nat := 0x4
def tTIME : Nat := 0x5
def tLOAN : Nat := 0x6
def tBEAT : Nat := 0x7
def tABORT : Nat := 0x8
def tSIG : Nat := 0x9
def tDIGEST : Nat := 0xA
def tUPD : Nat := 0xB

/-- Word `i` of a packet, 0 past its end. -/
def Pkt.w (k : Packet) (i : Nat) : Word := k.getD i 0

/-- TYPE, header bits [63:60] (R277). -/
def Pkt.type (k : Packet) : Nat := fld (Pkt.w k 0) 31 28
/-- DEST, header bits [59:53] (R277). -/
def Pkt.dest (k : Packet) : Nat := fld (Pkt.w k 0) 27 21
/-- SLOT, header bits [52:50] (R277). -/
def Pkt.slot (k : Packet) : Nat := fld (Pkt.w k 0) 20 18
/-- SRC, header bits [49:43] (R277). -/
def Pkt.src (k : Packet) : Nat := fld (Pkt.w k 0) 17 11
/-- LEN, header bits [42:32] (R277). -/
def Pkt.len (k : Packet) : Nat := fld (Pkt.w k 0) 10 0
/-- TS, header bits [31:8], as a word whose low byte is HCRC (R277). -/
def Pkt.ts (k : Packet) : Word := Pkt.w k 1
/-- KIND, CODE or NSLOT of the types that have one: TS [31:28] (R279). -/
def Pkt.kind (k : Packet) : Nat := fld (Pkt.w k 1) 31 28
/-- TAG or SESSION: TS [23:8] (R279). -/
def Pkt.tag (k : Packet) : Nat := fld (Pkt.w k 1) 23 8
/-- The words between header and CRC (R277). -/
def Pkt.body (k : Packet) : List Word := (k.drop 2).dropLast

/-- HCRC is good (R277). -/
def Pkt.hcrcOk (k : Packet) : Bool :=
  crc8 ((bytesBE [Pkt.w k 0, Pkt.w k 1]).take 7) == fld (Pkt.w k 1) 7 0

/-- The CRC word the packet's earlier words call for (R278). -/
def Pkt.crc (k : Packet) : Word := crc32c (bytesBE k.dropLast)

/-- The CRC word is good (R278). -/
def Pkt.crcOk (k : Packet) : Bool := k.getLastD 0 == (Pkt.crc k)

/-- The packet is stomped: its CRC word is the good one inverted (R284). -/
def Pkt.stomped (k : Packet) : Bool := k.getLastD 0 == (Pkt.crc k) ^^^ 0xFFFFFFFF

/-- LEN fits the type (R279), and TYPE is one of the table's. -/
def Pkt.lenOk (k : Packet) : Bool :=
  let n := Pkt.len k
  let t := Pkt.type k
  let kd := Pkt.kind k
  k.length == n && 3 ≤ n && n ≤ 256 && (if t = tIDLE then (if fld (Pkt.w k 1) 31 24 = 1 then n == 9 else true)
  else if t = tPIX then n == 89
  else if t = tSYNC then 1 ≤ kd && kd ≤ 8 && n == 5 + 2 * kd
  else if t = tCMD then 5 ≤ n && n ≤ 69
  else if t = tTEL then 4 ≤ n && n == 4 + fld (Pkt.w k 2) 23 16
  else if t = tTIME then (if kd = 0 then n == 6 else if kd = 1 then n == 4 else n == 5)
  else if t = tLOAN then n == 6
  else if t = tBEAT then n == 6
  else if t = tABORT then n == 5
  else if t = tSIG then n == 6
  else if t = tDIGEST then n == 8
  else if t = tUPD then 5 ≤ n && n == 5 + fld (Pkt.w k 3) 7 0 && fld (Pkt.w k 3) 7 0 ≤ 64
  else false)

/-- Type and kind of a packet are as named. -/
def Pkt.is (k : Packet) (t kd : Nat) : Bool := (Pkt.type k) == t && (Pkt.kind k) == kd

/-- A packet from its fields: header with HCRC, body, CRC (R277, R278). `ts` holds TS at [31:8]. -/
def mkPacket (type dest slot src : Nat) (ts : Word) (body : List Word) : Packet :=
  let len := body.length + 3
  let w0 : Word := wd (type * 2 ^ 28 + dest * 2 ^ 21 + slot * 2 ^ 18 + src * 2 ^ 11 + len)
  let w1 := putFld ts 7 0 0
  let w1 := putFld w1 7 0 (crc8 ((bytesBE [w0, w1]).take 7))
  let ws := w0 :: w1 :: body
  ws ++ [crc32c (bytesBE ws)]

/-- A K word: LETTER [31], chain port [27:24] (R279). -/
def kWord (l : Letter) (port : Nat) : Word := wd (letterBit l * 2 ^ 31 + port * 2 ^ 24)

/-- The LETTER of a K word. -/
def letterOf (w : Word) : Letter := if bit w 31 then .b else .a

/-- SRC of a part's own packets: its position, 0x7F without one; 0x7E for a sender (R277). -/
def State.srcOf (p : Part) (s : State) : Nat :=
  match p with
  | .sender => 0x7E
  | .tile => s.tilePos.getD 0x7F

/-- DEST sender (R277). -/
def destSender : Nat := 0x7E
/-- DEST broadcast (R277). -/
def destAll : Nat := 0x7F

/-- The port of a part by number. -/
def portOf (p : Part) (i : Nat) : LnkPort :=
  match p with
  | .sender => .chain (Fin.ofNat 16 i)
  | .tile => if i = 0 then .u else .d

/-- The tile port on the other side: forwarding goes from one to the other (R283). -/
def otherPort (i : Nat) : Nat := 1 - i

/-- The tile port that faces a sender: U faces A, D faces B (R16). -/
def portToward (l : Letter) : Nat :=
  match l with
  | .a => 0
  | .b => 1

/-- The sender that traffic of a tile port comes from: A down into U, B up into D (R16, R281). -/
def letterOfPort (i : Nat) : Letter := if i = 0 then .a else .b

/-- The sender that the tile follows: the loan holder, or A while it holds no loan (R158, R92). -/
def State.followed (s : State) : Letter := if s.fldOf .tile Reg.LOAN_REC 31 30 = 2 then .b else .a

/-- The sender that a tile's destination word names (R92). -/
def State.dstLetter (dst : Word) (s : State) : Letter :=
  if dst = 0 then s.followed else if dst = 2 then .b else .a

/-- The type of an own packet in the order of R285: TIME, PROBE and ECHO first, then LOAN STATE, then
DIGEST, then TEL and UPD. -/
def ownClass (k : Packet) : Nat :=
  let t := (Pkt.type k)
  if t = tTIME ∨ t = tIDLE then 0 else if t = tLOAN then 1 else if t = tDIGEST then 2 else 3

end Sys2Proof.Machine
end

