-- ==== Sys2Proof/Machine/Link.lean ====
section
/-!
DEFINITION. The Zugon link: bring-up, lanes, sleep, received packets, forwarding and a tile's own packets
(R260 to R286), with the meaning of each link command.
-/

namespace Sys2Proof.Machine

/-! ### Ports -/

/-- What a LNK port holds beside its registers. -/
def State.port (p : Part) (i : Nat) (s : State) : Port := ((s.chip p).ports[i]?).getD Port.reset

/-- The state with one LNK port changed. -/
def State.updPort (p : Part) (i : Nat) (f : Port → Port) (s : State) : State :=
  s.upd p fun c => { c with ports := listModify c.ports i f }

/-- `LNK_STAT.STATE` of a port: 0 OFF, 1 DETECT, 2 TRAIN, 3 LOCK, 4 EXCHANGE, 5 ACTIVE (R292). -/
def State.lnkSt (p : Part) (i : Nat) (s : State) : Nat := s.fldOf p (Reg.LNK_STAT i) 31 29
/-- `LNK_STAT.TXD` of a port: 0 DOWN, 1 UP, 2 SLEEP, 3 WAKE, 4 RETRAIN (R270, R292). -/
def State.lnkTx (p : Part) (i : Nat) (s : State) : Nat := s.fldOf p (Reg.LNK_STAT i) 27 25
/-- `LNK_STAT.RXD` of a port (R270, R292). -/
def State.lnkRx (p : Part) (i : Nat) (s : State) : Nat := s.fldOf p (Reg.LNK_STAT i) 23 21

/-- A chain of the sender whose transmit direction is not ACTIVE does not send the frame in progress wholly, also if it
is ACTIVE again before the next line (R251). -/
def State.linkFell (p : Part) (i : Nat) (s : State) : State :=
  match p with
  | .tile => s
  | .sender =>
    if s.txActive .sender i then s
    else s.updSnd fun t => { t with ras := t.ras.map fun r => { r with
      chains := r.chains.map fun c => if c.1 = i && c.2 = .sending then (i, .unsent) else c } }

/-- STATE, TXD and RXD of a port set; a change raises LNK_STATE (R267, R294). -/
def State.setLink (p : Part) (i st tx rx : Nat) (s : State) : State :=
  let w := s.rd p (Reg.LNK_STAT i)
  let w' := putFld (putFld (putFld w 31 29 st) 27 25 tx) 23 21 rx
  if w' = w then s else ((s.wr p (Reg.LNK_STAT i) w').linkFell p i).raise p (Ev.LNK_STATE p i)

/-- TXD alone set. -/
def State.setTx (p : Part) (i tx : Nat) (s : State) : State := s.setLink p i (s.lnkSt p i) tx (s.lnkRx p i)
/-- RXD alone set. -/
def State.setRx (p : Part) (i rx : Nat) (s : State) : State := s.setLink p i (s.lnkSt p i) (s.lnkTx p i) rx

/-- A counter of the port counts, and its event is raised at most once per millisecond (R294). -/
def State.crcErr (p : Part) (i : Nat) (s : State) : State :=
  let s := s.bump p (Reg.LNK_CRC_ERR i) 1
  if s.msDue p (s.port p i).crcAt then
    (s.updPort p i fun q => { q with crcAt := some (s.elapsed p) }).raise p (Ev.LNK_CRC_ERR p i)
  else s

/-- A header error counts, and LNK_HDR_ERR is raised at most once per millisecond (R283, R294). -/
def State.hdrErr (p : Part) (i : Nat) (s : State) : State :=
  let s := s.bump p (Reg.LNK_HDR_ERR i) 1
  if s.msDue p (s.port p i).hdrAt then
    (s.updPort p i fun q => { q with hdrAt := some (s.elapsed p) }).raise p (Ev.LNK_HDR_ERR p i)
  else s

/-! ### Stages (R267) -/

/-- Entries into RETRAIN, or into DETECT from ACTIVE, count in `LNK_RETRAINS` (R292). -/
def State.countRetrain (p : Part) (i : Nat) (s : State) : State :=
  if s.lnkSt p i = 5 then s.bump p (Reg.LNK_RETRAINS i) 1 else s

/-- The port goes to DETECT (R267). -/
def State.toDetect (p : Part) (i : Nat) (s : State) : State :=
  let s := s.countRetrain p i
  let s := s.updPort p i fun q => { q with noPeer := false, tries := 0, rxSwap := none, txSwap := none }
  s.setLink p i 1 0 0

/-- The measurements of TRAIN start afresh (R268). -/
def Port.freshTrain (q : Port) : Port :=
  { q with lastEntry := none, best := [(0, 0), (0, 0), (0, 0)], good := [0, 0, 0], bad := [0, 0, 0], aligned := false }

/-- A port sends control blocks of a type (R266): nothing while the boundary has taken the balls (R509). -/
def State.control (p : Part) (i : Nat) (type : Byte) (s : State) : State :=
  if s.tapTakes p then s else s.emit (.control (portOf p i) type)

/-- The port goes to TRAIN and TRIES counts, saturating at 255 (R267, R292). -/
def State.toTrain (p : Part) (i : Nat) (s : State) : State :=
  let t := s.fldOf p (Reg.LNK_STAT i) 15 8
  let s := s.wrFld p (Reg.LNK_STAT i) 15 8 (min 255 (t + 1))
  let s := (s.updPort p i Port.freshTrain).control p i 0x5A
  s.setLink p i 2 0 0

/-- The port goes to EXCHANGE (R267). -/
def State.toExchange (p : Part) (i : Nat) (s : State) : State :=
  let s := s.updPort p i fun q => { q with exchBody := [], exchSame := 0, exchAcked := 0, hopN := 0 }
  s.setLink p i 4 0 0

/-- A direction that carries traffic is lost with no healthy spare (R273): LNK_FAIL, then RETRAIN while the
reverse direction is UP, DETECT otherwise. -/
def State.loseDir (p : Part) (i : Nat) (rx : Bool) (s : State) : State :=
  let rev := if rx then s.lnkTx p i else s.lnkRx p i
  let s :=
    if rev = 1 then
      let s := s.countRetrain p i
      let s := s.updPort p i fun q =>
        { q.freshTrain with tries := 0, rxSub := if rx then .train else q.rxSub,
                            txSub := if rx then q.txSub else .train,
                            rxSwap := if rx then none else q.rxSwap, txSwap := if rx then q.txSwap else none }
      if rx then s.setRx p i 4 else s.setTx p i 4
    else s.toDetect p i
  s.raise p (Ev.LNK_FAIL p i)

/-! ### Equalisation (R268) -/

/-- An entry of `LNK_EQ` is used in TRAIN: VALID, and taps within their limits (R292). -/
def eqValid (w : Word) : Bool :=
  bit w 31 && fld w 27 24 + fld w 23 16 + fld w 12 8 ≤ 64 && 32 ≤ fld w 23 16

/-- The valid entry after the one measured last, in ascending order (R268). -/
def State.nextEntry (p : Part) (i : Nat) (s : State) : Option Nat :=
  let lo := match (s.port p i).lastEntry with
    | none => 0
    | some e => e + 1
  (List.range 8).find? fun e => lo ≤ e && eqValid (s.rd p (Reg.LNK_EQ i e))

/-- MIN of `LNK_FOM_THR`. -/
def State.fomMin (p : Part) (i : Nat) (s : State) : Nat := s.fldOf p (Reg.LNK_FOM_THR i) 7 0

/-- FOM of a receive physical lane (R292). -/
def State.fom (p : Part) (i lane : Nat) (s : State) : Nat :=
  s.fldOf p (Reg.LNK_FOM i) (8 * lane + 7) (8 * lane)

/-- FOM of a receive physical lane set. -/
def State.setFom (p : Part) (i lane v : Nat) (s : State) : State :=
  s.wrFld p (Reg.LNK_FOM i) (8 * lane + 7) (8 * lane) v

/-- The better of two measurements: the higher FOM, ties to the lower entry; the first of a TRAIN is the best so far
(R268). -/
def betterEntry (first : Bool) (old : Nat × Nat) (f e : Nat) : Nat × Nat := if first || old.1 < f then (f, e) else old

/-- The chosen entries, their FOMs and the lane map after the last entry (R268): the mapped lanes are kept
while both have FOM at MIN or above, or fewer than two lanes have; else the two lowest such lanes carry logical 0
and 1. -/
def State.chooseLanes (p : Part) (i : Nat) (s : State) : State :=
  let b := (s.port p i).best
  let f := fun n : Nat => (b.getD n (0, 0)).1
  let e := fun n : Nat => (b.getD n (0, 0)).2
  let s := s.wr p (Reg.LNK_FOM i) (wd (f 2 * 2 ^ 16 + f 1 * 2 ^ 8 + f 0))
  let s := s.wr p (Reg.LNK_EQ_SEL i) (wd (e 2 * 2 ^ 8 + e 1 * 2 ^ 4 + e 0))
  let m := s.fomMin p i
  let ok := fun n : Nat => decide (m ≤ f n)
  let l0 := s.fldOf p (Reg.LNK_LANES i) 21 20
  let l1 := s.fldOf p (Reg.LNK_LANES i) 19 18
  let goods := ([0, 1, 2] : List Nat).filter ok
  let (a, c) := match goods with
    | g0 :: g1 :: _ => if l0 < 3 && l1 < 3 && ok l0 && ok l1 then (l0, l1) else (g0, g1)
    | _ => (l0, l1)
  let spare := 3 - a - c
  let failed := (([0, 1, 2] : List Nat).map fun n => if ok n then 0 else 2 ^ n).foldl (· + ·) 0
  let w := s.rd p (Reg.LNK_LANES i)
  let w := putFld (putFld (putFld w 21 20 a) 19 18 c) 17 16 (if ok spare then spare else 3)
  s.wr p (Reg.LNK_LANES i) (putFld w 2 0 failed)

/-- Receive lanes whose best FOM is at MIN or above. -/
def State.goodLanes (p : Part) (i : Nat) (s : State) : Nat :=
  ((s.port p i).best.filter fun b => decide (s.fomMin p i ≤ b.1)).length

/-- The FOMs of an entry are measured (R268). After the last valid entry each lane takes its best entry;
with 2 good lanes in each direction the port goes to LOCK, else TRAIN goes over its entries again. -/
def State.trainMeasured (p : Part) (i e : Nat) (f : List Nat) (far : Nat) (s : State) : State :=
  let full := s.lnkSt p i = 2
  let rxT := s.lnkSt p i = 5 && s.lnkRx p i = 4 && (s.port p i).rxSub = .train
  if !(full || rxT) || s.nextEntry p i ≠ some e then s
  else
    let s := s.updPort p i fun q =>
      let better := fun (n : Nat) => betterEntry q.lastEntry.isNone (q.best.getD n (0, 0)) (f.getD n 0) e
      { q with lastEntry := some e, best := [better 0, better 1, better 2], txEq := [e, e, e] }
    if (s.nextEntry p i).isSome then s
    else
      let s := s.chooseLanes p i
      if 2 ≤ s.goodLanes p i && (rxT || 2 ≤ far) then
        if full then (s.updPort p i fun q => { q with good := [0, 0, 0], bad := [0, 0, 0] }).setLink p i 3 0 0
        else s.updPort p i fun q => { q with rxSub := .lock, good := [0, 0, 0], bad := [0, 0, 0] }
      else s.updPort p i Port.freshTrain

/-- A direction in RETRAIN fails an attempt: back to TRAIN, and after three the port goes to DETECT (R273). -/
def State.retrainFailed (p : Part) (i : Nat) (s : State) : State :=
  let s := s.updPort p i fun q => { q.freshTrain with tries := q.tries + 1, rxSub := .train, txSub := .train }
  if 3 ≤ (s.port p i).tries then s.toDetect p i else s

/-! ### Lanes (R271, R272) -/

/-- The logical lane that a receive physical lane carries, 2 for the spare. -/
def State.rxLogical (p : Part) (i lane : Nat) (s : State) : Option Nat :=
  if s.fldOf p (Reg.LNK_LANES i) 21 20 = lane then some 0
  else if s.fldOf p (Reg.LNK_LANES i) 19 18 = lane then some 1
  else if s.fldOf p (Reg.LNK_LANES i) 17 16 = lane then some 2
  else none

/-- A receive physical lane fails (R271, R272, R273): a swap begins while SWAP_EN is 1 and the spare has FOM
at MIN or above; the failure of another lane, or no healthy spare, loses the direction. A failed spare is no spare. -/
def State.failLane (p : Part) (i lane : Nat) (s : State) : State :=
  if s.lnkSt p i ≠ 5 || 3 ≤ lane then s
  else
    let lg := s.rxLogical p i lane
    let s := s.wrBit p (Reg.LNK_LANES i) lane true
    if s.lnkRx p i ≠ 1 then s
    else
      match lg with
      | none => s
      | some 2 =>
        let s := s.wrFld p (Reg.LNK_LANES i) 17 16 3
        if (s.port p i).rxSwap.isSome then s.loseDir p i true else s
      | some l =>
        let sp := s.fldOf p (Reg.LNK_LANES i) 17 16
        if (s.port p i).rxSwap = some l then s
        else if (s.port p i).rxSwap.isSome then s.loseDir p i true
        else if s.bitOf p (Reg.LNK_CTRL i) 27 && sp < 3 && s.fomMin p i ≤ s.fom p i sp then
          s.updPort p i fun q => { q with rxSwap := some l }
        else s.loseDir p i true

/-- A swap completes at its boundary: the logical lane moves to the spare lane, and there is no spare (R272); its blocks
are judged afresh. -/
def State.swapLane (p : Part) (i : Nat) (tx : Bool) (s : State) : State :=
  let q := s.port p i
  match (if tx then q.txSwap else q.rxSwap) with
  | none => s
  | some l =>
    let hi := if tx then 13 else 21
    let sp := s.fldOf p (Reg.LNK_LANES i) (hi - 4) (hi - 5)
    let w := s.rd p (Reg.LNK_LANES i)
    let w := putFld w (hi - 2 * l) (hi - 1 - 2 * l) sp
    let s := s.wr p (Reg.LNK_LANES i) (putFld w (hi - 4) (hi - 5) 3)
    let s := s.updPort p i fun q =>
      if tx then { q with txSwap := none }
      else { q with rxSwap := none, good := q.good.set l 0, bad := q.bad.set l 0 }
    (s.bump p (Reg.LNK_SWAPS i) 1).raise p (Ev.LNK_LANE_SWAP p i)

/-! ### The bypass buffer (R285) -/

/-- The position of the first own packet of a class. -/
def ownFirst (l : List Packet) : Option Nat :=
  ([0, 1, 2, 3] : List Nat).findSome? fun c => l.findIdx? fun k => ownClass k == c

/-- A TIME packet as it leaves: TX_TIME is the wall time at which its header crosses the balls (R156, R285). -/
def State.stampTime (pkt : Packet) (s : State) : Packet :=
  if Pkt.type pkt = tTIME ∧ Pkt.kind pkt = 0 then
    mkPacket tTIME (Pkt.dest pkt) 0 (Pkt.src pkt) (Pkt.w pkt 1) (s.wall .tile :: (Pkt.body pkt).drop 1)
  else pkt

/-- The own packet has gone out: the forwarded packets that waited for its end leave, in their order (R285). -/
def State.bypOut (p : Part) (i : Nat) (s : State) : State :=
  let s := (s.port p i).byp.foldl (fun s k => s.emit (.packet (portOf p i) k)) s
  s.updPort p i fun q => { q with ownLeft := 0, byp := [] }

/-- A tile port's outbound has sent n more words (R285). -/
def State.bypPass (i n : Nat) (s : State) : State :=
  if (s.port .tile i).ownLeft = 0 then s
  else if (s.port .tile i).ownLeft ≤ n then s.bypOut .tile i
  else s.updPort .tile i fun q => { q with ownLeft := q.ownLeft - n }

/-- An inbound packet of n words has arrived for a tile port's outbound (R285): forwarded words that came while an own
packet went out raise the level, words that are not forwarded lower it. -/
def State.bypTake (i n : Nat) (forwarded : Bool) (s : State) : State :=
  let t := min n (s.port .tile i).ownLeft
  let s := s.bypPass i n
  let s := s.updPort .tile i fun q => { q with level := if forwarded then q.level + t else q.level - (n - t) }
  let top := max (s.fldOf .tile (Reg.LNK_BYP_MAX i) 7 0) (s.port .tile i).level
  s.wrFld .tile (Reg.LNK_BYP_MAX i) 7 0 (min top 128)

/-- One TIMEC cycle of 2 ns of both outbounds: a word takes 1.024 ns (R265). DESIGN CHOICE: taken as two words. -/
def State.bypTick (s : State) : State := if s.alive .tile then (s.bypPass 0 2).bypPass 1 2 else s

/-! ### Sleep and wake (R275, R276) -/

/-- An outbound port of the tile follows its inbound with SLEEP_FOLLOW (R275). -/
def State.follows (i : Nat) (s : State) : Bool := s.bitOf .tile (Reg.LNK_CTRL i) 29

/-- Own packets that wait at a port leave in the order of R285, at most `n` of them (R275). -/
def State.flushOwn (p : Part) (i : Nat) : Nat → State → State
  | 0, s => s
  | n + 1, s =>
    let own := (s.port p i).own
    match ownFirst own with
    | none => s
    | some k =>
      let s := s.emit (.packet (portOf p i) (s.stampTime (own.getD k [])))
      State.flushOwn p i n (s.updPort p i fun q => { q with own := q.own.eraseIdx k })

/-- The inbound of the same direction as a tile port's outbound sleeps or has no peer (R275). -/
def State.inboundSleeps (i : Nat) (s : State) : Bool :=
  let o := otherPort i
  (s.lnkSt .tile o = 5 && s.lnkRx .tile o = 2) || (s.lnkSt .tile o = 1 && (s.port .tile o).noPeer)

/-- Sleep of a transmit direction is asked for: by TX_SLEEP, or by the inbound that it follows (R275). -/
def State.sleepAsked (p : Part) (i : Nat) (s : State) : Bool :=
  s.bitOf p (Reg.LNK_CTRL i) 30 || (p == .tile && s.follows i && s.inboundSleeps i)

/-- Commands of TSND wait for a port: it sends them before it sleeps (R275). -/
def State.txHeld (p : Part) (i : Nat) (s : State) : Bool :=
  match p with
  | .tile => (s.tile.txq.getD 0 []).any fun t => portToward (s.dstLetter t.dst) == i
  | .sender => !(s.sender.txq.getD i []).isEmpty

/-- A transmit direction that is UP goes to sleep (R275): a swap completes, what waits in the bypass buffer and the queued
packets leave, then the SLEEP blocks. -/
def State.txSleep (p : Part) (i : Nat) (s : State) : State :=
  if s.lnkSt p i = 5 && s.lnkTx p i = 1 && !s.txHeld p i then
    let s := (s.swapLane p i true).bypOut p i
    ((s.flushOwn p i (s.port p i).own.length).control p i 0x3C).setTx p i 2
  else s

/-- A transmit direction sleeps if that is asked for (R275). -/
def State.settle (p : Part) (i : Nat) (s : State) : State := if s.sleepAsked p i then s.txSleep p i else s

/-- A sleeping transmit direction begins to wake, with TRAIN blocks (R276). -/
def State.txWake (p : Part) (i : Nat) (s : State) : State :=
  if s.lnkSt p i = 5 && s.lnkTx p i = 2 then (s.control p i 0x5A).setTx p i 3 else s

/-- A sender's packet goes out of a chain port if its transmit direction is ACTIVE (R274). A packet other than TIME for a
direction that sleeps wakes it (R275, R276). DESIGN CHOICE: that packet is not kept. -/
def State.sendChain (k : Nat) (pkt : Packet) (s : State) : State :=
  if s.txActive .sender k then s.emit (.packet (portOf .sender k) pkt)
  else if Pkt.type pkt = tTIME then s
  else s.txWake .sender k

/-- A sender in its safe state sends only IDLE, TIME and BEAT (R302, R424). -/
def State.sendOpen (k : Nat) (pkt : Packet) (s : State) : State := if s.safe .sender then s else s.sendChain k pkt

/-- The other port of the tile follows an inbound that sleeps or has no peer (R275). -/
def State.followSleep (p : Part) (i : Nat) (s : State) : State :=
  match p with
  | .sender => s
  | .tile => s.settle .tile (otherPort i)

/-- The other port of the tile follows an inbound that wakes (R276). -/
def State.followWake (p : Part) (i : Nat) (s : State) : State :=
  match p with
  | .sender => s
  | .tile => if s.follows (otherPort i) then s.txWake .tile (otherPort i) else s

/-! ### EXCH (R269, R282) -/

/-- The stepping code of a part (R1). -/
def stepping : Part → Nat
  | .sender => 0xB1
  | .tile => 0xA2

/-- NEXT of the EXCH a port sends (R269). -/
def State.exchNext (p : Part) (i : Nat) (s : State) : Nat :=
  match p with
  | .sender => match s.letter with
    | .a => 0
    | .b => 0x7F
  | .tile => match s.tilePos with
    | none => 0x7F
    | some n => if i = 1 then n + 1 else n

/-- The EXCH packet a port sends (R282). -/
def State.exchPacket (p : Part) (i : Nat) (s : State) : Packet :=
  let role := match p with
    | .tile => 0
    | .sender => 1 + letterBit s.letter
  let ack := if 2 ≤ (s.port p i).exchSame then 1 else 0
  let own := s.srcOf p
  let w2 := wd (role * 2 ^ 30 + ack * 2 ^ 29 + stepping p * 2 ^ 16 + s.exchNext p i * 2 ^ 8 + own)
  let cp := match p with
    | .sender => i
    | .tile => 0
  mkPacket tIDLE destAll 0 own (wd (2 ^ 24))
    [w2, 0x00010000, s.rd p Reg.LNK_DEVID_HI, s.rd p Reg.LNK_DEVID_LO, s.rd p Reg.LNK_WALL, wd cp]

/-- A port sends EXCH while it is in EXCHANGE or its transmit direction is ACTIVE (R269). -/
def State.sendExch (p : Part) (i : Nat) (s : State) : State :=
  if s.lnkSt p i = 4 || s.txActive p i then s.emit (.packet (portOf p i) (s.exchPacket p i)) else s

/-- The tile takes a position, the number of hops from the A end (R17): POS_CHANGED, and a new EXCH goes out of D if it is
ACTIVE (R269). -/
def State.takePosition (n : Nat) (s : State) : State :=
  if s.tilePos = some n then s
  else
    let s := s.wr .tile Reg.LNK_POS (wd (2 ^ 31 + n))
    let s := { s with pvd := { s.pvd with lastPos := wd n } }
    let s := s.raise .tile Ev.POS_CHANGED
    if s.txActive .tile 1 then s.sendExch .tile 1 else s

/-- What the NEXT and WALL of an EXCH do at a tile's U port (R269). -/
def State.exchAtU (body : List Word) (s : State) : State :=
  let s := s.wr .tile Reg.LNK_WALL (body.getD 4 0)
  let nx := fld (body.getD 0 0) 14 8
  if nx = 0x7F then s
  else if 64 ≤ nx then (if s.tilePos.isSome then s.raise .tile Ev.POS_CONFLICT else s)
  else s.takePosition nx

/-- What the EXCH that completes EXCHANGE, or a later one in ACTIVE, sets (R269). `body` has ACK cleared. -/
def State.exchApply (p : Part) (i : Nat) (body : List Word) (s : State) : State :=
  let same := s.rd p (Reg.LNK_PEER_ID_HI i) = body.getD 2 0 && s.rd p (Reg.LNK_PEER_ID_LO i) = body.getD 3 0
  let seen := (s.port p i).peerSeen
  let s := s.wr p (Reg.LNK_PEER_ID_HI i) (body.getD 2 0)
  let s := s.wr p (Reg.LNK_PEER_ID_LO i) (body.getD 3 0)
  let s := s.updPort p i fun q => { q with peerSeen := true }
  let s := if seen && !same then s.raise p (Ev.LNK_PEER_CHANGE p i) else s
  match p with
  | .sender => s
  | .tile => if i = 0 then s.exchAtU body else s

/-- EXCHANGE ends when 4 identical EXCH with ACK and 16 hop-delay results are there (R267). -/
def State.exchDone (p : Part) (i : Nat) (s : State) : State :=
  let q := s.port p i
  if s.lnkSt p i = 4 && 4 ≤ q.exchAcked && 16 ≤ q.hopN then
    ((s.setLink p i 5 1 1).exchApply p i q.exchBody).settle p i
  else s

/-- An EXCH arrives in EXCHANGE or ACTIVE (R267, R269): `LNK_PEER` shows each one (R292). -/
def State.exchTake (p : Part) (i : Nat) (pkt : Packet) (s : State) : State :=
  let b := Pkt.body pkt
  let ack := bit (b.getD 0 0) 29
  let body := putBit (b.getD 0 0) 29 false :: b.drop 1
  let s := s.updPort p i fun q =>
    let same := body = q.exchBody
    { q with exchBody := body, exchSame := if same then q.exchSame + 1 else 1,
             exchAcked := if ack then (if same then q.exchAcked + 1 else 1) else 0 }
  let s := s.wr p (Reg.LNK_PEER i) (body.getD 0 0)
  if s.lnkSt p i = 5 then s.exchApply p i body else s.exchDone p i

/-! ### Arriving packets (R283, R284) -/

/-- Packets reach a port in EXCHANGE, or in ACTIVE while RXD is UP (R270). -/
def State.hears (p : Part) (i : Nat) (s : State) : Bool :=
  s.alive p && (s.lnkSt p i == 4 || s.rxActive p i)

/-- The tile's own position is a packet's DEST (R283). -/
def State.destOwn (pkt : Packet) (s : State) : Bool := s.tilePos == some (Pkt.dest pkt)

/-- IDLE, TIME and DIGEST CHAIN are consumed whatever their DEST (R283). -/
def Pkt.alwaysConsumed (k : Packet) : Bool :=
  Pkt.type k == tIDLE || Pkt.type k == tTIME || Pkt.is k tDIGEST 2

/-- The tile consumes a packet (R283). -/
def State.consumes (pkt : Packet) (s : State) : Bool :=
  Pkt.alwaysConsumed pkt || s.destOwn pkt || Pkt.dest pkt == destAll

/-- A packet as a tile sends it on: with a bad CRC that is no stomp yet, its last word is the good CRC
inverted (R284). -/
def Pkt.forwarded (k : Packet) : Packet :=
  if Pkt.crcOk k || Pkt.stomped k then k else k.dropLast ++ [Pkt.crc k ^^^ 0xFFFFFFFF]

/-- A packet forwarded on the tile's other port, if that carries traffic (R283, R274): while an own packet goes out there
it waits in the bypass buffer (R285). A port that sleeps wakes (R276). DESIGN CHOICE: that packet is not kept. -/
def State.fwd (i : Nat) (pkt : Packet) (s : State) : State :=
  let o := otherPort i
  if s.txActive .tile o && !s.tapTakes .tile then
    let s := s.bypTake o pkt.length true
    if (s.port .tile o).ownLeft = 0 then s.emit (.packet (portOf .tile o) (Pkt.forwarded pkt))
    else s.updPort .tile o fun q => { q with byp := q.byp ++ [Pkt.forwarded pkt] }
  else s.txWake .tile o

/-- Words of a packet that the tile does not forward leave the outbound free; in the place of words it drops it sends
filler words (R283, R285). -/
def State.notFwd (i : Nat) (pkt : Packet) (dropped : Bool) (s : State) : State :=
  let o := otherPort i
  if s.txActive .tile o && !s.tapTakes .tile then
    let s := s.bypTake o pkt.length false
    if dropped then s.emit (.filler (portOf .tile o) pkt.length) else s
  else s

/-- A packet is dropped on arrival (R283): a tile sends filler words in its place. -/
def State.dropped (p : Part) (i : Nat) (pkt : Packet) (s : State) : State :=
  match p with
  | .sender => s
  | .tile => s.notFwd i pkt true

/-- The CRC of a received packet: a stomped one counts `LNK_STOMPED`, any other bad one `LNK_CRC_ERR`; a good
one goes on (R284). -/
def State.crcGate (p : Part) (i : Nat) (pkt : Packet) (k : State → State) (s : State) : State :=
  if Pkt.crcOk pkt then k s
  else if Pkt.stomped pkt then s.bump p (Reg.LNK_STOMPED i) 1
  else s.crcErr p i

/-- The header checks of R283, then what follows for a sound header. -/
def State.headerGate (p : Part) (i : Nat) (pkt : Packet) (k : State → State) (s : State) : State :=
  if !s.hears p i then s
  else if (s.port p i).unframed then s.dropped p i pkt
  else if !Pkt.hcrcOk pkt then ((s.updPort p i fun q => { q with unframed := true }).dropped p i pkt).hdrErr p i
  else if !Pkt.lenOk pkt then (s.dropped p i pkt).hdrErr p i
  else k s

/-- A packet that the tile consumes arrives: a broadcast is forwarded too, and with a good CRC it acts
(R283). A packet that is not `want`ed belongs to another command and changes nothing. -/
def State.arriveTile (i : Nat) (pkt : Packet) (want : Bool) (k : State → State) (s : State) : State :=
  s.headerGate .tile i pkt (fun s =>
    if !want || !s.consumes pkt then s
    else
      let s := if Pkt.dest pkt = destAll && !Pkt.alwaysConsumed pkt then s.fwd i pkt else s.notFwd i pkt false
      s.crcGate .tile i pkt k) 

/-- The word that holds the K word of a packet type (R279). -/
def Pkt.kIndex (k : Packet) : Option Nat :=
  let t := Pkt.type k
  if t = tPIX ∨ t = tSYNC ∨ t = tABORT then some 3
  else if t = tLOAN ∨ t = tBEAT ∨ t = tSIG then some 4
  else if t = tTIME ∧ Pkt.kind k = 0 then some 4
  else none

/-- A sender discards a packet: it is addressed to a tile position, or a sender made it and its LETTER is not
that of the other sender, from which the chain brings it (R283, R16). -/
def State.discards (pkt : Packet) (s : State) : Bool :=
  Pkt.dest pkt < 64 ||
  (Pkt.src pkt == 0x7E &&
    match Pkt.kIndex pkt with
    | none => false
    | some n => decide (letterOf (Pkt.w pkt n) = s.letter))

/-- A packet that the sender consumes and does not discard arrives at chain port k (R283). -/
def State.arriveSender (k : Nat) (pkt : Packet) (want : Bool) (f : State → State) (s : State) : State :=
  s.headerGate .sender k pkt (fun s =>
    if !want || s.discards pkt then s else s.crcGate .sender k pkt f)

/-- A packet that either part consumes arrives at a port. -/
def State.arrive (port : LnkPort) (pkt : Packet) (want : Bool) (f : State → State) (s : State) : State :=
  match port.part with
  | .sender => s.arriveSender port.idx pkt want f
  | .tile => s.arriveTile port.idx pkt want f

/-! ### A tile's own packets (R285) -/

/-- The words of the TEL and UPD packets in an own queue. -/
def ownWords (l : List Packet) : Nat := (l.map fun k => if ownClass k = 3 then k.length else 0).foldl (· + ·) 0

/-- An own packet enters the own queue of a tile port that is ACTIVE, and wakes its direction if that sleeps (R276); a TEL
or UPD that finds the queue of 512 words full is dropped (R285). A port that is not ACTIVE sends nothing (R274), one that
sleeps no PROBE and no TIME (R275). -/
def State.ownPush (i : Nat) (pkt : Packet) (s : State) : State :=
  if s.lnkSt .tile i ≠ 5 || s.lnkTx .tile i = 0 || s.lnkTx .tile i = 4 || (s.lnkTx .tile i = 2 && ownClass pkt = 0) then s
  else if ownClass pkt = 3 && 512 < ownWords (s.port .tile i).own + pkt.length then
    (s.bump .tile (Reg.LNK_OWN_DROP i) 1).raise .tile Ev.OWN_DROP
  else (s.updPort .tile i fun q => { q with own := q.own ++ [pkt] }).txWake .tile i

/-- At a packet boundary the first own packet, in the order of R285, leaves if it fits the bypass buffer's free space;
`LNK_BYP_MAX` keeps the highest level. `level` is the level after the filler words that have come in, no more than the
buffer holds, and `peak` the highest while the packet goes out. -/
def State.ownSend (i level peak : Nat) (s : State) : State :=
  if !s.txActive .tile i then s
  else
    let q := s.port .tile i
    match ownFirst q.own with
    | none => s
    | some n =>
      let pkt := q.own.getD n []
      let level := min level q.level
      if 128 < level + pkt.length then s
      else
        let s := s.bypOut .tile i
        let s := s.emit (.packet (portOf .tile i) (s.stampTime pkt))
        let s := s.updPort .tile i fun q =>
          { q with own := q.own.eraseIdx n, ownLeft := pkt.length, level := level }
        let top := max (s.fldOf .tile (Reg.LNK_BYP_MAX i) 7 0) (max level (min peak (level + pkt.length)))
        s.wrFld .tile (Reg.LNK_BYP_MAX i) 7 0 top

/-! ### Register writes of R292 -/

/-- A write of `LNK_CTRL` (R267, R275, R292). -/
def State.lnkCtrlWrite (p : Part) (i : Nat) (v : Word) (s : State) : State :=
  let old := s.rd p (Reg.LNK_CTRL i)
  let s := s.wr p (Reg.LNK_CTRL i) (v &&& 0xE8000000)
  if !bit v 31 then s.setLink p i 0 0 0
  else
    let s := if !bit old 31 then (s.wrFld p (Reg.LNK_STAT i) 15 8 0).toDetect p i
      else if bit v 28 then s.toDetect p i else s
    if bit old 30 && !bit v 30 then s.txWake p i else s.settle p i

/-- Every port of the sender has EN = 0 (R293). -/
def State.allPortsOff (s : State) : Bool := (List.range 16).all fun i => !s.bitOf .sender (Reg.LNK_CTRL i) 31

/-- A write of `LNK_ROLE` acts only while every port has EN = 0 (R293). -/
def State.lnkRoleWrite (v : Word) (s : State) : State :=
  if s.allPortsOff then s.wr .sender Reg.LNK_ROLE (v &&& 3) else s

/-! ### The meanings of the link commands -/


/-- LNK_ENABLE (R267): EN is written, every other field of `LNK_CTRL` kept. -/
def execLnkEnable (port : LnkPort) (en : Bool) (s : State) : Host.Outcome State Fault Refusal :=
  .next (s.when' port.part fun s =>
    s.lnkCtrlWrite port.part port.idx (putBit (s.rd port.part (Reg.LNK_CTRL port.idx)) 31 en))

/-- LNK_RESTART (R292): RESTART sends an enabled port to DETECT. -/
def execLnkRestart (port : LnkPort) (s : State) : Host.Outcome State Fault Refusal :=
  .next (s.when' port.part fun s =>
    s.lnkCtrlWrite port.part port.idx (putBit (s.rd port.part (Reg.LNK_CTRL port.idx)) 28 true))

/-- LNK_TX_SLEEP_WRITE (R275, R276). -/
def execLnkTxSleepWrite (port : LnkPort) (b : Bool) (s : State) : Host.Outcome State Fault Refusal :=
  .next (s.when' port.part fun s =>
    s.lnkCtrlWrite port.part port.idx (putBit (s.rd port.part (Reg.LNK_CTRL port.idx)) 30 b))

/-- The reference is present by R262: a sender A drives it, a sender B takes it from the chain, a tile from
its U port. -/
def State.refPresent (p : Part) (ref : Bool) (s : State) : Bool :=
  match p with
  | .sender => match s.letter with
    | .a => true
    | .b => ref
  | .tile => s.bitOf .tile Reg.LNK_REF 0

/-- DETECT_ATTEMPT (R267): with terminations on at least 2 lanes in each direction and the reference present
the port goes to TRAIN. -/
def execDetectAttempt (port : LnkPort) (tx rx : Fin 4) (ref : Bool) (s : State) :
    Host.Outcome State Fault Refusal :=
  .next (s.when' port.part fun s =>
    let p := port.part
    let i := port.idx
    if s.lnkSt p i ≠ 1 then s
    else
      let r := s.refPresent p ref
      let s := s.wrBit p (Reg.LNK_STAT i) 20 r
      if 2 ≤ tx.val && 2 ≤ rx.val && r then s.toTrain p i else s)

/-- LNK_NOPEER (R267): raised once in a DETECT; a tile's other port follows an inbound without a peer (R275). -/
def execLnkNopeer (port : LnkPort) (s : State) : Host.Outcome State Fault Refusal :=
  .next (s.when' port.part fun s =>
    let p := port.part
    let i := port.idx
    if s.lnkSt p i ≠ 1 || (s.port p i).noPeer then s
    else
      let s := s.updPort p i fun q => { q with noPeer := true }
      (s.raise p (Ev.LNK_NOPEER p i)).followSleep p i)

/-- TRAIN_ENTRY_MEASURED (R268). -/
def execTrainEntryMeasured (port : LnkPort) (e : Fin 8) (f0 f1 f2 : Byte) (far : Fin 4) (s : State) :
    Host.Outcome State Fault Refusal :=
  .next (s.when' port.part fun s =>
    s.trainMeasured port.part port.idx e.val [f0.toNat, f1.toNat, f2.toNat] far.val)

/-- LNK_TRAIN_FAIL (R267, R273): TRAIN times out; the port, or the direction in RETRAIN, has failed. -/
def execLnkTrainFail (port : LnkPort) (s : State) : Host.Outcome State Fault Refusal :=
  .next (s.when' port.part fun s =>
    let p := port.part
    let i := port.idx
    let q := s.port p i
    if s.lnkSt p i = 2 then (s.toDetect p i).raise p (Ev.LNK_TRAIN_FAIL p i)
    else if s.lnkSt p i = 5 && ((s.lnkRx p i = 4 && q.rxSub = .train) || (s.lnkTx p i = 4 && q.txSub = .train))
    then (s.retrainFailed p i).raise p (Ev.LNK_TRAIN_FAIL p i)
    else s)

/-- A direction that wakes and does not lock goes to RETRAIN (R276). -/
def State.wakeFailed (p : Part) (i : Nat) (rx : Bool) (s : State) : State :=
  let s := s.countRetrain p i
  let s := s.updPort p i fun q =>
    { q.freshTrain with tries := 0, rxSub := if rx then .train else q.rxSub, txSub := if rx then q.txSub else .train }
  if rx then s.setRx p i 4 else s.setTx p i 4

/-- LOCK_TIMEOUT (R267, R273, R276): back to TRAIN; a direction that wakes goes to RETRAIN. -/
def execLockTimeout (port : LnkPort) (s : State) : Host.Outcome State Fault Refusal :=
  .next (s.when' port.part fun s =>
    let p := port.part
    let i := port.idx
    let q := s.port p i
    if s.lnkSt p i = 3 then s.toTrain p i
    else if s.lnkSt p i = 5 && s.lnkRx p i = 3 then s.wakeFailed p i true
    else if s.lnkSt p i = 5 && s.lnkTx p i = 3 then s.wakeFailed p i false
    else if s.lnkSt p i = 5 && ((s.lnkRx p i = 4 && q.rxSub = .lock) || (s.lnkTx p i = 4 && q.txSub = .lock))
    then s.retrainFailed p i
    else s)

/-- The payload of an alignment block is good: TYPE, its LANE and CHK (R266). -/
def alignGood (lane : Nat) (b : List Byte) : Bool :=
  b.length == 16 && b.getD 0 0 == 0xA5 && (b.getD 1 0).toNat / 64 == lane &&
  crc16 (b.take 14) == natBE (b.drop 14)

/-- What a good alignment block's flags, pointer and back-channel ask (R266, R268, R272, R283). -/
def State.alignFlags (p : Part) (i : Nat) (b : List Byte) (s : State) : State :=
  let back : BitVec 56 := BitVec.ofNat 56 (natBE ((b.drop 7).take 7))
  let s := s.updPort p i fun q => { q with
    peerFlags := b.getD 6 0, peerBack := back, txEq := [0, 1, 2].map fun n => (Config.backEntry back n).toNat }
  let s := if natBE ((b.drop 4).take 2) ≠ 0xFFFF then s.updPort p i fun q => { q with unframed := false } else s
  let fl := (b.getD 6 0).toNat
  if fl / 64 % 2 = 1 && s.lnkTx p i = 1 && (s.port p i).txSwap.isNone && fl / 16 % 4 < 2 then
    s.updPort p i fun q => { q with txSwap := some (fl / 16 % 4) }
  else s

/-- What the back-channel says of the transmit direction (R267, R273). -/
def State.alignBack (p : Part) (i : Nat) (far : FarEnd) (s : State) : State :=
  if s.lnkSt p i ≠ 5 then s
  else if s.lnkTx p i = 1 && far = .lost then s.loseDir p i false
  else if s.lnkTx p i = 3 && far = .lost then s.wakeFailed p i false
  else if s.lnkTx p i = 4 then
    match far with
    | .trained => s.updPort p i fun q => { q with txSub := .lock }
    | .lost => s
    | _ => ((s.updPort p i fun q => { q with tries := 0 }).setTx p i 1).settle p i
  else s

/-! #### Alignment blocks sent, and the scrambler (R264, R266) -/

/-- The generator of a logical lane as the end of an alignment block sets it (R264). -/
def scrSeed (lane : Nat) : BitVec 31 := BitVec.ofNat 31 (0x7FFFFFF0 + lane + 1)

/-- One step of x³¹ + x²⁸ + 1: the bit that scrambles, and the generator after it (R264). DESIGN CHOICE: the rule does not
number the generator's bits; the new bit enters at bit 0. -/
def scrStep (g : BitVec 31) : Bool × BitVec 31 :=
  let b := g.getLsbD 30 ^^ g.getLsbD 27
  (b, (g <<< 1) ||| BitVec.ofNat 31 b.toNat)

/-- The bits of data-block payloads, in the order sent, scrambled, or descrambled again: an additive scrambler is its own
inverse (R264). -/
def scramble : BitVec 31 → List Bool → List Bool
  | _, [] => []
  | g, x :: xs => (x ^^ (scrStep g).1) :: scramble (scrStep g).2 xs

/-- The transmit physical lane of a logical lane, 2 for the spare: with no spare, the lane that is left (R266, R272). -/
def State.txPhys (p : Part) (i l : Nat) (s : State) : Nat :=
  let w := s.rd p (Reg.LNK_LANES i)
  let n := fld w (13 - 2 * l) (12 - 2 * l)
  if n < 3 then n else 3 - fld w 13 12 - fld w 11 10

/-- A transmit direction sends alignment blocks: in LOCK and EXCHANGE, and in ACTIVE while it is UP, wakes or relocks. -/
def State.sendsAlign (p : Part) (i : Nat) (s : State) : Bool :=
  !s.tapTakes p && (s.lnkSt p i = 3 || s.lnkSt p i = 4 || (s.lnkSt p i = 5 &&
    (s.lnkTx p i = 1 || s.lnkTx p i = 3 || (s.lnkTx p i = 4 && (s.port p i).txSub = .lock))))

/-- Both active lanes hold lock, deskewed, with 8 good alignment blocks in a row (R267). -/
def State.locked (p : Part) (i : Nat) (deskewed : Bool) (s : State) : Bool :=
  let g := (s.port p i).good
  deskewed && 8 ≤ g.getD 0 0 && 8 ≤ g.getD 1 0

/-- FLAGS of the alignment blocks a port sends (R266, R272, R275, R276). -/
def State.alignFlagsOut (p : Part) (i : Nat) (s : State) : Nat :=
  let q := s.port p i
  (s.sleepAsked p i && s.lnkTx p i = 1).toNat * 128
    + (match q.rxSwap with
      | none => 0
      | some l => 64 + l * 16)
    + (s.lnkSt p i = 5 && s.lnkRx p i = 3 && s.locked p i q.aligned : Bool).toNat * 8

/-- Where a port stands, as its back-channel tells it: stage, receive state, and the part of a retraining. -/
def State.backState (p : Part) (i : Nat) (s : State) : Nat :=
  s.lnkSt p i * 16 + s.lnkRx p i * 2 + ((s.port p i).rxSub == .lock).toNat

/-- A port sends the alignment block of a logical lane (R266), and the lane's generator is set (R264). NEXTHDR, which
depends on what the next blocks carry, is an open value within its range. -/
def State.alignTx (p : Part) (i l : Nat) (s : State) : State :=
  if !s.sendsAlign p i then s
  else
    let (x, s) := s.free 15
    let next := if x.toNat % 509 = 508 then 0xFFFF else x.toNat % 509
    let n := (s.port p i).alignSent.getD l 0
    let back := Config.backBytes (s.rd p (Reg.LNK_EQ_SEL i)) (s.rd p (Reg.LNK_FOM i)) (s.backState p i)
    let b : List Byte := [0xA5, BitVec.ofNat 8 (l * 64 + s.txPhys p i l)] ++ bytesOfNatBE 2 (n % 65536) ++ bytesOfNatBE 2 next
      ++ [BitVec.ofNat 8 (s.alignFlagsOut p i)] ++ bytesOfNatBE 7 back.toNat
    let s := s.emit (.alignBlock (portOf p i) l (b ++ bytesOfNatBE 2 (crc16 b)))
    s.updPort p i fun q => { q with alignSent := q.alignSent.set l (n + 1), scrTx := q.scrTx.set l (scrSeed l) }

/-- The alignment blocks that go out with one that has arrived (R266): a tile's outbound sends its own in the positions of
its inbound while that is UP. DESIGN CHOICE: the schedule of any other transmit direction is that of the blocks which
arrive on its port. -/
def State.alignOut (p : Part) (i l : Nat) (s : State) : State :=
  match p with
  | .sender => s.alignTx .sender i l
  | .tile =>
    let s := if s.rxActive .tile i then s.alignTx .tile (otherPort i) l else s
    if s.rxActive .tile (otherPort i) then s else s.alignTx .tile i l

/-- The stage or direction that an alignment block of logical lane l moves on, or the lane it fails (R267, R271,
R273). -/
def State.alignMoves (p : Part) (i l : Nat) (deskewed : Bool) (far : FarEnd) (s : State) : State :=
  if s.lnkSt p i = 3 then
    if s.locked p i deskewed && (far = .locked || far = .up) then s.toExchange p i else s
  else if s.lnkSt p i = 5 && s.lnkRx p i = 4 then
    if (s.port p i).rxSub = .lock && s.locked p i deskewed then
      (s.updPort p i fun q => { q with tries := 0 }).setRx p i 1
    else s
  else if s.lnkSt p i = 5 && s.lnkRx p i = 1 && 2 ≤ (s.port p i).bad.getD l 0 then
    (s.updPort p i fun q => { q with bad := q.bad.set l 0 }).failLane p i
      (if l = 2 then s.fldOf p (Reg.LNK_LANES i) 17 16 else s.fldOf p (Reg.LNK_LANES i) (21 - 2 * l) (20 - 2 * l))
  else s

/-- An alignment block arrives on a logical lane of a port that does not sleep. -/
def State.alignIn (p : Part) (i l : Nat) (b : List Byte) (deskewed : Bool) (far : FarEnd) (s : State) : State :=
  let st := s.lnkSt p i
  if st ≠ 3 && st ≠ 4 && !(st = 5 && s.lnkRx p i ≠ 2) then s
  else
    let ok := alignGood l b
    let s := s.updPort p i fun q =>
      { q with good := q.good.set l (if ok then q.good.getD l 0 + 1 else 0),
               bad := q.bad.set l (if ok then 0 else q.bad.getD l 0 + 1),
               aligned := deskewed, scrRx := q.scrRx.set l (scrSeed l) }
    let s := if ok then (s.alignFlags p i b).alignBack p i far else s
    -- the block may have moved the port out of the stage it arrived in
    let s := if s.lnkSt p i = st then s.alignMoves p i l deskewed far else s
    s.alignOut p i l

/-- ALIGNMENT_BLOCK (R264, R266, R267, R271, R272). -/
def execAlignmentBlock (port : LnkPort) (lane : Fin 3) (b : List Byte) (deskewed : Bool) (far : FarEnd)
    (s : State) : Host.Outcome State Fault Refusal :=
  .next (s.when' port.part (State.alignIn port.part port.idx lane.val b deskewed far))

/-- EXCH (R269). -/
def execExch (port : LnkPort) (pkt : Packet) (s : State) : Host.Outcome State Fault Refusal :=
  .next (s.arrive port pkt (Pkt.type pkt == tIDLE && fld (Pkt.w pkt 1) 31 24 == 1)
    (fun s => s.exchTake port.part port.idx pkt))

/-- EXCH_SEND (R269). -/
def execExchSend (port : LnkPort) (s : State) : Host.Outcome State Fault Refusal :=
  .next (s.when' port.part fun s => s.sendExch port.part port.idx)

/-- EXCHANGE_TIMEOUT (R267): back to TRAIN. -/
def execExchangeTimeout (port : LnkPort) (s : State) : Host.Outcome State Fault Refusal :=
  .next (s.when' port.part fun s =>
    if s.lnkSt port.part port.idx = 4 then s.toTrain port.part port.idx else s)

/-- LANE_FAIL (R271, R272, R273). -/
def execLaneFail (port : LnkPort) (lane : Fin 3) (s : State) : Host.Outcome State Fault Refusal :=
  .next (s.when' port.part fun s => s.failLane port.part port.idx lane.val)

/-- LANE_SWAP (R272). -/
def execLaneSwap (port : LnkPort) (tx : Bool) (s : State) : Host.Outcome State Fault Refusal :=
  .next (s.when' port.part fun s =>
    if s.lnkSt port.part port.idx = 5 then s.swapLane port.part port.idx tx else s)

/-- SPARE_RESTORE (R272): a lane that no logical lane uses, with FOM at MIN or above, becomes the spare. -/
def execSpareRestore (port : LnkPort) (tx : Bool) (lane : Fin 3) (fom : Byte) (s : State) :
    Host.Outcome State Fault Refusal :=
  .next (s.when' port.part fun s =>
    let p := port.part
    let i := port.idx
    let hi := if tx then 13 else 21
    let used := s.fldOf p (Reg.LNK_LANES i) hi (hi - 1) = lane.val
      || s.fldOf p (Reg.LNK_LANES i) (hi - 2) (hi - 3) = lane.val
    if used || s.fldOf p (Reg.LNK_LANES i) (hi - 4) (hi - 5) ≠ 3 || fom.toNat < s.fomMin p i then s
    else
      let s := s.wrFld p (Reg.LNK_LANES i) (hi - 4) (hi - 5) lane.val
      if tx then s else (s.wrBit p (Reg.LNK_LANES i) lane.val false).setFom p i lane.val fom.toNat)

/-- LNK_EQ_WEAK (R271): FOM below WARN for 100 ms raises LNK_EQ_WEAK and no more. -/
def execLnkEqWeak (port : LnkPort) (lane : Fin 3) (fom : Byte) (s : State) : Host.Outcome State Fault Refusal :=
  .next (s.when' port.part fun s =>
    let p := port.part
    let i := port.idx
    if s.lnkSt p i = 5 && fom.toNat < s.fldOf p (Reg.LNK_FOM_THR i) 15 8 then
      (s.setFom p i lane.val fom.toNat).raise p (Ev.LNK_EQ_WEAK p i)
    else s)

/-- LNK_SLEEP (R275): a receive swap in progress completes, RXD becomes SLEEP, and a tile's outbound follows. -/
def execLnkSleep (port : LnkPort) (s : State) : Host.Outcome State Fault Refusal :=
  .next (s.when' port.part fun s =>
    let p := port.part
    let i := port.idx
    if s.lnkSt p i = 5 && s.lnkRx p i = 1 then
      (((s.swapLane p i false).setRx p i 2).raise p (Ev.LNK_SLEEP p i)).followSleep p i
    else s)

/-- LNK_WAKE_START (R276). -/
def execLnkWakeStart (port : LnkPort) (tx : Bool) (s : State) : Host.Outcome State Fault Refusal :=
  .next (s.when' port.part fun s =>
    let p := port.part
    let i := port.idx
    if tx then s.txWake p i
    else if s.lnkSt p i = 5 && s.lnkRx p i = 2 then
      ((s.updPort p i fun q => { q with good := [0, 0, 0], bad := [0, 0, 0], aligned := false }).setRx p i 3).followWake p i
    else s)

/-- LNK_WAKE (R276): the direction is UP; a receive direction once its lanes have locked. -/
def execLnkWake (port : LnkPort) (tx : Bool) (s : State) : Host.Outcome State Fault Refusal :=
  .next (s.when' port.part fun s =>
    let p := port.part
    let i := port.idx
    if s.lnkSt p i ≠ 5 then s
    else if tx then (if s.lnkTx p i = 3 then ((s.setTx p i 1).raise p (Ev.LNK_WAKE p i)).settle p i else s)
    else if s.lnkRx p i = 3 && s.locked p i (s.port p i).aligned then (s.setRx p i 1).raise p (Ev.LNK_WAKE p i)
    else s)

/-- LNK_REF_LOST (R263, R294): the tile enters holdover; a sender B port's reference stops. -/
def execLnkRefLost (port : LnkPort) (s : State) : Host.Outcome State Fault Refusal :=
  .next (s.when' port.part fun s =>
    match port with
    | .chain k =>
      if s.letter = .b && s.bitOf .sender (Reg.LNK_STAT k.val) 20 then
        (s.wrBit .sender (Reg.LNK_STAT k.val) 20 false).raise .sender (Ev.LNK_REF_LOST .sender k.val)
      else s
    | .u =>
      if s.bitOf .tile Reg.LNK_REF 0 then
        let s := s.wr .tile Reg.LNK_REF 2
        let s := (s.wrBit .tile (Reg.LNK_STAT 0) 20 false).wrBit .tile (Reg.LNK_STAT 1) 20 false
        s.raise .tile (Ev.LNK_REF_LOST .tile 0)
      else s
    | .d => s)

/-- REF_RESTORED (R263): the tile leaves holdover; a sender B port has its reference back. -/
def execRefRestored (port : LnkPort) (s : State) : Host.Outcome State Fault Refusal :=
  .next (s.when' port.part fun s =>
    match port with
    | .chain k => if s.letter = .b then s.wrBit .sender (Reg.LNK_STAT k.val) 20 true else s
    | .u =>
      if s.bitOf .tile Reg.LNK_REF 1 then
        let s := s.wr .tile Reg.LNK_REF 1
        let s := (s.wrBit .tile (Reg.LNK_STAT 0) 20 true).wrBit .tile (Reg.LNK_STAT 1) 20 true
        s.raise .tile Ev.REF_RESTORED
      else s
    | .d => s)

/-- Packets whose arrival at either part is a command of its own. -/
def Pkt.anyCmd (k : Packet) : Bool :=
  let t := Pkt.type k
  let kd := Pkt.kind k
  t == tPIX || t == tSYNC || t == tABORT || t == tSIG || (t == tIDLE && fld (Pkt.w k 1) 31 24 == 1)
    || (t == tCMD && 1 ≤ kd && kd ≤ 5) || (t == tTIME && kd ≤ 2) || (t == tLOAN && kd ≤ 3) || (t == tUPD && kd ≤ 2)
    || (t == tDIGEST && kd ≤ 2)

/-- Packets whose arrival at a tile is a command of its own. -/
def Pkt.tileCmd (k : Packet) : Bool :=
  Pkt.anyCmd k && !Pkt.is k tLOAN 3 && !Pkt.is k tUPD 1 && !Pkt.is k tDIGEST 1

/-- Packets whose arrival at a sender is a command of its own. -/
def Pkt.senderCmd (k : Packet) : Bool :=
  Pkt.anyCmd k || Pkt.type k == tBEAT || (Pkt.type k == tTEL && 4 ≤ Pkt.kind k && Pkt.kind k ≤ 7)

/-- PACKET_FORWARD (R283, R284): a packet the tile does not consume goes on, stomped if its CRC fails; so does a broadcast
that does nothing else at a tile. One that the tile consumes without effect is counted if its CRC fails. -/
def execPacketForward (port : LnkPort) (pkt : Packet) (s : State) : Host.Outcome State Fault Refusal :=
  .next (match port.part with
    | .sender => s
    | .tile =>
      s.headerGate .tile port.idx pkt fun s =>
        if !s.consumes pkt || (Pkt.dest pkt = destAll && !Pkt.alwaysConsumed pkt && !Pkt.tileCmd pkt) then
          (s.fwd port.idx pkt).crcGate .tile port.idx pkt id
        else if Pkt.tileCmd pkt then s
        else (s.notFwd port.idx pkt false).crcGate .tile port.idx pkt id)

/-- LNK_DISCARD (R283, R284): a sender counts and discards a packet that is not for it; of one that it consumes without
effect a bad CRC is counted. -/
def execLnkDiscard (k : Fin 16) (pkt : Packet) (s : State) : Host.Outcome State Fault Refusal :=
  .next (s.headerGate .sender k.val pkt fun s =>
    if s.discards pkt then
      s.crcGate .sender k.val pkt fun s =>
        (s.bump .sender (Reg.LNK_PASSED k.val) 1).raise .sender (Ev.LNK_DISCARD k.val)
    else if Pkt.senderCmd pkt then s
    else s.crcGate .sender k.val pkt id)

/-- OWN_PACKET_SEND (R285). -/
def execOwnPacketSend (port : LnkPort) (level peak : Fin 129) (s : State) : Host.Outcome State Fault Refusal :=
  .next (match port.part with
    | .sender => s
    | .tile => s.when' .tile fun s => s.ownSend port.idx level.val peak.val)

end Sys2Proof.Machine
end

