-- ==== Sys2Proof/Machine/Time.lean ====
section
/-!
DEFINITION. Wall time, the servo, time along the chain, the frame schedule and the phase inputs (R142 to
R170), with the meaning of each command.
-/

namespace Sys2Proof.Machine

/-! ### Rounding that no rule states -/

/-- `n / d` where the spec does not state how an inexact value is rounded: the integer below or above. -/
def openDiv (site : Nat) (n : Int) (d : Nat) : Int :=
  let q := n / (d : Int)
  if n % (d : Int) = 0 then q else if Config.roundUp site q then q + 1 else q

/-! ### The count (R142) -/

/-- The modulus of a part's count, in units of 2⁻³² ns: 64 integer bits in the sender, 32 in the tile (R143). -/
def countMod : Part → Nat
  | .sender => 2 ^ 96
  | .tile => 2 ^ 64

/-- The count moved by a signed number of units of 2⁻³² ns. -/
def State.addCount (p : Part) (d : Int) (s : State) : State :=
  s.upd p fun c => { c with count := (((c.count : Int) + d) % (countMod p : Int)).toNat }

/-- What one TIMEC cycle adds: 2 ns × (1 + y × 2⁻³²) (R142). -/
def State.tickAmount (p : Part) (s : State) : Int := 2 * ((2 : Int) ^ 32 + (s.rd p Reg.TIME_RATE).toInt)

/-- What the tile's slew removes in one TIMEC cycle (R158). -/
def State.slewAmount (s : State) : Int :=
  if s.til.slewLeft = 0 then 0 else s.til.slew / (s.til.slewLeft : Int)

/-- The confirmation timer counts one TIMEC cycle; it does not run in the safe state (R464). -/
def State.confTick (p : Part) (s : State) : State :=
  if s.safe p then s
  else s.upd p fun c => { c with upd := { c.upd with confLeft := c.upd.confLeft.map fun n => n - 1 } }

/-- TIMEC runs: in the tile, once its U reference has been present (R484). -/
def State.timeRuns (p : Part) (s : State) : Bool :=
  match p with
  | .sender => true
  | .tile => s.til.refSeen

/-- `d` more CORE cycles (R101). -/
def State.addCycles (p : Part) (d : Nat) (s : State) : State := s.upd p fun c => { c with cycles := c.cycles + d }

/-- The tile's count and slew move by one TIMEC cycle (R142, R158). -/
def State.tileCycle (s : State) : State :=
  let d := s.slewAmount
  let s := s.addCount .tile (s.tickAmount .tile - d)
  { s with til := { s.til with slew := s.til.slew - d, slewLeft := s.til.slewLeft - 1 } }

/-- One TIMEC cycle of a part that runs (R142, R158, R464); the CORE clock makes 2 cycles in the sender and 1 in
the tile. While the tile's TIMEC is stopped it is one CORE cycle (R484). -/
def State.tick (p : Part) (s : State) : State :=
  if !s.alive p then s
  else if !s.timeRuns p then s.addCycles p 1
  else
    let s := s.confTick p
    match p with
    | .sender => (s.addCount .sender (s.tickAmount .sender)).addCycles .sender 2
    | .tile => s.tileCycle.addCycles .tile 1

/-- A wait for a wall time ends: the time is reached, and TIMEC has run (R83, R484). -/
def State.waitOver (p : Part) (w : Word) (s : State) : Bool := s.timeRuns p && s.reachedAt p w

/-! ### The frame schedule (R160 to R163) -/

/-- The values a schedule is computed from (R160). -/
structure Sched where
  per : Nat
  perf : Nat
  start : Word
  snum : Word
  deriving DecidableEq, Repr

/-- One period in units of 2⁻³² ns. -/
def Sched.period (c : Sched) : Nat := c.per * 2 ^ 32 + c.perf

/-- B_N as an offset from START, in ns, rounded halves upward (R160). -/
def Sched.offset (c : Sched) (n : Word) : Int :=
  ((n - c.snum).toInt * (c.period : Int) + 2 ^ 31) / 2 ^ 32

/-- The schedule base B_N, a wall time (R160). -/
def Sched.base (c : Sched) (n : Word) : Word := c.start + wdi (c.offset n)

/-- The active schedule of a part. -/
def State.sched (p : Part) (s : State) : Sched :=
  { per := (s.rd p Reg.TIME_FRM_PER).toNat, perf := (s.rd p Reg.TIME_FRM_PERF).toNat,
    start := s.rd p Reg.TIME_FRM_START, snum := s.rd p Reg.TIME_FRM_SNUM }

/-- B_N of a part. -/
def State.baseOf (p : Part) (n : Word) (s : State) : Word := (s.sched p).base n

/-- The frame origin O_N of a part (R160). -/
def State.originOf (p : Part) (n : Word) (s : State) : Word := s.baseOf p n + s.rd p (Reg.TIME_SLOT_CUR 0)

/-- latch_N of the sender: B_N − `CHN_RAS_LEAD` (R245). -/
def State.senderLatch (n : Word) (s : State) : Word := s.baseOf .sender n - s.rd .sender Reg.CHN_RAS_LEAD

/-- How many ns after now the time `f` of frame N lies, a time that follows the schedule. It is measured from the next
latch point along the schedule, so that it does not wrap however far ahead the frame is (R49, R160). -/
def State.distTo (p : Part) (f : Word → Word) (n : Word) (s : State) : Int :=
  let c := s.sched p
  let now := s.wall p
  let r := (s.chip p).nextLatch
  let d := timeDiff (f r) now + (c.offset n - c.offset r)
  d + timeDiff (f n) (now + wdi d)

/-- The current frame number (R49, R161). -/
def State.frameNum (p : Part) (s : State) : Word := s.rd p Reg.TIME_FRM_NUM

/-! ### The servo (R149 to R152) -/

/-- A pending commit names TIME with RUN at 1 (R151). -/
def State.runPending (s : State) : Bool :=
  match s.sender.commit with
  | none => false
  | some c => bit c.mask 1 && bit (s.shadow .sender Reg.TIME_FRM_CTRL) 31

/-- The sender may step its count (R151). -/
def State.stepAllowed (s : State) : Bool :=
  s.bitOf .sender Reg.TIME_CTRL 12 && !s.schedOn .sender && !s.runPending

/-- The servo's product of a gain in 16.8 fixed point and a sample (R150). -/
def servoMul (raw : Nat) (e : Int) : Int := asr ((raw : Int) * e + 128) 8

/-- The state of the servo or of the tile's time (R152, R158). -/
def State.timeState (p : Part) (s : State) : Nat := s.fldOf p Reg.TIME_STAT 2 0

/-- The state set, and the event a change raises (R152, R170). -/
def State.setTimeState (p : Part) (v : Nat) (s : State) : State × List (Nat × Word) :=
  if s.timeState p = v then (s, [])
  else (s.wrFld p Reg.TIME_STAT 2 0 v, [(Ev.TIME_STATE, 0)])

/-- I_k and y_k of R150 for a sample. -/
def State.servoLoop (e : Int) (s : State) : State :=
  let rmax : Int := (s.fldOf .sender Reg.TIME_RATE_MAX 23 0 : Nat)
  let i := clampI ((s.rd .sender Reg.TIME_INTEG).toInt + servoMul (s.fldOf .sender Reg.TIME_KI 23 0) e) (-rmax) rmax
  let y := clampI (-(servoMul (s.fldOf .sender Reg.TIME_KP 23 0) e + i)) (-rmax) rmax
  (s.wr .sender Reg.TIME_INTEG (wdi i)).wr .sender Reg.TIME_RATE (wdi y)

/-- Where the servo stands after a sample, and how many samples in a row lie within `TIME_LOCK_THR` (R152). -/
def servoNext (st run : Nat) (thr : Nat) (e : Nat) : Nat × Nat :=
  let near := decide (e ≤ thr)
  if st = 1 then
    let r := if near then run + 1 else 0
    if 16 ≤ r then (2, r) else (1, r)
  else if st = 2 then (if 4 * thr < e then (1, 0) else (2, run))
  else (1, if near then 1 else 0)

/-- The servo takes a sample, with other events of the same cycle (R149 to R152). -/
def State.servoSample (e : Int) (more : List (Nat × Word)) (s : State) : State :=
  let big := (s.rd .sender Reg.TIME_STEP_THR).toNat < e.natAbs
  let step := big && s.stepAllowed
  let s := if step then s.addCount .sender (-(e * 2 ^ 32)) else s
  let s := s.servoLoop (if step then 0 else e)
  let s := s.wr .sender Reg.TIME_LAST_OFS (wdi e)
  let (st, run) := servoNext (s.timeState .sender) s.snd.lockRun (s.rd .sender Reg.TIME_LOCK_THR).toNat e.natAbs
  let s := s.updSnd fun t => { t with lockRun := run, sampleAt := s.elapsed .sender }
  let (s, ev) := s.setTimeState .sender st
  let ev := if step then ev ++ [(Ev.TIME_STEP, 0)] else if big then ev ++ [(Ev.TIME_STEP_BLOCKED, 0)] else ev
  s.raiseAll .sender (ev ++ more)

/-- The servo enters HOLDOVER: y = −I, frozen (R152). -/
def State.holdover (s : State) : State × List (Nat × Word) :=
  let s := s.wr .sender Reg.TIME_RATE (-(s.rd .sender Reg.TIME_INTEG))
  ({ s with snd := { s.snd with lockRun := 0 } }).setTimeState .sender 3

/-- A write of `TIME_CTRL` (R149, R152, R154): a change of SRC moves LOCKED to ACQUIRE; SRC 3 leads ACQUIRE and
LOCKED to HOLDOVER at once. A link source that has sent nothing yet is not silent (R170). -/
def State.timeCtrlWrite (v : Word) (s : State) : State :=
  let old := s.fldOf .sender Reg.TIME_CTRL 1 0
  let moved := fld (s.rd .sender Reg.TIME_CTRL) 11 8 ≠ fld v 11 8
  let s := s.wr .sender Reg.TIME_CTRL (v &&& 0x1F13)
  let src := fld v 1 0
  let s := if src ≠ old || moved then s.updSnd fun t => { t with linkAt := none } else s
  if src = old then s
  else
    let st := s.timeState .sender
    let (s, ev) :=
      if src = 3 && (st = 1 || st = 2) then s.holdover
      else if st = 2 then ({ s with snd := { s.snd with lockRun := 0 } }).setTimeState .sender 1
      else (s, [])
    s.raiseAll .sender ev

/-- A write of `TIME_INTEG` acts in FREE and HOLDOVER only, where y = −I (R152, R169). -/
def State.timeIntegWrite (v : Word) (s : State) : State :=
  let st := s.timeState .sender
  if st = 0 || st = 3 then (s.wr .sender Reg.TIME_INTEG v).wr .sender Reg.TIME_RATE (-v) else s

/-- A write of `TIME_SRV_OFS` is a sample while SRC is 0 (R149). -/
def State.srvOfsWrite (v : Word) (s : State) : State :=
  if s.fldOf .sender Reg.TIME_CTRL 1 0 = 0 then s.servoSample v.toInt [] else s

/-- A write of `TIME_SET_LO` sets the 64-bit count if a step is allowed (R151); the fraction is kept. -/
def State.timeSetLo (lo : Word) (s : State) : State :=
  if s.stepAllowed then
    s.upd .sender fun c =>
      { c with count := (s.snd.setHi.toNat * 2 ^ 32 + lo.toNat) * 2 ^ 32 + c.count % 2 ^ 32 }
  else s.raise .sender Ev.TIME_STEP_BLOCKED

/-- `TIME_TXINT` takes 10 to 1,000; any other write is discarded (R169). -/
def State.txintWrite (p : Part) (v : Word) (s : State) : State :=
  if 10 ≤ v.toNat && v.toNat ≤ 1000 then s.wr p Reg.TIME_TXINT v else s

/-- A read of `TIME_NOW_LO` latches the upper count and the fraction, and returns the wall time (R145). -/
def State.readNowLo (p : Part) (s : State) : Word × State :=
  let c := (s.chip p).count
  let hi := match p with
    | .sender => wd (c / ns / 2 ^ 32)
    | .tile => 0
  (s.wall p, (s.wr p Reg.TIME_NOW_HI hi).wr p Reg.TIME_NOW_FRAC (wd (c % ns / 2 ^ 16 * 2 ^ 16)))

/-! ### Transmit time stamps (R147) -/

/-- TXQ_READY of a NET port follows its queue (R170, R411). -/
def State.txqLevel (i : Nat) (s : State) : State :=
  s.setLevel .sender (Ev.TXQ_READY i) (!(s.snd.txStamps.getD i []).isEmpty)

/-- A stamp enters a port's queue of 64, or is dropped (R147). -/
def State.txqPush (i : Nat) (stamp tsid : Word) (s : State) : State :=
  let q := s.snd.txStamps.getD i []
  if 64 ≤ q.length then (s.bump .sender (Reg.TIME_TXQ_DROP i) 1).raise .sender (Ev.TXQ_OVF i)
  else ({ s with snd := { s.snd with txStamps := s.snd.txStamps.set i (q ++ [(stamp, tsid)]) } }).txqLevel i

/-- The head of a port's queue is removed; a pop of an empty queue is ignored (R147). -/
def State.txqPop (i : Nat) (s : State) : State :=
  let q := s.snd.txStamps.getD i []
  if q.isEmpty then s
  else ({ s with snd := { s.snd with txStamps := s.snd.txStamps.set i (q.drop 1) } }).txqLevel i

/-! ### TIME packets (R155 to R158) -/

/-- A TIME packet (R156, R279). -/
def timePacket (src : Nat) (tx y : Word) (l : Letter) (free : Bool) : Packet :=
  mkPacket tTIME destAll 0 src 0 [tx, y, wd (letterBit l * 2 ^ 31 + free.toNat * 2 ^ 30)]

/-- An IDLE or TIME packet of a port: in EXCHANGE it goes out at once, in ACTIVE as traffic (R155, R285). -/
def State.sendHop (p : Part) (i : Nat) (pkt : Packet) (s : State) : State :=
  match p with
  | .sender => if s.lnkSt p i = 4 || s.txActive p i then s.emit (.packet (portOf p i) pkt) else s
  | .tile => if s.lnkSt p i = 4 then s.emit (.packet (portOf p i) pkt) else s.ownPush i pkt

/-- t_rx − (TX_TIME + TIME_HOP) in units of 2⁻³² ÷ 1,000 ns, as a signed difference of wall times (R157, R158). -/
def State.timeError (p : Part) (i : Nat) (tx : Word) (s : State) : Int :=
  let d := BitVec.ofNat 64 ((s.chip p).count % 2 ^ 64) - BitVec.ofNat 64 (tx.toNat * 2 ^ 32)
  1000 * d.toInt - (s.fldOf p (Reg.TIME_HOP i) 23 0 : Nat) * 2 ^ 32

/-- Where the tile's time stands after a packet (R158); `e` in units of 2⁻³² ÷ 1,000 ns. -/
def tileTimeNext (st run : Nat) (e : Nat) : Nat × Nat :=
  let u := 1000 * 2 ^ 32
  if st = 1 then (if 8 * u < e then (0, 0) else (1, run))
  else
    let r := if e ≤ 2 * u then (if st = 2 then 1 else run + 1) else 0
    if 8 ≤ r then (1, r) else (0, r)

/-- The tile takes a TIME packet of its source (R158). -/
def State.tileTake (i : Nat) (pkt : Packet) (s : State) : State :=
  let e := s.timeError .tile i (Pkt.w pkt 2)
  let u : Int := 1000 * 2 ^ 32
  let big := ((s.rd .tile Reg.TIME_STEP_THR).toNat : Int) * u < e.natAbs
  let s := s.wr .tile Reg.TIME_LAST_OFS (wdi (openDiv 1 e (1000 * 2 ^ 32)))
  let d := openDiv 2 e 1000
  let s :=
    if big then s.addCount .tile (-d)
    else { s with til := { s.til with slew := d / 2, slewLeft := 500 * (s.rd .tile Reg.TIME_TXINT).toNat } }
  let s := s.wr .tile Reg.TIME_RATE (Pkt.w pkt 3)
  let (st, run) := tileTimeNext (s.timeState .tile) s.til.timeRun e.natAbs
  let s := { s with til := { s.til with timeRun := run, timeTaken := true, timeAt := s.elapsed .tile } }
  let (s, ev) := s.setTimeState .tile st
  s.raiseAll .tile (if big then ev ++ [(Ev.TIME_STEP, 0)] else ev)

/-- TIME of the tile's own, onward in the same direction (R156). -/
def State.timeOnward (i : Nat) (pkt : Packet) (s : State) : State :=
  s.sendHop .tile (otherPort i)
    (timePacket (s.srcOf .tile) (s.wall .tile) (Pkt.w pkt 3) (letterOf (Pkt.w pkt 4)) (s.timeState .tile == 0))

/-- The mean of a port's hop delays in picoseconds; results are in units of 31.25 ps (R155). -/
def hopMean (l : List Nat) : Int :=
  if l.isEmpty then 0 else openDiv 3 ((l.foldl (· + ·) 0 * 3125 : Nat) : Int) (100 * l.length)

/-- An ECHO of the probe under way gives a result (R155). -/
def State.hopResult (p : Part) (i : Nat) (d : Nat) (s : State) : State :=
  let old := (s.port p i).hops
  let new := (d :: old).take 16
  let m0 := s.fldOf p (Reg.TIME_HOP i) 23 0
  let m1 := (hopMean new).toNat
  let s := s.updPort p i fun q => { q with hops := new, hopN := q.hopN + 1, probe := none }
  let s := s.wrFld p (Reg.TIME_HOP i) 23 0 m1
  let s := if !old.isEmpty && 500 < ((m1 : Int) - m0).natAbs then s.raise p Ev.HOP_CHANGE else s
  s.exchDone p i

/-! ### Phase inputs (R164 to R168) -/

/-- The lowest current offset a slot may take: 165,000 ns − `CHN_RAS_LEAD` (R165). -/
def State.slotFloor (s : State) : Int := 165000 - ((s.rd .sender Reg.CHN_RAS_LEAD).toNat : Int)

/-- `TIME_SLOT_CUR[s]` as a signed number (R165). -/
def State.slotCur (p : Part) (k : Nat) (s : State) : Int := (s.rd p (Reg.TIME_SLOT_CUR k)).toInt

/-- `TIME_SLOT_LEN[s]`. -/
def State.slotLen (p : Part) (k : Nat) (s : State) : Int := (s.fldOf p (Reg.TIME_SLOT_LEN k) 25 0 : Nat)

/-- The least offset slot k may take against its neighbours (R165, R163). -/
def State.slotLo (k : Nat) (s : State) : Int :=
  let n := s.slots .sender
  let per : Int := (s.rd .sender Reg.TIME_FRM_PER).toNat
  let a :=
    if 0 < k then s.slotCur .sender (k - 1) + s.slotLen .sender (k - 1)
    else if n ≤ 1 then s.slotFloor
    else s.slotCur .sender (n - 1) + s.slotLen .sender (n - 1) - per
  max s.slotFloor a

/-- The greatest offset slot k may take against its neighbours; none for a slot that is alone. -/
def State.slotHi (k : Nat) (s : State) : Option Int :=
  let n := s.slots .sender
  let per : Int := (s.rd .sender Reg.TIME_FRM_PER).toNat
  if k + 1 < n then some (s.slotCur .sender (k + 1) - s.slotLen .sender k)
  else if 0 < k then some (per + s.slotCur .sender 0 - s.slotLen .sender k)
  else none

/-- Slot k moves by `d`, only as far as its limits; the flag tells that a limit held it (R165). -/
def State.moveSlot (k : Nat) (d : Int) (s : State) : State × Bool :=
  let cur := s.slotCur .sender k
  let want := cur + d
  let up := match s.slotHi k with
    | none => want
    | some h => if 0 < d ∧ h < want then max cur h else want
  let dn := if up < s.slotLo k ∧ d < 0 then min cur (s.slotLo k) else up
  (s.wr .sender (Reg.TIME_SLOT_CUR k) (wdi dn), decide (dn ≠ want))

/-- The frame of the sender's schedule whose base is nearest a wall time, which lies within 2³¹ ns of the base of the frame
whose latch point comes next (R165). -/
def State.nearestFrame (t : Word) (s : State) : Word :=
  let c := s.sched .sender
  let r := s.sender.nextLatch
  let k := r + wdi ((2 * timeDiff t (c.base r) * 2 ^ 32 + (c.period : Int)) / (2 * (c.period : Int)))
  let d := fun (n : Word) => (timeDiff t (c.base n)).natAbs
  let k := if d (k - 1) < d k then k - 1 else k
  if d (k + 1) < d k then k + 1 else k

/-- Slot k below the slot count is locked to input j (R165). -/
def State.lockedTo (j k : Nat) (s : State) : Bool :=
  k < s.slots .sender && s.bitOf .sender (Reg.TIME_SLOT_OFS k) 31 &&
  s.fldOf .sender (Reg.TIME_SLOT_OFS k) 30 29 == j

/-- The phase detector of slot k for an accepted edge: the error of R165, and the slot moved unless the sender
takes its offsets from the cross-link (R168). -/
def State.phaseSlot (j k : Nat) (edge : Word) (s : State) : State × Int × List (Nat × Word) :=
  let t := edge + s.rd .sender (Reg.TIME_PH_DLY j)
  let n := s.nearestFrame t
  let e := (t - (s.baseOf .sender n + s.rd .sender (Reg.TIME_SLOT_CUR k))).toInt
  let s := s.wr .sender (Reg.TIME_PH_ERR j) (wdi e)
  if s.fldOf .sender Reg.TIME_CTRL 1 0 = 2 then (s, e, [])
  else
    let sl : Int := (s.fldOf .sender (Reg.TIME_PH_CFG j) 15 0 : Nat)
    let (s, held) := s.moveSlot k (clampI e (-sl) sl)
    (s, e, if held then [(Ev.SLOT_LIMIT k, 0)] else [])

/-- The detectors of all slots locked to an input, with the largest |e|, if there is one. -/
def phaseSlots (j : Nat) (edge : Word) : List Nat → State → State × Option Nat × List (Nat × Word)
  | [], s => (s, none, [])
  | k :: ks, s =>
    if s.lockedTo j k then
      let (s, e, ev) := s.phaseSlot j k edge
      let (s, m, ev') := phaseSlots j edge ks s
      (s, some (max e.natAbs (m.getD 0)), ev ++ ev')
    else phaseSlots j edge ks s

/-- The state of a phase input (R166). -/
def State.phState (j : Nat) (s : State) : Nat := s.fldOf .sender (Reg.TIME_PH_STAT j) 1 0

/-- The state of a phase input set, and the event a change raises. -/
def State.setPhState (j v : Nat) (s : State) : State × List (Nat × Word) :=
  if s.phState j = v then (s, [])
  else (s.wrFld .sender (Reg.TIME_PH_STAT j) 1 0 v, [(Ev.PHASE_STATE j, 0)])

/-- Where a phase input stands after an edge with error `e`, and the edges in a row within 500 ns (R166). -/
def phaseNext (st run : Nat) (e : Option Nat) : Nat × Nat :=
  match st, e with
  | 0, _ => (0, 0)
  | 3, none => (1, 0)
  | 3, some e => (1, if e ≤ 500 then 1 else 0)
  | 2, some e => if 2000 < e then (1, 0) else (2, 0)
  | 2, none => (2, 0)
  | _, none => (1, run)
  | _, some e =>
    let r := if e ≤ 500 then run + 1 else 0
    if 16 ≤ r then (2, 0) else (1, r)

/-- An edge comes less than half a frame period × DIV after the previous accepted one (R165). -/
def State.tooEarly (j : Nat) (edge : Word) (s : State) : Bool :=
  s.snd.phSeen.getD j false &&
  2 * (edge - s.rd .sender (Reg.TIME_PH_CAP j)).toNat * 2 ^ 32 <
    (s.sched .sender).period * s.fldOf .sender (Reg.TIME_PH_CFG j) 19 16

/-- The window of slot k from its start on lies inside input j's camera window (R167). -/
def State.inCamera (j k : Nat) (start : Word) (s : State) : Bool :=
  let opn := s.rd .sender (Reg.TIME_PH_CAP j) + s.rd .sender (Reg.TIME_CAM_OPEN j)
  let d := timeDiff start opn
  0 ≤ d && d + s.slotLen .sender k ≤ ((s.rd .sender (Reg.TIME_CAM_LEN j)).toNat : Int)

/-- The camera window check of slot k in a frame, where the slot is locked: by the latest edge of its input (R167). -/
def State.windowCheck (k : Nat) (start : Word) (s : State) : State × List (Nat × Word) :=
  let j := s.fldOf .sender (Reg.TIME_SLOT_OFS k) 30 29
  if s.lockedTo j k then
    let ok := s.inCamera j k start
    let was := s.bitOf .sender (Reg.TIME_PH_STAT j) 4
    (s.wrBit .sender (Reg.TIME_PH_STAT j) 4 ok, if was && !ok then [(Ev.PHASE_WINDOW j, 0)] else [])
  else (s, [])

/-- The checks of the slots of a list that have started, in the order of the list. -/
def windowChecks : List (Nat × Word) → State → State × List (Nat × Word)
  | [], s => (s, [])
  | (k, t) :: l, s => evThen (s.windowCheck k t) (windowChecks l)

/-- The camera window checks that have fallen due are made: of the slots that have started, or with `strict` before this
cycle (R167). DESIGN CHOICE: the window of a slot is held to the latest edge at the slot's start; no command stands for
that moment, so the check is made with the next frame origin or the next edge, whichever comes first. -/
def State.windowsDue (strict : Bool) (s : State) : State × List (Nat × Word) :=
  let now := s.wall .sender
  let due := fun (e : Nat × Word) => if strict then timeDiff e.2 now < 0 else reached e.2 now
  let l := s.snd.winDue.filter due
  windowChecks l (s.updSnd fun t => { t with winDue := t.winDue.filter fun e => !due e })

/-- Slots below the slot count become due for their check, at the starts of frame N: those its latch point has fixed, or
the current ones (R165, R249). -/
def State.windowsPlan (n b : Word) (s : State) : State :=
  let ofs := (AMap.find s.snd.plans n.toNat).getD ((List.range 8).map fun k => s.rd .sender (Reg.TIME_SLOT_CUR k))
  s.updSnd fun t =>
    { t with winDue := t.winDue ++ (List.range (s.slots .sender)).map fun k => (k, b + ofs.getD k 0),
             plans := AMap.del t.plans n.toNat }

/-- A rising edge on a phase input (R165, R166, R168). -/
def State.phaseEdge (j : Nat) (s : State) : State :=
  let edge := s.wall .sender
  if s.tooEarly j edge then s
  else
    let (s, win) := s.windowsDue true
    let s := s.wr .sender (Reg.TIME_PH_CAP j) edge
    let s := s.updSnd fun t =>
      { t with phSeen := t.phSeen.set j true, phAt := t.phAt.set j (s.elapsed .sender) }
    if !s.bitOf .sender (Reg.TIME_PH_CFG j) 31 then s.raiseAll .sender win
    else
      let (s, m, lim) := if s.schedOn .sender then phaseSlots j edge (List.range 8) s else (s, none, [])
      let (st, run) := phaseNext (s.phState j) (s.snd.phRun.getD j 0) m
      let s := { s with snd := { s.snd with phRun := s.snd.phRun.set j run } }
      let (s, ev) := s.setPhState j st
      s.raiseAll .sender (win ++ ev ++ lim)

/-! ### The meanings -/

/-- TIME_NOW_READ (R145). -/
def execTimeNowRead (p : Part) (s : State) : Host.Outcome State Fault Refusal :=
  .next (s.when' p fun s => (s.readNowLo p).2)

/-- TIME_SRV_OFS_WRITE (R149). -/
def execTimeSrvOfsWrite (v : Word) (s : State) : Host.Outcome State Fault Refusal :=
  .next (s.when' .sender (State.srvOfsWrite v))

/-- TIME_SET (R151). -/
def execTimeSet (lo : Word) (s : State) : Host.Outcome State Fault Refusal :=
  .next (s.when' .sender (State.timeSetLo lo))

/-- TIME_SRC_CHANGE (R152): SRC is written, every other field of `TIME_CTRL` kept. -/
def execTimeSrcChange (src : BitVec 2) (s : State) : Host.Outcome State Fault Refusal :=
  .next (s.when' .sender fun s => s.timeCtrlWrite (putFld (s.rd .sender Reg.TIME_CTRL) 1 0 src.toNat))

/-- TIME_TXQ_POP (R147). -/
def execTimeTxqPop (i : Fin 4) (s : State) : Host.Outcome State Fault Refusal :=
  .next (s.when' .sender (State.txqPop i.val))

/-- PPS_EDGE (R153). -/
def execPpsEdge (s : State) : Host.Outcome State Fault Refusal :=
  .next (s.when' .sender fun s =>
    let cap := s.wall .sender
    let s := s.wr .sender Reg.TIME_PPS_CAP cap
    if s.fldOf .sender Reg.TIME_CTRL 1 0 ≠ 1 then s.raise .sender Ev.PPS_EDGE
    else
      let exp := s.rd .sender Reg.TIME_PPS_EXP
      if (cap - exp).toInt.natAbs ≤ (s.rd .sender Reg.TIME_PPS_WIN).toNat then
        let e := (cap - s.rd .sender Reg.TIME_PPS_DLY - exp).toInt
        (s.wr .sender Reg.TIME_PPS_EXP (exp + wd 1000000000)).servoSample e [(Ev.PPS_EDGE, 0)]
      else s.raiseAll .sender [(Ev.PPS_EDGE, 0), (Ev.PPS_OUTLIER, 0)])

/-- PPS_MISSING (R153). -/
def execPpsMissing (s : State) : Host.Outcome State Fault Refusal :=
  .next (s.when' .sender fun s =>
    let exp := s.rd .sender Reg.TIME_PPS_EXP
    if s.fldOf .sender Reg.TIME_CTRL 1 0 = 1 && s.reachedAt .sender (exp + s.rd .sender Reg.TIME_PPS_WIN) then
      (s.wr .sender Reg.TIME_PPS_EXP (exp + wd 1000000000)).raise .sender Ev.PPS_MISSING
    else s)

/-- SERVO_HOLDOVER (R152): no sample has come for `TIME_HOLD_TO` ms. -/
def execServoHoldover (s : State) : Host.Outcome State Fault Refusal :=
  .next (s.when' .sender fun s =>
    if (s.timeState .sender = 1 || s.timeState .sender = 2) &&
        s.timedOut .sender s.snd.sampleAt ((s.rd .sender Reg.TIME_HOLD_TO).toNat * 1000000) then
      let (s, ev) := s.holdover
      s.raiseAll .sender ev
    else s)

/-- REF_LOST (R154). -/
def execRefLost (s : State) : Host.Outcome State Fault Refusal :=
  .next (s.when' .sender fun s =>
    if s.bitOf .sender Reg.TIME_STAT 4 then (s.wrBit .sender Reg.TIME_STAT 4 false).raise .sender Ev.REF_LOST
    else s)

/-- REF_RESUME (R154). -/
def execRefResume (s : State) : Host.Outcome State Fault Refusal :=
  .next (s.when' .sender fun s => s.wrBit .sender Reg.TIME_STAT 4 true)

/-- The rate word that the sender sends: y, with the mean frequency offset of the down-spread of 0 to −0.25 % that sender A
applies to the reference (R156, R159, R262). DEDUCED: a tile counts on the spread reference, so its y must be the greater
by the 0.125 % that the reference is slower on average. -/
def State.rateWord (s : State) : Word :=
  let y := s.rd .sender Reg.TIME_RATE
  if s.bitOf .sender Reg.LNK_SSC 31 && s.letter == .a then y + wdi (openDiv 7 (125 * 2 ^ 32) 100000) else y

/-- TIME_TX (R156): TIME goes out of every ACTIVE chain port. -/
def execTimeTx (s : State) : Host.Outcome State Fault Refusal :=
  .next (s.when' .sender fun s =>
    (List.range 16).foldl (fun s k =>
      s.sendChain k (timePacket 0x7E (s.wall .sender) s.rateWord s.letter
        (s.timeState .sender == 0))) s)

/-- TIME_RX_TILE (R156, R158): every TIME goes onward as the tile's own; one from the source moves its time. -/
def execTimeRxTile (port : LnkPort) (pkt : Packet) (s : State) : Host.Outcome State Fault Refusal :=
  .next (match port.part with
    | .sender => s
    | .tile =>
      s.arriveTile port.idx pkt (Pkt.is pkt tTIME 0) fun s =>
        let l := letterOf (Pkt.w pkt 4)
        let s := if l = s.followed && portToward l = port.idx then s.tileTake port.idx pkt else s
        s.timeOnward port.idx pkt)

/-- TIME_RX_SENDER (R157). -/
def execTimeRxSender (k : Fin 16) (pkt : Packet) (s : State) : Host.Outcome State Fault Refusal :=
  .next (s.arriveSender k.val pkt (Pkt.is pkt tTIME 0) fun s =>
    if s.fldOf .sender Reg.TIME_CTRL 1 0 = 2 && s.fldOf .sender Reg.TIME_CTRL 11 8 = k.val then
      let s := s.updSnd fun t => { t with linkAt := some (s.elapsed .sender) }
      if bit (Pkt.w pkt 4) 30 then s
      else s.servoSample (openDiv 4 (s.timeError .sender k.val (Pkt.w pkt 2)) (1000 * 2 ^ 32)) []
    else s)

/-- The time without a packet after which a source is lost: 4 × `TIME_TXINT` (R158, R170). -/
def State.srcTimeout (p : Part) (s : State) : Nat := 4 * (s.rd p Reg.TIME_TXINT).toNat * 1000

/-- The tile's source has been silent: HOLD (R158). -/
def State.tileSrcLost (s : State) : State :=
  if s.til.timeTaken && s.timeState .tile ≠ 2 && s.timedOut .tile s.til.timeAt (s.srcTimeout .tile) then
    let s := { s with til := { s.til with timeRun := 0 } }
    let (s, ev) := s.setTimeState .tile 2
    s.raiseAll .tile (ev ++ [(Ev.TIME_SRC_LOST, 0)])
  else s

/-- The link source of a sender with SRC = 2 has been silent since its last packet, which is reported once (R170). -/
def State.linkSrcLost (s : State) : State :=
  match s.snd.linkAt with
  | none => s
  | some t =>
    if s.fldOf .sender Reg.TIME_CTRL 1 0 = 2 && s.timedOut .sender t (s.srcTimeout .sender) then
      (s.updSnd fun t => { t with linkAt := none }).raise .sender Ev.TIME_SRC_LOST
    else s

/-- TIME_SRC_LOST (R158, R170): in each part whose source has been silent. -/
def execTimeSrcLost (s : State) : Host.Outcome State Fault Refusal :=
  .next ((s.when' .tile State.tileSrcLost).when' .sender State.linkSrcLost)

/-- PROBE_SEND (R155). -/
def execProbeSend (port : LnkPort) (id : Word) (t1 : BitVec 64) (s : State) :
    Host.Outcome State Fault Refusal :=
  .next (s.when' port.part fun s =>
    let p := port.part
    let i := port.idx
    if s.lnkSt p i = 4 || s.txActive p i then
      let s := s.updPort p i fun q => { q with probe := some (id, t1.toNat) }
      s.sendHop p i (mkPacket tTIME destAll 0 (s.srcOf p) (wd (2 ^ 28)) [id])
    else s)

/-- PROBE (R155): the ECHO carries the turnaround time. -/
def execProbe (port : LnkPort) (pkt : Packet) (turn : Word) (s : State) : Host.Outcome State Fault Refusal :=
  .next (s.arrive port pkt (Pkt.is pkt tTIME 1) fun s =>
    s.sendHop port.part port.idx
      (mkPacket tTIME destAll 0 (s.srcOf port.part) (wd (2 * 2 ^ 28)) [Pkt.w pkt 2, turn]))

/-- ECHO (R155): (t4 − t1) − (t3 − t2) is twice the hop delay. -/
def execEcho (port : LnkPort) (pkt : Packet) (t4 : BitVec 64) (s : State) : Host.Outcome State Fault Refusal :=
  .next (s.arrive port pkt (Pkt.is pkt tTIME 2) fun s =>
    match (s.port port.part port.idx).probe with
    | none => s
    | some (id, t1) =>
      if id = Pkt.w pkt 2 then
        s.hopResult port.part port.idx (t4.toNat - t1 - (Pkt.w pkt 3).toNat)
      else s)

/-- PHASE_EDGE (R165, R166). -/
def execPhaseEdge (j : Fin 4) (s : State) : Host.Outcome State Fault Refusal :=
  .next (s.when' .sender (State.phaseEdge j.val))

/-- No edge of a phase input has come for 2 × DIV frame periods (R166). -/
def State.phaseSilent (j : Nat) (s : State) : Bool :=
  2 * s.fldOf .sender (Reg.TIME_PH_CFG j) 19 16 * (s.sched .sender).period ≤
    (s.elapsed .sender - s.snd.phAt.getD j 0) * 2 ^ 32

/-- PHASE_LOST (R166). -/
def execPhaseLost (j : Fin 4) (s : State) : Host.Outcome State Fault Refusal :=
  .next (s.when' .sender fun s =>
    let st := s.phState j.val
    if (st = 1 || st = 2) && s.phaseSilent j.val then
      let s := { s with snd := { s.snd with phRun := s.snd.phRun.set j.val 0 } }
      let (s, ev) := s.setPhState j.val 3
      s.raiseAll .sender ev
    else s)

/-- The schedule base and origin of frame N: those its latch point has fixed, or the active schedule's (R160, R249). -/
def State.originPair (p : Part) (n : Word) (s : State) : Word × Word :=
  (AMap.find (s.chip p).origins n.toNat).getD (s.baseOf p n, s.originOf p n)

/-- FRAME_ORIGIN (R160, R167): when O_N is reached, `TIME_FRM_NUM` becomes N. -/
def execFrameOrigin (p : Part) (s : State) : Host.Outcome State Fault Refusal :=
  .next (s.when' p fun s =>
    let n := (s.chip p).nextOrigin
    let (b, o) := s.originPair p n
    if s.schedOn p && s.reachedAt p o then
      let s := (s.wr p Reg.TIME_FRM_NUM n).wr p Reg.TIME_FRM_ORIGIN o
      let s := s.upd p fun c => { c with nextOrigin := n + 1, origins := AMap.del c.origins n.toNat }
      match p with
      | .sender =>
        let x := evThen (s.windowsDue false) fun s => (s.windowsPlan n b).windowsDue false
        x.1.raiseAll p ((Ev.FRAME_ORIGIN, 0) :: x.2)
      | .tile => s.raise p Ev.FRAME_ORIGIN
    else s)

/-- The current offsets that a SYNC's START times name, for slots from k on (R168). -/
def syncOffsets (b : Word) (pkt : Packet) : Nat → Nat → State → State
  | 0, _, s => s
  | f + 1, k, s =>
    syncOffsets b pkt f (k + 1) (s.wr .sender (Reg.TIME_SLOT_CUR k) (Pkt.w pkt (4 + 2 * k) - b))

/-- CROSS_LINK_SYNC (R168). -/
def execCrossLinkSync (k : Fin 16) (pkt : Packet) (s : State) : Host.Outcome State Fault Refusal :=
  .next (s.arriveSender k.val pkt (Pkt.type pkt == tSYNC) fun s =>
    if s.fldOf .sender Reg.TIME_CTRL 1 0 = 2 && s.fldOf .sender Reg.TIME_CTRL 11 8 = k.val then
      syncOffsets (s.baseOf .sender (Pkt.w pkt 2)) pkt (Pkt.kind pkt) 0 s
    else s)

end Sys2Proof.Machine
end

