-- ==== Sys2Proof/Machine/Loans.lean ====
section
/-!
DEFINITION. Loans, heartbeats and stocktake (R295 to R317): the tile's loan record, the sender's part, and
the meaning of each command.
-/

namespace Sys2Proof.Machine

/-! ### LOAN packets (R295, R279) -/

/-- The K word of a LOAN packet: LETTER, chain port, FIRST and LAST. -/
def loanK (l : Letter) (port first last : Nat) : Word :=
  wd (letterBit l * 2 ^ 31 + port * 2 ^ 24 + first * 2 ^ 8 + last)

/-- FIRST of a LOAN packet. -/
def loanFirst (k : Packet) : Nat := fld (Pkt.w k 4) 13 8
/-- LAST of a LOAN packet. -/
def loanLast (k : Packet) : Nat := fld (Pkt.w k 4) 5 0

/-- The code of a letter in `LOAN_REC.HOLDER` and in STATE: 1 A, 2 B (R316). -/
def holderCode : Letter → Nat
  | .a => 1
  | .b => 2

/-- The other sender. -/
def otherLetter : Letter → Letter
  | .a => .b
  | .b => .a

/-! ### The tile's record (R298 to R303) -/

/-- The holder of the tile's loan, if there is one. -/
def State.holder (s : State) : Option Letter :=
  match s.fldOf .tile Reg.LOAN_REC 31 30 with
  | 1 => some .a
  | 2 => some .b
  | _ => none

/-- RSTATE: 0 NONE, 1 HELD, 2 RELEASING (R316). -/
def State.rstate (s : State) : Nat := s.fldOf .tile Reg.LOAN_REC 29 28

/-- 4,096 LNK cycles of 2 ns (R298). -/
def freshFor : Nat := 8192

/-- A claim is fresh for 4,096 LNK cycles after its arrival (R298). -/
def State.fresh (c : Claim) (s : State) : Bool := s.elapsed .tile ≤ c.arrived + freshFor

/-- A fresh claim of a sender that is not the holder is kept (R298). -/
def State.freshKept (s : State) : Bool := s.til.claims.any fun c => s.holder ≠ some c.letter && s.fresh c

/-- The fresh claim that takes the record when E arrives: the latest of the other sender from before this cycle, for a claim
of this cycle comes after E (R298, R299). -/
def State.freshClaim (s : State) : Option Claim :=
  match s.holder with
  | none => none
  | some h => s.til.claims.find? fun c => c.letter == otherLetter h && s.fresh c && decide (c.arrived < s.elapsed .tile)

/-- A refused claim is kept as its sender's latest, with the one before it from an earlier cycle. -/
def State.keepClaim (c : Claim) (s : State) : State :=
  let mine := s.til.claims.filter fun d => d.letter == c.letter && decide (d.arrived < c.arrived)
  let other := s.til.claims.filter fun d => d.letter != c.letter
  { s with til := { s.til with claims := c :: mine.take 1 ++ other } }

/-- min(EXPIRY, t + TERM) (R298). -/
def claimExpiry (expiry term t : Word) : Word := if atOrAfter (t + term) expiry then expiry else t + term

/-- The record is granted to a sender; a grant to the other sender ends a switch-over gap (R298, R303). -/
def State.grant (l : Letter) (expiry term : Word) (s : State) : State :=
  let now := s.elapsed .tile
  let gap := wd (min (now - s.til.renewAt) (2 ^ 32 - 1))
  let s :=
    if s.til.lastHolder = some (otherLetter l) then
      let s := s.wr .tile Reg.LOAN_LAST_GAP gap
      if (s.rd .tile Reg.LOAN_GAP_MAX).toNat < gap.toNat then s.wr .tile Reg.LOAN_GAP_MAX gap else s
    else s
  let s := s.wr .tile Reg.LOAN_REC (wd (holderCode l * 2 ^ 30 + 2 ^ 28))
  let s := (s.wr .tile Reg.LOAN_EXPIRY expiry).wr .tile Reg.LOAN_REC_TERM term
  let s := (s.wr .tile Reg.LOAN_REL_TIME 0).bump .tile Reg.LOAN_GRANTS 1
  { s with til := { s.til with
    lastHolder := some l, renewAt := now, orphan := false, claims := s.til.claims.filter fun c => c.letter != l } }

/-- The record falls to NONE (R298, R309). -/
def State.loanNone (s : State) : State :=
  let s := s.wr .tile Reg.LOAN_REC 0
  let s := ((s.wr .tile Reg.LOAN_EXPIRY 0).wr .tile Reg.LOAN_REC_TERM 0).wr .tile Reg.LOAN_REL_TIME 0
  { s with til := { s.til with noneAt := s.elapsed .tile, orphan := false } }

/-- E arrives: a fresh claim takes the record, else it falls to NONE (R298). -/
def State.relArrives (s : State) : State :=
  match s.freshClaim with
  | some c => (s.grant c.letter c.expiry c.term).raiseAll .tile [(Ev.LOAN_GRANT, 0), (Ev.LOAN_RELEASED, 0)]
  | none => s.loanNone.raise .tile Ev.LOAN_RELEASED

/-- The third condition of R296: TERM and EXPIRY of a RENEW or CLAIM. -/
def State.termOk (k : Packet) (s : State) : Bool :=
  let term := (Pkt.w k 2).toNat
  let d := timeDiff (Pkt.w k 3) (s.wall .tile)
  250000 ≤ term && term ≤ 100000000 && 1 ≤ d && d ≤ (term : Int)

/-- The fourth condition of R296: E of a RELEASE. -/
def State.relOk (k : Packet) (s : State) : Bool :=
  Pkt.w k 3 = 0 || timeDiff (Pkt.w k 3) (s.wall .tile) ≤ 100000000

/-- The first two conditions of R296: the position lies in the run, and the packet came from its sender's side. -/
def State.loanForMe (i : Nat) (k : Packet) (s : State) : Bool :=
  (match s.tilePos with
   | none => false
   | some n => loanFirst k ≤ n && n ≤ loanLast k) &&
  letterOf (Pkt.w k 4) == letterOfPort i

/-- A packet that fails the third or fourth condition counts in `LOAN_BADPKT`; its event is raised at most once
per millisecond (R296, R317). -/
def State.badLoan (s : State) : State :=
  let s := s.bump .tile Reg.LOAN_BADPKT 1
  if s.msDue .tile s.til.badAt then
    ({ s with til := { s.til with badAt := some (s.elapsed .tile) } }).raise .tile Ev.LOAN_BADPKT
  else s

/-- A LOAN packet that reaches the tile's record (R296). -/
def State.loanGate (i : Nat) (k : Packet) (ok : Bool) (f : Letter → State → State) (s : State) : State :=
  if !ok then s.badLoan
  else if s.loanForMe i k then f (letterOf (Pkt.w k 4)) s
  else s

/-- The holder's renewal (R298). -/
def State.renewRec (k : Packet) (s : State) : State :=
  let t := s.wall .tile
  let s := s.wr .tile Reg.LOAN_EXPIRY (claimExpiry (Pkt.w k 3) (Pkt.w k 2) t)
  let s := s.wr .tile Reg.LOAN_REC_TERM (Pkt.w k 2)
  { s with til := { s.til with renewAt := s.elapsed .tile } }

/-- RENEW (R298). -/
def State.loanRenew (k : Packet) (x : Letter) (s : State) : State :=
  if s.holder = some x then s.renewRec k else s

/-- The record was NONE at the start of this cycle, or has been since reset (R299). -/
def State.noneBefore (s : State) : Bool := s.til.lastHolder.isNone || decide (s.til.noneAt < s.elapsed .tile)

/-- A claim to a record in NONE is granted (R298). -/
def State.claimTake (x : Letter) (e term : Word) (s : State) : State :=
  let m : GrantMark := ⟨s.elapsed .tile, s.til.lastHolder, s.til.renewAt, s.rd .tile Reg.LOAN_LAST_GAP,
    s.rd .tile Reg.LOAN_GAP_MAX⟩
  let s := s.grant x e term
  ({ s with til := { s.til with granted := some m } }).raise .tile Ev.LOAN_GRANT

/-- A claim of sender A arrives in the cycle in which one of sender B was granted: sender A's is granted, sender B's refused
and kept (R299). -/
def State.claimOver (m : GrantMark) (e term : Word) (s : State) : State :=
  let c : Claim := ⟨.b, s.rd .tile Reg.LOAN_EXPIRY, s.rd .tile Reg.LOAN_REC_TERM, s.elapsed .tile⟩
  let grants := s.rd .tile Reg.LOAN_GRANTS
  let s := (s.wr .tile Reg.LOAN_LAST_GAP m.lastGap).wr .tile Reg.LOAN_GAP_MAX m.gapMax
  let s := { s with til := { s.til with lastHolder := m.lastHolder, renewAt := m.renewAt, granted := none } }
  ((s.grant .a e term).wr .tile Reg.LOAN_GRANTS grants).keepClaim c

/-- CLAIM (R298, R299). -/
def State.loanClaim (k : Packet) (x : Letter) (s : State) : State :=
  let term := Pkt.w k 2
  let e := claimExpiry (Pkt.w k 3) term (s.wall .tile)
  let c : Claim := ⟨x, e, term, s.elapsed .tile⟩
  match s.holder with
  | none => if s.noneBefore then s.claimTake x e term else s.keepClaim c
  | some h =>
    if h = x then s.renewRec k
    else
      match s.til.granted with
      | none => s.keepClaim c
      | some m => if x = .a && m.at' = s.elapsed .tile then s.claimOver m e term else s.keepClaim c

/-- RELEASE (R298). -/
def State.loanRelease (k : Packet) (x : Letter) (s : State) : State :=
  if s.holder ≠ some x then s
  else
    let e := Pkt.w k 3
    if e = 0 || s.reachedAt .tile e then s.relArrives
    else (s.wr .tile Reg.LOAN_REL_TIME e).wrFld .tile Reg.LOAN_REC 29 28 2

/-- The record has been in NONE for `LOAN_ORPHAN_TO`, and LOAN_ORPHAN has not been raised since its entry (R309). -/
def State.orphanDue (s : State) : Bool :=
  s.rstate = 0 && !s.til.orphan && s.timedOut .tile s.til.noneAt (s.fldOf .tile Reg.LOAN_ORPHAN_TO 15 0 * 1000000)

/-- The tile's STATE packet (R295). -/
def State.statePacket (s : State) : Packet :=
  let h := s.fldOf .tile Reg.LOAN_REC 31 30
  let r := s.rstate
  let pos := s.tilePos.getD 0
  let x := if r = 2 then s.rd .tile Reg.LOAN_REL_TIME else if r = 1 then s.rd .tile Reg.LOAN_EXPIRY else 0
  mkPacket tLOAN destSender 0 (s.srcOf .tile) (wd (3 * 2 ^ 28 + h * 2 ^ 26 + r * 2 ^ 24))
    [s.rd .tile Reg.LOAN_REC_TERM, x, loanK (if h = 2 then .b else .a) 0 pos pos]

/-! ### Positions of a chain -/

/-- A 64-bit map kept in a LO and a HI register. -/
def State.map64 (lo hi : Nat) (s : State) : Nat := (s.rd .sender lo).toNat + (s.rd .sender hi).toNat * 2 ^ 32

/-- A bit of a map set or cleared. -/
def State.mapSet (lo hi n : Nat) (b : Bool) (s : State) : State :=
  s.wrBit .sender (if n < 32 then lo else hi) (n % 32) b

/-- `LOAN_HELD[k]` (R304). -/
def State.heldMap (k : Nat) (s : State) : Nat := s.map64 (Reg.LOAN_HELD_LO k) (Reg.LOAN_HELD_HI k)
/-- `LOAN_SEEN[k]` (R304). -/
def State.seenMap (k : Nat) (s : State) : Nat := s.map64 (Reg.LOAN_SEEN_LO k) (Reg.LOAN_SEEN_HI k)
/-- `LOAN_EXCL[k]` (R305). -/
def State.exclMap (k : Nat) (s : State) : Nat := s.map64 (Reg.LOAN_EXCL_LO k) (Reg.LOAN_EXCL_HI k)

/-- Positions 0 to L − 1 of a chain that the sender does not exclude (R305). -/
def State.ownPositions (k : Nat) (s : State) : List Nat :=
  (List.range (s.chainLen k)).filter fun n => !(s.exclMap k).testBit n

/-- Runs of consecutive numbers in a rising list. -/
def runsOf : List Nat → List (Nat × Nat)
  | [] => []
  | n :: ns =>
    match runsOf ns with
    | (a, b) :: rs => if a = n + 1 then (n, b) :: rs else (n, n) :: (a, b) :: rs
    | [] => [(n, n)]

/-! ### The sender's LOAN state (R302) -/

/-- `LOAN_STAT.STATE`: 0 OFF, 1 ACTIVE, 2 SAFE (R315). -/
def State.loanSt (s : State) : Nat := s.fldOf .sender Reg.LOAN_STAT 31 30

/-- A sender's RENEW or CLAIM over each run of its positions (R302, R305). -/
def State.sendRuns (kind k : Nat) (s : State) : State :=
  let term := s.rd .sender Reg.LOAN_TERM
  let l := s.letter
  (runsOf (s.ownPositions k)).foldl (fun s r =>
    s.sendChain k (mkPacket tLOAN destAll 0 0x7E (wd (kind * 2 ^ 28))
      [term, s.wall .sender + term, loanK l k r.1 r.2])) s

/-- The chain has no working pipe (R207, R302). -/
def State.noPipe (k : Nat) (s : State) : Bool := s.snd.noPipe.getD k false

/-- The sender renews and claims on a chain (R302). -/
def State.loanOn (k : Nat) (s : State) : Bool := s.loanSt == 1 && s.isChain k && !s.noPipe k

/-- A RELEASE over every position of the chain (R305). -/
def State.sendRelease (k : Nat) (e : Word) (s : State) : State :=
  s.sendChain k (mkPacket tLOAN destAll 0 0x7E (wd (2 * 2 ^ 28)) [0, e, loanK s.letter k 0 (s.chainLen k - 1)])

/-- One RELEASE copy of a chain leaves; the chain's job ends with its last copy (R302, R310). -/
def State.releaseCopy (k : Nat) (s : State) : State :=
  match AMap.find s.snd.release k with
  | none => s
  | some j =>
    let s := s.sendRelease k j.e
    let m := if j.left ≤ 1 then AMap.del s.snd.release k else AMap.put s.snd.release k { j with left := j.left - 1 }
    { s with snd := { s.snd with release := m } }

/-- The BEAT STATE field of this sender (R306). -/
def State.beatState (s : State) : Nat :=
  let stk := (match s.snd.stkOne with
      | some j => decide (j.released ≠ 0) && !s.reachedAt .sender j.e
      | none => false) ||
    (match s.snd.stkSched with
      | some j => decide (j.released ≠ 0) && !s.reachedAt .sender j.e
      | none => false)
  s.loanSt * 64 + (s.bitOf .sender Reg.LOAN_CTRL 30).toNat * 32 + stk.toNat * 16

/-- `CHN_CTRL[k]` MODE is cross-link (R19, R257). -/
def State.isCross (k : Nat) (s : State) : Bool := s.fldOf .sender (Reg.CHN_CTRL k) 31 30 == 2

/-- A BEAT on a chain port (R306). -/
def State.beatPacket (k : Nat) (s : State) : Packet :=
  mkPacket tBEAT destSender 0 0x7E 0
    [s.snd.beatSeq, s.wall .sender, wd (letterBit s.letter * 2 ^ 31 + k * 2 ^ 24 + s.beatState * 2 ^ 16)]

/-- A heartbeat path is alive (R307). -/
def State.anyPath (s : State) : Bool :=
  s.bitOf .sender Reg.LOAN_STAT 27 || s.fldOf .sender Reg.LOAN_BEAT_CHN 15 0 ≠ 0

/-- `LOAN_STAT` bits 29 and 28 follow the paths (R315). -/
def State.pathBits (s : State) : State :=
  let s := s.wrBit .sender Reg.LOAN_STAT 28 (s.fldOf .sender Reg.LOAN_BEAT_CHN 15 0 ≠ 0)
  s.wrBit .sender Reg.LOAN_STAT 29 s.anyPath

/-- A beat has arrived: the peer's STATE, the paths, and PEER_FOUND after PEER_LOST (R307). -/
def State.beatTaken (st : Nat) (s : State) : State :=
  let s := (s.wrFld .sender Reg.LOAN_STAT 23 16 st).pathBits
  if s.snd.peerLost then ({ s with snd := { s.snd with peerLost := false } }).raise .sender Ev.PEER_FOUND else s

/-- A path is lost: its event, and PEER_LOST with the last one (R307). -/
def State.pathLost (ev : Nat) (s : State) : State :=
  let s := s.pathBits
  if s.anyPath then s.raise .sender ev
  else ({ s with snd := { s.snd with peerLost := true } }).raiseAll .sender [(Ev.PEER_LOST, 0), (ev, 0)]

/-- A beat has arrived on the cross path (R307). -/
def State.crossBeat (s : State) : State :=
  ({ s with snd := { s.snd with crossAt := s.elapsed .sender } }).wrBit .sender Reg.LOAN_STAT 27 true

/-- A beat has arrived on the loop path of chain k (R307). -/
def State.loopBeat (k : Nat) (s : State) : State :=
  ({ s with snd := { s.snd with beatAt := AMap.put s.snd.beatAt k (s.elapsed .sender) } }).wrBit .sender Reg.LOAN_BEAT_CHN k true

/-- MISS × INT of `LOAN_BEAT`, in ns (R307). -/
def State.missTime (s : State) : Nat := s.fldOf .sender Reg.LOAN_BEAT 23 16 * s.fldOf .sender Reg.LOAN_BEAT 13 0 * 1000

/-- A cross-path beat of the network (R306). -/
def State.xbeatWrite (v : Word) (s : State) : State :=
  if s.bitOf .sender Reg.LOAN_CTRL 29 then s.crossBeat.beatTaken (fld v 23 16) else s

/-- A STATE report of a position (R304). -/
def State.stateTaken (k : Nat) (pkt : Packet) (s : State) : State :=
  let pos := Pkt.src pkt
  let h := fld (Pkt.w pkt 1) 27 26
  let own := holderCode s.letter
  let seen0 := s.seenMap k
  let held0 := s.heldMap k
  let was := AMap.find s.snd.seenBy (64 * k + pos)
  let s := s.mapSet (Reg.LOAN_SEEN_LO k) (Reg.LOAN_SEEN_HI k) pos true
  let s := s.mapSet (Reg.LOAN_HELD_LO k) (Reg.LOAN_HELD_HI k) pos (h = own)
  let s := { s with snd := { s.snd with
    seenBy := AMap.put s.snd.seenBy (64 * k + pos) h, seenAt := AMap.put s.snd.seenAt (64 * k + pos) (s.elapsed .sender) } }
  let ev := if s.seenMap k ≠ seen0 ∨ s.heldMap k ≠ held0 then [(Ev.HELD_CHANGE k, (0 : Word))] else []
  let new := was ≠ some h
  let ev := if new && h ≠ 0 && h ≠ own then ev ++ [(Ev.LOAN_SPLIT, 0)] else ev
  let ev := if new && h = 0 then ev ++ [(Ev.ORPHAN_SEEN, 0)] else ev
  s.raiseAll .sender ev

/-- A write of `LOAN_EXCL` that would name more than 3 positions is refused (R305). -/
def State.exclWrite (k : Nat) (hi : Bool) (v : Word) (s : State) : State :=
  let other := s.rd .sender (if hi then Reg.LOAN_EXCL_LO k else Reg.LOAN_EXCL_HI k)
  let count := fun w : Word => ((List.range 32).filter fun i => bit w i).length
  if 3 < count v + count other then s.raise .sender Ev.LOAN_EXCL_DENIED
  else s.wr .sender (if hi then Reg.LOAN_EXCL_HI k else Reg.LOAN_EXCL_LO k) v

/-! ### Stocktake (R310, R311) -/

/-- PENDING of `LOAN_STK_STAT`. -/
def State.stkPending (s : State) : Bool := s.bitOf .sender Reg.LOAN_STK_STAT 31

/-- A stocktake's result is recorded, and its event raised (R310). `pend` is PENDING afterwards. -/
def State.stkRecord (res released : Nat) (pend : Bool) (s : State) : State :=
  let s := s.wr .sender Reg.LOAN_STK_STAT (wd (pend.toNat * 2 ^ 31 + res * 2 ^ 28 + released))
  let s := if res = 0 then s.bump .sender Reg.LOAN_STK_COUNT 1 else s
  s.raise .sender (if res = 0 then Ev.STK_DONE else if res = 1 then Ev.STK_PARTIAL else Ev.STK_SKIP)

/-- GO of a one-shot stocktake; ignored while PENDING is 1 (R310, R315). -/
def State.stkGo (chains : Nat) (s : State) : State :=
  if s.stkPending then s
  else
    let j : Stocktake :=
      { chains := chains, frame := s.rd .sender Reg.LOAN_STK_FRAME, goAt := s.elapsed .sender, checked := false,
        released := 0, result := none, e := 0 }
    (({ s with snd := { s.snd with stkOne := some j } }).wrBit .sender Reg.LOAN_STK_STAT 31 true)

/-- A write of `LOAN_STK_CMD` (R315). -/
def State.stkCmdWrite (v : Word) (s : State) : State := if bit v 31 then s.stkGo (fld v 15 0) else s

/-- Positions of chain k that this sender holds, among 0 to L − 1; only while it is ACTIVE can it release. -/
def State.heldOf (k : Nat) (s : State) : List Nat :=
  if s.loanSt = 1 then (List.range (s.chainLen k)).filter fun n => (s.heldMap k).testBit n else []

/-- How many ns after now the release time E of a stocktake lies (R310). -/
def State.stkDist (j : Stocktake) (s : State) : Int := s.distTo .sender (fun n => s.senderLatch n) (j.frame - 1)

/-- What the check of R310 decides for one chain: `none` for nothing, `some 0` for a release, else the result. -/
def State.stkChain (one : Bool) (j : Stocktake) (k : Nat) (s : State) : Option Nat :=
  let held := s.heldOf k
  let all := (s.ownPositions k).all fun n => held.contains n
  let peer := s.fldOf .sender Reg.LOAN_STAT 23 16
  if !one && held.isEmpty then none
  else if one && decide ((s.elapsed .sender : Int) + s.stkDist j < (j.goAt : Int) + 1100000) then some 5
  else if s.bitOf .sender Reg.LOAN_STK_HOLD 0 then some 2
  else if !s.bitOf .sender Reg.LOAN_BEAT_CHN k || peer / 64 ≠ 1 || peer / 32 % 2 ≠ 1 then some 3
  else if (!one && !all) || (one && held.isEmpty) then some 4
  else some 0

/-- The check over the chains a stocktake names, lowest first: those released, and the first result. -/
def stkChains (one : Bool) (j : Stocktake) (s : State) : List Nat → Nat × Option Nat
  | [] => (0, none)
  | k :: ks =>
    let (rel, res) := stkChains one j s ks
    if j.chains.testBit k && s.isChain k then
      match s.stkChain one j k with
      | none => (rel, res)
      | some 0 => (rel + 2 ^ k, res)
      | some r => (rel, some r)
    else (rel, res)

/-- A stocktake under way stored. -/
def State.putStk (one : Bool) (j : Option Stocktake) (s : State) : State :=
  if one then { s with snd := { s.snd with stkOne := j } } else { s with snd := { s.snd with stkSched := j } }

/-- The check at E − 1 ms, while the frame schedule runs (R310). With no chain released the stocktake ends there. -/
def State.stkCheck (one : Bool) (s : State) : State :=
  match (if one then s.snd.stkOne else s.snd.stkSched) with
  | none => s
  | some j =>
    let e := s.senderLatch (j.frame - 1)
    if j.checked || !s.schedOn .sender || 1000000 < s.stkDist j then s
    else if !one && s.stkPending then (s.stkRecord 6 0 true).putStk false none
    else
      let (rel, res) := stkChains one j s (List.range 16)
      if rel = 0 then
        match res with
        | none => (if one then s.wrBit .sender Reg.LOAN_STK_STAT 31 false else s).putStk one none
        | some r => (s.stkRecord r 0 false).putStk one none
      else
        let s := (s.releaseChains rel e).putStk one (some { j with checked := true, released := rel, result := res, e := e })
        s.wrBit .sender Reg.LOAN_STK_STAT 31 true

/-- The result after E + 3 ms (R311). -/
def State.stkResult (one : Bool) (s : State) : State :=
  match (if one then s.snd.stkOne else s.snd.stkSched) with
  | none => s
  | some j =>
    if !j.checked || !s.reachedAt .sender (j.e + wd 3000000) then s
    else
      let part := (List.range 16).any fun k =>
        j.released.testBit k && (s.ownPositions k).any fun n => (s.heldMap k).testBit n
      (s.putStk one none).stkRecord (if part then 1 else 0) j.released false

/-! ### The meanings -/

/-- RENEW_SEND (R302, R305). -/
def execRenewSend (k : Fin 16) (s : State) : Host.Outcome State Fault Refusal :=
  .next (s.when' .sender fun s => if s.loanOn k.val then s.sendRuns 0 k.val else s)

/-- CLAIM_SEND (R302, R305): while CLAIM_EN is 1. -/
def execClaimSend (k : Fin 16) (s : State) : Host.Outcome State Fault Refusal :=
  .next (s.when' .sender fun s =>
    if s.loanOn k.val && s.bitOf .sender Reg.LOAN_CTRL 30 then s.sendRuns 1 k.val else s)

/-- RELEASE_SEND (R302, R310). -/
def execReleaseSend (k : Fin 16) (s : State) : Host.Outcome State Fault Refusal :=
  .next (s.when' .sender (State.releaseCopy k.val))

/-- LOAN_RENEW (R296, R298). -/
def execLoanRenew (port : LnkPort) (pkt : Packet) (s : State) : Host.Outcome State Fault Refusal :=
  .next (match port.part with
    | .sender => s.arriveSender port.idx pkt (Pkt.is pkt tLOAN 0) id
    | .tile => s.arriveTile port.idx pkt (Pkt.is pkt tLOAN 0) fun s =>
        s.loanGate port.idx pkt (s.termOk pkt) (State.loanRenew pkt))

/-- LOAN_CLAIM (R296, R298). -/
def execLoanClaim (port : LnkPort) (pkt : Packet) (s : State) : Host.Outcome State Fault Refusal :=
  .next (match port.part with
    | .sender => s.arriveSender port.idx pkt (Pkt.is pkt tLOAN 1) id
    | .tile => s.arriveTile port.idx pkt (Pkt.is pkt tLOAN 1) fun s =>
        s.loanGate port.idx pkt (s.termOk pkt) (State.loanClaim pkt))

/-- LOAN_RELEASE (R296, R298). -/
def execLoanRelease (port : LnkPort) (pkt : Packet) (s : State) : Host.Outcome State Fault Refusal :=
  .next (match port.part with
    | .sender => s.arriveSender port.idx pkt (Pkt.is pkt tLOAN 2) id
    | .tile => s.arriveTile port.idx pkt (Pkt.is pkt tLOAN 2) fun s =>
        s.loanGate port.idx pkt (s.relOk pkt) (State.loanRelease pkt))

/-- LOAN_RELEASED (R298): E is reached in RELEASING. -/
def execLoanReleased (s : State) : Host.Outcome State Fault Refusal :=
  .next (s.when' .tile fun s =>
    if s.rstate = 2 && s.reachedAt .tile (s.rd .tile Reg.LOAN_REL_TIME) then s.relArrives else s)

/-- LOAN_EXPIRED (R298): the expiry is reached in HELD or RELEASING. An E that is reached too arrives first (R299). -/
def execLoanExpired (s : State) : Host.Outcome State Fault Refusal :=
  .next (s.when' .tile fun s =>
    if s.rstate = 2 && s.reachedAt .tile (s.rd .tile Reg.LOAN_REL_TIME) then s.relArrives
    else if s.rstate ≠ 0 && s.reachedAt .tile (s.rd .tile Reg.LOAN_EXPIRY) then
      (s.loanNone.bump .tile Reg.LOAN_EXPIRIES 1).raise .tile Ev.LOAN_EXPIRED
    else s)

/-- LOAN_ORPHAN (R309): raised once for each entry into NONE. -/
def execLoanOrphan (s : State) : Host.Outcome State Fault Refusal :=
  .next (s.when' .tile fun s =>
    if s.orphanDue then
      ({ s with til := { s.til with orphan := true } }).raise .tile Ev.LOAN_ORPHAN
    else s)

/-- STATE_SEND (R297): on each port toward a sender whose transmit direction is UP. -/
def execStateSend (s : State) : Host.Outcome State Fault Refusal :=
  .next (s.when' .tile fun s =>
    if s.tilePos.isNone then s
    else
      let k := s.statePacket
      let s := if s.txActive .tile 0 then s.ownPush 0 k else s
      if s.txActive .tile 1 then s.ownPush 1 k else s)

/-- LOAN_STATE (R304). -/
def execLoanState (k : Fin 16) (pkt : Packet) (s : State) : Host.Outcome State Fault Refusal :=
  .next (s.arriveSender k.val pkt (Pkt.is pkt tLOAN 3 && Pkt.src pkt < 64) (State.stateTaken k.val pkt))

/-- SEEN_TIMEOUT (R304): 3 ms have passed since the last STATE of a position. -/
def execSeenTimeout (k : Fin 16) (pos : Fin 64) (s : State) : Host.Outcome State Fault Refusal :=
  .next (s.when' .sender fun s =>
    let c := k.val
    let n := pos.val
    if (s.seenMap c).testBit n && s.timedOut .sender ((AMap.find s.snd.seenAt (64 * c + n)).getD 0) 3000000 then
      let s := s.mapSet (Reg.LOAN_SEEN_LO c) (Reg.LOAN_SEEN_HI c) n false
      let s := s.mapSet (Reg.LOAN_HELD_LO c) (Reg.LOAN_HELD_HI c) n false
      let s := { s with snd := { s.snd with seenBy := AMap.del s.snd.seenBy (64 * c + n) } }
      s.raise .sender (Ev.HELD_CHANGE c)
    else s)

/-- BEAT_SEND (R306): one SEQ on every chain and on the cross-link; also in SAFE, not in OFF (R302). -/
def execBeatSend (s : State) : Host.Outcome State Fault Refusal :=
  .next (s.when' .sender fun s =>
    if s.loanSt = 0 then s
    else
      let s := { s with snd := { s.snd with beatSeq := s.snd.beatSeq + 1 } }
      (List.range 16).foldl (fun s k =>
        if s.isChain k || s.isCross k then s.sendChain k (s.beatPacket k) else s) s)

/-- BEAT (R307). -/
def execBeat (k : Fin 16) (pkt : Packet) (s : State) : Host.Outcome State Fault Refusal :=
  .next (s.arriveSender k.val pkt (Pkt.type pkt == tBEAT) fun s =>
    let s := s.wr .sender Reg.LOAN_BEAT_SEQ (Pkt.w pkt 2)
    let s :=
      if s.isCross k.val then
        (if s.bitOf .sender Reg.LOAN_CTRL 29 then s else s.crossBeat)
      else s.loopBeat k.val
    s.beatTaken (fld (Pkt.w pkt 4) 23 16))

/-- CHAIN_BEAT_LOST (R307): MISS × INT after the last beat of the chain's loop path. -/
def execChainBeatLost (k : Fin 16) (s : State) : Host.Outcome State Fault Refusal :=
  .next (s.when' .sender fun s =>
    if s.bitOf .sender Reg.LOAN_BEAT_CHN k.val
        && s.timedOut .sender ((AMap.find s.snd.beatAt k.val).getD 0) s.missTime then
      (s.wrBit .sender Reg.LOAN_BEAT_CHN k.val false).pathLost (Ev.CHAIN_BEAT_LOST k.val)
    else s)

/-- XPATH_LOST (R307): MISS × INT after the last beat of the cross path. -/
def execXpathLost (s : State) : Host.Outcome State Fault Refusal :=
  .next (s.when' .sender fun s =>
    if s.bitOf .sender Reg.LOAN_STAT 27 && s.timedOut .sender s.snd.crossAt s.missTime then (s.wrBit .sender Reg.LOAN_STAT 27 false).pathLost Ev.XPATH_LOST
    else s)

/-- LOAN_XBEAT (R306). -/
def execLoanXbeat (v : Word) (s : State) : Host.Outcome State Fault Refusal :=
  .next (s.when' .sender (State.xbeatWrite v))

/-- LOAN_EXCL_WRITE (R305). -/
def execLoanExclWrite (k : Fin 16) (hi : Bool) (v : Word) (s : State) : Host.Outcome State Fault Refusal :=
  .next (s.when' .sender (State.exclWrite k.val hi v))

/-- LOAN_STK_GO (R310). -/
def execLoanStkGo (chains : BitVec 16) (s : State) : Host.Outcome State Fault Refusal :=
  .next (s.when' .sender (State.stkGo chains.toNat))

/-- STOCKTAKE_DUE (R310): a scheduled stocktake for frame F with F mod INT = PHASE. -/
def execStocktakeDue (f : Word) (s : State) : Host.Outcome State Fault Refusal :=
  .next (s.when' .sender fun s =>
    let int := s.fldOf .sender Reg.LOAN_STK_INT 23 0
    if int ≠ 0 && f.toNat % int = s.fldOf .sender Reg.LOAN_STK_PHASE 23 0 && s.snd.stkSched.isNone then
      s.putStk false (some { chains := s.fldOf .sender Reg.LOAN_STK_CHN 15 0, frame := f, goAt := 0,
                             checked := false, released := 0, result := none, e := 0 })
    else s)

/-- STOCKTAKE_CHECK (R310). -/
def execStocktakeCheck (one : Bool) (s : State) : Host.Outcome State Fault Refusal :=
  .next (s.when' .sender (State.stkCheck one))

/-- STOCKTAKE_RESULT (R311). -/
def execStocktakeResult (one : Bool) (s : State) : Host.Outcome State Fault Refusal :=
  .next (s.when' .sender (State.stkResult one))

end Sys2Proof.Machine
end

