-- ==== Sys2Proof/Machine/Dram.lean ====
section
/-!
DEFINITION. The frame memory and its controller (R171 to R197): contents, training, address mapping, the channel
engines with their write queues, refresh, link ECC, the bandwidth window and the test engine.
-/

namespace Sys2Proof.Machine

/-- The frame memory changed. -/
def State.updDram (f : Dram → Dram) (s : State) : State := s.updSnd fun t => { t with dram := f t.dram }

/-- A channel engine. -/
def State.dch (i : Nat) (s : State) : DramCh := (s.snd.dram.chans[i]?).getD DramCh.reset

/-- A channel engine changed. -/
def State.updCh (i : Nat) (f : DramCh → DramCh) (s : State) : State :=
  s.updDram fun d => { d with chans := listModify d.chans i f }

/-! ### Installed memory and the address mapping (R172, R178) -/

/-- `DRC_STAT.READY` (R176). -/
def State.dramReady (s : State) : Bool := s.bitOf .sender Reg.DRC_STAT 0

/-- The memory fitted: eight times the capacity of a channel (R172). -/
def State.fitted (s : State) : Nat := 8 * 2 ^ (29 + s.fldOf .sender Reg.DRC_CFG 5 4)

/-- The installed memory in bytes: 0 while READY is 0 (R172). -/
def State.installed (s : State) : Nat := if s.dramReady then s.fitted else 0

/-- Where a unit lies: channel, bank with its rank, and row (R178). -/
structure DramPlace where
  ch : Nat
  bank : Nat
  row : Nat
  deriving DecidableEq, Repr

/-- The place of a unit under a mapping, with one rank or two (R178). -/
def placeOf (map : Nat) (two : Bool) (unit : Nat) : DramPlace :=
  let ch := if map < 2 then unit % 8 else if map = 2 then unit / 32 % 8 else unit / 512 % 8
  let ba := if map = 3 then unit / 32 % 16 else unit / 256 % 16
  let up := unit / 4096
  let rk := if two then up % 2 else 0
  let row := if two then up / 2 else up
  let ba := if map = 1 then ba ^^^ (row % 16) else ba
  ⟨ch, 16 * rk + ba, row⟩

/-- The place of a unit under `DRC_CFG` (R178). -/
def State.place (unit : Nat) (s : State) : DramPlace :=
  placeOf (s.fldOf .sender Reg.DRC_CFG 13 12) (s.bitOf .sender Reg.DRC_CFG 8) unit

/-! ### Contents -/

/-- What a byte reads as in the devices while `mem` does not list it: the pattern of the last FILL, or a value that
training left open (R176, R196). -/
def Dram.unlisted (d : Dram) (a : Nat) : Byte :=
  match d.fill with
  | some p => byteOf p (a % 4)
  | none => Config.frameByte d.epoch a

/-- A byte as the devices hold it. -/
def Dram.devByte (d : Dram) (a : Nat) : Byte := (AMap.find d.mem a).getD (d.unlisted a)

/-- A byte written to the devices. -/
def Dram.devPut (d : Dram) (a : Nat) (v : Byte) : Dram :=
  match d.fill with
  | some p => { d with mem := SMap.set (fun k => byteOf p (k % 4)) d.mem a v }
  | none => { d with mem := AMap.put d.mem a v }

/-- The canonical form of the frame memory: addresses strictly rise, and no byte listed equals what its address reads
as unlisted once a FILL has run. -/
def Dram.memWf (d : Dram) : Bool :=
  match d.fill with
  | some p => SMap.wf (fun k => byteOf p (k % 4)) d.mem
  | none => AMap.sorted d.mem

/-- Bytes by place in a unit written to the devices. -/
def Dram.devPuts (d : Dram) (unit : Nat) : List (Nat × Byte) → Dram
  | [] => d
  | (i, v) :: l => (d.devPut (64 * unit + i) v).devPuts unit l

/-- The entry of a unit in a channel's write queue. -/
def DramCh.entry (c : DramCh) (unit : Nat) : Option WqEntry := c.wq.find? fun e => e.unit = unit

/-- A byte of frame memory as a read returns it: what a write-queue entry holds goes before the device (R184), and an
address beyond the installed memory reads as ones (R172). -/
def State.fmByte (a : Nat) (s : State) : Byte :=
  if s.installed ≤ a then 0xFF
  else
    match (s.dch (s.place (a / 64)).ch).entry (a / 64) with
    | some e => (AMap.find e.bytes (a % 64)).getD (s.snd.dram.devByte a)
    | none => s.snd.dram.devByte a

/-- Consecutive bytes of frame memory. -/
def State.fmBytes (a : Nat) (s : State) : Nat → List Byte
  | 0 => []
  | n + 1 => s.fmByte a :: State.fmBytes (a + 1) s n

/-- A word of frame memory (R5). -/
def State.fmWord (a : Nat) (s : State) : Word :=
  wordOf (s.fmByte a) (s.fmByte (a + 1)) (s.fmByte (a + 2)) (s.fmByte (a + 3))

/-- The bytes of a unit as the devices hold it. -/
def Dram.unitBytes (d : Dram) (unit : Nat) : List Byte := (List.range 64).map fun j => d.devByte (64 * unit + j)

/-- The reads of a unit that wait on a channel keep what the devices hold now: a later write is not seen (R184). -/
def State.holdReads (i unit : Nat) (s : State) : State :=
  if (s.dch i).reads.any fun r => r.unit = unit && r.data.isEmpty then
    s.updCh i fun c => { c with reads := c.reads.map fun r =>
      if r.unit = unit && r.data.isEmpty then { r with data := s.snd.dram.unitBytes unit } else r }
  else s

/-- A byte of frame memory written: into the write-queue entry of its unit, if there is one (R183), else the device;
discarded beyond the installed memory (R172). -/
def State.fmPut (a : Nat) (v : Byte) (s : State) : State :=
  if s.installed ≤ a then s
  else
    let ch := (s.place (a / 64)).ch
    match (s.dch ch).entry (a / 64) with
    | some _ =>
      s.updCh ch fun c => { c with
        wq := c.wq.map fun e => if e.unit = a / 64 then { e with bytes := AMap.put e.bytes (a % 64) v } else e }
    | none => (s.holdReads ch (a / 64)).updDram fun d => d.devPut a v

/-- Consecutive bytes of frame memory written. -/
def State.fmPuts (a : Nat) : List Byte → State → State
  | [], s => s
  | b :: bs, s => State.fmPuts (a + 1) bs (s.fmPut a b)

/-- A word of frame memory written (R5). -/
def State.fmPutWord (a : Nat) (w : Word) (s : State) : State := s.fmPuts a (bytesLE [w])

/-! ### The refresh multiplier (R186) -/

/-- log2 of the multiplier of the sender's applied band, from `DRC_BAND_MULT` (R195). -/
def State.bandMult (s : State) : Nat :=
  let b := s.fldOf .sender Reg.THM_STAT 18 16
  min 2 (fld (s.rd .sender Reg.DRC_BAND_MULT) (2 * b + 1) (2 * b))

/-- log2 of m of a channel as `DRC_CH_STAT` shows it (R194). -/
def State.dramM (i : Nat) (s : State) : Nat := s.fldOf .sender (Reg.DRC_CH_STAT i) 17 16

/-- m of a channel set, and the event of a change (R186). -/
def State.setDramM (i m : Nat) (s : State) : State × List (Nat × Word) :=
  if s.dramM i = m then (s, []) else (s.wrFld .sender (Reg.DRC_CH_STAT i) 17 16 m, [(Ev.DRC_REFRESH_MULT i, 0)])

/-- m of channels is brought to the larger of the band's and MR4's multiplier, with `lower` also downward: at a latch
point, or while no frame schedule runs (R186). -/
def State.dramMults (lower : Bool) : List Nat → State → State × List (Nat × Word)
  | [], s => (s, [])
  | i :: is, s =>
    let want := max s.bandMult (s.dch i).mr4
    let (s, ev) := s.setDramM i (if lower then want else max (s.dramM i) (s.dch i).mr4)
    let (s, ev') := s.dramMults lower is
    (s, ev ++ ev')

/-- The multipliers at a sender latch point or a band change (R186). -/
def State.dramLatch (s : State) : State × List (Nat × Word) :=
  if s.dramReady then s.dramMults true (List.range 8) else (s, [])

/-! ### Training (R174 to R177) -/

/-- The longest run of passing taps from tap `i`, the lower where two are equally long: first and length. `run` is the
run that ends at `i`, `best` the best before it (R175). -/
def eyeScan (pass : Nat → Bool) : Nat → Nat → Nat → Nat × Nat → Nat × Nat
  | 0, _, _, best => best
  | n + 1, i, run, best =>
    if pass i then
      let run := run + 1
      eyeScan pass n (i + 1) run (if best.2 < run then (i + 1 - run, run) else best)
    else eyeScan pass n (i + 1) 0 best

/-- A lane's eye: left edge, right edge and centre, unless it is shorter than 16 taps (R175). -/
def eyeOf (m : BitVec 256) : Option (Nat × Nat × Nat) :=
  let (first, len) := eyeScan (fun i => m.getLsbD i) 256 0 0 (0, 0)
  if len < 16 then none else some (first, first + len - 1, (first + (first + len - 1)) / 2)

/-- An eye as `DRC_TRN_RD` and `DRC_TRN_WR` show it (R194). -/
def eyeWord (e : Nat × Nat × Nat) : Word := wd (e.1 * 2 ^ 16 + e.2.1 * 2 ^ 8 + e.2.2)

/-- The levels that `DRC_WQ_LEVEL` shows (R194). -/
def State.wqLevel (i : Nat) (s : State) : State :=
  let n := (s.dch i).wq.length
  let a := Reg.DRC_WQ_LEVEL i
  (s.wrFld .sender a 6 0 n).wrFld .sender a 22 16 (max n (s.fldOf .sender a 22 16))

/-- The counts that `DRC_REF_POST` shows (R187). -/
def State.refPost (i : Nat) (s : State) : State :=
  let n := (s.dch i).postponed.length
  let a := Reg.DRC_REF_POST i
  (s.wrFld .sender a 3 0 n).wrFld .sender a 19 16 (max n (s.fldOf .sender a 19 16))

/-- The engines of all channels hold no request, no open page and no postponed refresh; what MR4 requires stays
(R188). -/
def State.chIdle (s : State) : State :=
  let s := s.updDram fun d => { d with
    chans := d.chans.map fun c => { DramCh.reset with mr4 := c.mr4 }, behind := [] }
  (List.range 8).foldl (fun s i => (s.wqLevel i).refPost i) s

/-- Training starts on all channels: contents become undefined (R174, R176). -/
def State.dramTrain (s : State) : State :=
  let s := s.wr .sender Reg.DRC_STAT 0
  let s := (List.range 8).foldl (fun s i => s.wr .sender (Reg.DRC_CH_STAT i) (s.rd .sender (Reg.DRC_CH_STAT i) &&& 0x00FFFFFF)) s
  s.chIdle.updDram fun d => { d with
    mem := [], fill := none, epoch := d.epoch + 1, moved := 0, windowAt := s.wall .sender }

/-- `DRC_CFG` is written (R179). -/
def State.drcCfgWrite (v : Word) (s : State) : State :=
  if s.bitOf .sender Reg.DRC_CTRL 0 then s.raise .sender Ev.DRC_CFG_DENIED
  else s.wr .sender Reg.DRC_CFG (v &&& 0x3137)

/-- A channel is being trained: EN is 1, it has neither passed nor failed (R176). -/
def State.training (i : Nat) (s : State) : Bool :=
  s.bitOf .sender Reg.DRC_CTRL 0 && !s.dramReady && s.fldOf .sender (Reg.DRC_CH_STAT i) 31 30 = 0

/-- A channel has passed: its eyes are kept, and with the last channel the memory is ready (R175, R176). -/
def State.trainPass (i : Nat) (r0 r1 w0 w1 : Nat × Nat × Nat) (s : State) : State :=
  let s := s.wr .sender (Reg.DRC_TRN_RD i 0) (eyeWord r0)
  let s := s.wr .sender (Reg.DRC_TRN_RD i 1) (eyeWord r1)
  let s := s.wr .sender (Reg.DRC_TRN_WR i 0) (eyeWord w0)
  let s := s.wr .sender (Reg.DRC_TRN_WR i 1) (eyeWord w1)
  let s := s.wr .sender (Reg.DRC_TRK i) (wd (r1.2.2 * 2 ^ 8 + r0.2.2))
  let s := s.wrBit .sender (Reg.DRC_CH_STAT i) 31 true
  let s := s.wrBit .sender Reg.DRC_STAT (8 + i) true
  if s.fldOf .sender Reg.DRC_STAT 15 8 = 255 then
    let s := s.wrBit .sender Reg.DRC_STAT 0 true
    let s := s.updDram fun d => { d with windowAt := s.wall .sender, moved := 0 }
    let (s, ev) := s.dramMults (!s.schedOn .sender) (List.range 8)
    s.raiseAll .sender ((Ev.DRC_READY, 0) :: ev)
  else s

/-- An attempt ends (R175, R176). -/
def State.trainEnd (i : Nat) (r0 r1 w0 w1 : BitVec 256) (s : State) : State :=
  let n := s.fldOf .sender (Reg.DRC_CH_STAT i) 27 24 + 1
  let s := s.wrFld .sender (Reg.DRC_CH_STAT i) 27 24 n
  match eyeOf r0, eyeOf r1, eyeOf w0, eyeOf w1 with
  | some a, some b, some c, some d => s.trainPass i a b c d
  | _, _, _, _ =>
    if n < 3 then s
    else
      let s := s.wrBit .sender (Reg.DRC_CH_STAT i) 30 true
      (s.wrBit .sender Reg.DRC_STAT (16 + i) true).raise .sender Ev.DRC_TRAIN_FAIL

/-- The middle of the passing taps of a read-eye check, bit 4 at the centre; 4 where none passes (R177). -/
def trackMid (m : BitVec 9) : Nat :=
  match (List.range 9).find? (fun i => m.getLsbD i), (List.range 9).reverse.find? (fun i => m.getLsbD i) with
  | some a, some b => (a + b) / 2
  | _, _ => 4

/-- A lane's centre moves by at most 1 tap toward the middle; and whether it has come to lie more than 8 taps from its
trained value (R177). -/
def State.trackLane (i l : Nat) (m : BitVec 9) (s : State) : State × Bool :=
  let c := s.fldOf .sender (Reg.DRC_TRK i) (8 * l + 7) (8 * l)
  let t := s.fldOf .sender (Reg.DRC_TRN_RD i l) 7 0
  let mid := trackMid m
  let n := if mid < 4 then c - 1 else if 4 < mid then min 255 (c + 1) else c
  let far := fun (x : Nat) => decide (8 < ((x : Int) - t).natAbs)
  (s.wrFld .sender (Reg.DRC_TRK i) (8 * l + 7) (8 * l) n, far n && !far c)

/-- The read-eye check of a channel (R177). -/
def State.track (i : Nat) (m0 m1 : BitVec 9) (s : State) : State :=
  let (s, f0) := s.trackLane i 0 m0
  let (s, f1) := s.trackLane i 1 m1
  if f0 || f1 then s.raise .sender (Ev.DRC_DRIFT i) else s

/-! ### Requests (R180 to R185) -/

/-- A port's latency target in ns (R180). -/
def State.target (port : Nat) (s : State) : Nat := s.fldOf .sender (Reg.DRC_PORT_LAT port) 23 0

/-- The urgency of a request of a port with a deadline (R181). -/
def State.urgency (port : Nat) (deadline : Word) (s : State) : Nat :=
  let slack := timeDiff deadline (s.wall .sender)
  let t : Int := s.target port
  if slack ≤ 0 then 3 else if 4 * slack ≤ t then 2 else if 2 * slack ≤ t then 1 else 0

/-- A request completes: its unit counts, its time is kept if the longest, and after its deadline it is late (R181,
R195). -/
def State.dramComplete (port : Nat) (deadline entered : Word) (s : State) : State × Bool :=
  let now := s.wall .sender
  let s := s.bump .sender (Reg.DRC_PORT_UNITS port) 1
  let s := s.updDram fun d => { d with moved := d.moved + 1 }
  let t := (timeDiff now entered).toNat
  let s :=
    if s.fldOf .sender (Reg.DRC_PORT_MAXLAT port) 23 0 < t then
      s.wr .sender (Reg.DRC_PORT_MAXLAT port) (wd (min t 0xFFFFFF))
    else s
  if 0 < timeDiff now deadline then ((s.bump .sender (Reg.DRC_PORT_LATE port) 1).raise .sender (Ev.DRC_LATE port), true)
  else (s, false)

/-- A write enters a channel's queue, or merges into the entry of its unit (R183). -/
def State.wqEnter (i : Nat) (e : WqEntry) (s : State) : State :=
  let c := s.dch i
  let s := match c.entry e.unit with
    | some _ =>
      s.updCh i fun c => { c with
        wq := c.wq.map fun (x : WqEntry) =>
          if x.unit = e.unit then { x with bytes := e.bytes.foldl (fun (m : List (Nat × Byte)) (b : Nat × Byte) => AMap.put m b.1 b.2) x.bytes } else x }
    | none => s.updCh i fun c => { c with wq := c.wq ++ [e], draining := c.draining || decide (48 ≤ c.wq.length + 1) }
  let s := s.wqLevel i
  (s.dramComplete e.port e.deadline e.entered).1

/-- A write finds no place in the queue: no entry is free and none holds its unit (R183). -/
def DramCh.blocks (c : DramCh) (unit : Nat) : Bool := (c.entry unit).isNone && 64 ≤ c.wq.length

/-- A write request reaches its channel: a full queue stalls it, and its port with it, unless its unit has an entry
(R183). -/
def State.dramWrite (e : WqEntry) (s : State) : State :=
  let i := (s.place e.unit).ch
  if (s.dch i).blocks e.unit then s.updCh i fun c => { c with stalled := c.stalled ++ [e] } else s.wqEnter i e

/-- Bytes of a unit with enabled bytes put over them (R184, R185). -/
def overlay (fwd : List (Nat × Byte)) (data : List Byte) : List Byte :=
  (List.range 64).map fun j => (AMap.find fwd j).getD (data.getD j 0)

/-- A read is answered. -/
def State.readDone' (r : RdReq) (data : List Byte) (poisoned : Bool) (s : State) : State × Bool :=
  let s := s.updDram fun d => { d with last := some ⟨r.port, r.unit, overlay r.fwd data, poisoned⟩ }
  s.dramComplete r.port r.deadline r.entered

/-- Reads answered, each with whether it was late (R181). -/
abbrev Answers := List (RdReq × Bool)

/-- Of a list of reads, one is of a port and unit. -/
def sameRead (port unit : Nat) (l : List RdReq) : Bool := l.any fun r => r.port = port && r.unit = unit

/-- A read request reaches its channel: answered from an entry with all 64 byte enables set, else it waits for the
device with the bytes that an entry has (R184). A read behind another of its port and unit waits in any case (R182). -/
def State.dramRead (r : RdReq) (s : State) : State × Answers :=
  let i := (s.place r.unit).ch
  let c := s.dch i
  let fwd := match c.entry r.unit with
    | some e => e.bytes
    | none => []
  let r := { r with fwd := fwd }
  if fwd.length = 64 && !sameRead r.port r.unit (c.flight ++ c.reads) then
    let (s, late) := s.readDone' r [] false
    (s, [(r, late)])
  else (s.updCh i fun c => { c with reads := c.reads ++ [r] }, [])

/-- A write of a port waits for an entry: the port is stalled (R183). -/
def State.portStalled (port : Nat) (s : State) : Bool :=
  s.snd.dram.chans.any fun c => c.stalled.any fun e => e.port = port

/-- The port of a request. -/
def DramReq.port : DramReq → Nat
  | .write e => e.port
  | .read r => r.port

/-- A port issues a request: while it is stalled the request waits behind the stalled write (R183). -/
def State.dramRequest (q : DramReq) (s : State) : State × Answers :=
  if s.portStalled q.port then (s.updDram fun d => { d with behind := d.behind ++ [q] }, [])
  else match q with
    | .write e => (s.dramWrite e, [])
    | .read r => s.dramRead r

/-- Requests are issued one after the other. -/
def State.dramRequests : List DramReq → State → State × Answers
  | [], s => (s, [])
  | q :: qs, s =>
    let (s, a) := s.dramRequest q
    let (s, b) := State.dramRequests qs s
    (s, a ++ b)

/-- A request seen by the choice of R182: its urgency, whether it hits an open page, and its keys. -/
structure Cand where
  urg : Nat
  hit : Bool
  slack : Int
  port : Nat
  deriving DecidableEq, Repr

/-- One request goes before another (R182). -/
def Cand.before (a b : Cand) : Bool :=
  if a.urg ≠ b.urg then b.urg < a.urg
  else if a.urg < 3 && a.hit ≠ b.hit then a.hit
  else if a.slack ≠ b.slack then a.slack < b.slack
  else a.port < b.port

/-- The place in a list of the first request in the order of R182. -/
def firstCand : Nat → List Cand → Option (Nat × Cand)
  | _, [] => none
  | i, c :: cs =>
    match firstCand (i + 1) cs with
    | none => some (i, c)
    | some (j, d) => if d.before c then some (j, d) else some (i, c)

/-- A page of a bank is open. -/
def State.pageHit (i unit : Nat) (s : State) : Bool :=
  let p := s.place unit
  AMap.find (s.dch i).pages p.bank == some p.row

/-- A request as the choice of R182 sees it. -/
def State.cand (i unit port : Nat) (deadline : Word) (s : State) : Cand :=
  ⟨s.urgency port deadline, s.pageHit i unit, timeDiff deadline (s.wall .sender), port⟩

/-- The queue drains by issuing a write now (R183). -/
def State.issuesWrite (i : Nat) (s : State) : Bool :=
  let c := s.dch i
  match c.wq with
  | [] => false
  | e :: _ => decide (2 ≤ s.urgency e.port e.deadline) || c.draining || c.reads.isEmpty

/-- An access opens its page unless it is open, and counts (R182, R194). -/
def State.access (i unit : Nat) (s : State) : State :=
  let p := s.place unit
  if s.pageHit i unit then s.bump .sender (Reg.DRC_PAGE_HIT i) 1
  else (s.updCh i fun c => { c with pages := AMap.put c.pages p.bank p.row }).bump .sender (Reg.DRC_PAGE_MISS i) 1

/-- Sixty-four bytes that a burst with an uncorrectable error reads as: free values. -/
def State.freeUnit (s : State) : List Byte × State :=
  ((List.range 64).map fun j => (Config.freeValue 11 (s.draws + j)).setWidth 8, { s with draws := s.draws + 64 })

/-- What read link ECC finds in a burst (R189). The flag is set where the unit is poisoned. -/
def State.readEcc (i unit : Nat) (ecc : Ecc) (s : State) : State × Bool :=
  match ecc with
  | .good => (s, false)
  | .corrected => ((s.bump .sender (Reg.DRC_ECC_CORR i) 1).raise .sender (Ev.DRC_ECC_CORR i), false)
  | .double =>
    let s := (s.bump .sender (Reg.DRC_ECC_UNCORR i) 1).wr .sender (Reg.DRC_ERR_ADDR i) (wd unit)
    (s.raise .sender (Ev.DRC_ECC_UNCORR i), true)

/-- Stalled writes of a channel, at most `n`, enter the queue oldest first while each finds a place (R183). -/
def State.letIn (i : Nat) : Nat → State → State
  | 0, s => s
  | n + 1, s =>
    match (s.dch i).stalled with
    | [] => s
    | e :: es =>
      if (s.dch i).blocks e.unit then s
      else State.letIn i n ((s.updCh i fun c => { c with stalled := es }).wqEnter i e)

/-- An entry of a channel's queue has been freed: the writes that it stalled enter, and the requests behind them follow
(R183). -/
def State.unstall (i : Nat) (s : State) : State × Answers :=
  let s := s.letIn i (s.dch i).stalled.length
  let qs := s.snd.dram.behind
  (s.updDram fun d => { d with behind := [] }).dramRequests qs

/-- An entry of the write queue is issued: a partial one as a read, a merge and a write of the full unit (R185). -/
def State.issueWrite (i n : Nat) (ecc : Ecc) (s : State) : State × Answers :=
  match (s.dch i).wq[n]? with
  | none => (s, [])
  | some e =>
    let s := s.updCh i fun c =>
      { c with wq := c.wq.eraseIdx n, draining := c.draining && decide (16 < c.wq.length - 1) }
    let s := s.wqLevel i
    let s :=
      if e.bytes.length = 64 then (s.access i e.unit).updDram fun d => d.devPuts e.unit e.bytes
      else
        let s := (s.access i e.unit).access i e.unit
        let s := s.bump .sender (Reg.DRC_PORT_UNITS e.port) 1
        let s := s.updDram fun d => { d with moved := d.moved + 1 }
        let (s, bad) := s.readEcc i e.unit ecc
        let (data, s) := if bad then s.freeUnit else (s.snd.dram.unitBytes e.unit, s)
        s.updDram fun d => d.devPuts e.unit ((List.range 64).zip (overlay e.bytes data))
    s.unstall i

/-- A read is issued (R182): to the device, unless a write-queue entry gave it all its bytes, which answer it now. -/
def State.issueRead (i n : Nat) (s : State) : State × Answers :=
  match (s.dch i).reads[n]? with
  | none => (s, [])
  | some r =>
    let s := s.updCh i fun c => { c with reads := c.reads.eraseIdx n }
    if r.fwd.length = 64 then
      let (s, late) := s.readDone' r [] false
      (s, [(r, late)])
    else
      let s := s.access i r.unit
      let r := if r.data.isEmpty then { r with data := s.snd.dram.unitBytes r.unit } else r
      (s.updCh i fun c => { c with flight := c.flight ++ [r] }, [])

/-- Read n of a channel is eligible (R182): no read of its port and unit waits before it, nor, if it needs no device
access, is one in flight. -/
def DramCh.mayRead (c : DramCh) (n : Nat) : Bool :=
  match c.reads[n]? with
  | none => false
  | some r =>
    !sameRead r.port r.unit (c.reads.take n) && !(r.fwd.length = 64 && sameRead r.port r.unit c.flight)

/-- The engine of a channel issues the first eligible request (R182, R183). A write of a unit that a read entered
before it still waits for is not eligible (R184). -/
def State.dramIssue (i : Nat) (ecc : Ecc) (s : State) : State × Answers :=
  let c := s.dch i
  let ws := (List.range c.wq.length).filter fun n =>
    match c.wq[n]? with
    | none => false
    | some e => !c.reads.any fun r => r.unit = e.unit
  let wc := ws.filterMap fun n => (c.wq[n]?).map fun e => s.cand i e.unit e.port e.deadline
  let rs := (List.range c.reads.length).filter c.mayRead
  let rc := rs.filterMap fun n => (c.reads[n]?).map fun r => s.cand i r.unit r.port r.deadline
  match (if s.issuesWrite i then firstCand 0 wc else none) with
  | some (j, _) => s.issueWrite i (ws.getD j 0) ecc
  | none =>
    match firstCand 0 rc with
    | none => (s, [])
    | some (j, _) => s.issueRead i (rs.getD j 0)

/-! ### Requests of the other blocks (R180) -/

/-- The units that `n` bytes from an address on lie in. -/
def unitSpan (a n : Nat) : List Nat :=
  if n = 0 then [] else (List.range ((a + n - 1) / 64 + 1 - a / 64)).map fun i => a / 64 + i

/-- Units of the installed memory that a block moves through its port: each opens its page and counts (R180, R193,
R195). DESIGN CHOICE: no rule gives the time such a request takes; it completes in the command that makes it, so it is
never late and adds nothing to the longest time. -/
def State.portUse (port : Nat) (units : List Nat) (s : State) : State :=
  let us := units.filter fun u => decide (64 * u < s.installed)
  let s := us.foldl (fun s u => s.access (s.place u).ch u) s
  (s.bump .sender (Reg.DRC_PORT_UNITS port) us.length).updDram fun d => { d with moved := d.moved + us.length }

/-- Bytes written to frame memory through a port. -/
def State.portPuts (port a : Nat) (bs : List Byte) (s : State) : State :=
  (s.portUse port (unitSpan a bs.length)).fmPuts a bs

/-! ### Power-down (R179) -/

/-- A request of a channel that is to complete before power-down. -/
inductive FlushReq where
  | flight (r : RdReq)
  | read
  | write
  deriving DecidableEq, Repr

/-- The request of a channel that completes next before power-down: reads before writes, as they entered. -/
def DramCh.flushNext (c : DramCh) : Option FlushReq :=
  match c.flight, c.reads, c.wq with
  | r :: _, _, _ => some (.flight r)
  | [], _ :: _, _ => some .read
  | [], [], _ :: _ => some .write
  | [], [], [] => none

/-- A request of a channel completes, or is issued, before power-down. DESIGN CHOICE: its bursts are free of errors. -/
def State.flushOne (i : Nat) (q : FlushReq) (s : State) : State × Answers :=
  match q with
  | .flight r =>
    let (s, late) := (s.updCh i fun c => { c with flight := c.flight.drop 1 }).readDone' r r.data false
    (s, [(r, late)])
  | .read => s.issueRead i 0
  | .write => s.issueWrite i 0 .good

/-- Requests complete until none is left, in at most `n` steps. -/
def State.flushRun : Nat → State → State × Answers
  | 0, s => (s, [])
  | n + 1, s =>
    match (List.range 8).findSome? fun i => (s.dch i).flushNext.map fun q => (i, q) with
    | none => (s, [])
    | some (i, q) =>
      let (s, a) := s.flushOne i q
      let (s, b) := State.flushRun n s
      (s, a ++ b)

/-- The requests that channels and ports hold. -/
def Dram.held (d : Dram) : Nat :=
  d.chans.foldl (fun n c => n + c.flight.length + c.reads.length + c.wq.length + c.stalled.length) d.behind.length

/-- Every request in flight completes (R179): each is issued and answered, so two steps for each suffice. -/
def State.dramFlush (s : State) : State × Answers :=
  let (s, a) := s.flushRun (2 * s.snd.dram.held)
  (s.chIdle, a)

/-- `DRC_CTRL` is written (R174, R179): 1 to EN while READY is 0 starts training; 0 to EN while it is 1 completes the
requests in flight and puts every device into self-refresh power-down. -/
def State.drcCtrlWrite (v : Word) (s : State) : State × Answers :=
  let was := s.bitOf .sender Reg.DRC_CTRL 0
  let s := s.wr .sender Reg.DRC_CTRL (v &&& 0x3)
  if bit v 0 then (if s.dramReady then s else s.dramTrain, [])
  else if was then
    let (s, a) := s.dramFlush
    let s := (List.range 8).foldl (fun s i => s.wrBit .sender (Reg.DRC_CH_STAT i) 31 false) s
    ((s.wrBit .sender Reg.DRC_STAT 0 false).wrFld .sender Reg.DRC_STAT 15 8 0, a)
  else (s, [])

/-! ### Refresh (R186 to R188) -/

/-- A request of urgency 3 waits on a channel (R187). -/
def State.urgent3 (i : Nat) (s : State) : Bool :=
  let c := s.dch i
  c.reads.any (fun r => s.urgency r.port r.deadline = 3) || (c.wq ++ c.stalled).any fun e => s.urgency e.port e.deadline = 3

/-- A refresh of a bank falls due: postponed while a request of urgency 3 waits and fewer than 8 are, else issued, with
the postponed ones if no such request waits; a refresh closes its bank's page (R182, R187). -/
def State.refresh (i bank : Nat) (s : State) : State :=
  let c := s.dch i
  let hurry := s.urgent3 i
  if hurry && c.postponed.length < 8 then
    (s.updCh i fun c => { c with postponed := c.postponed ++ [bank] }).refPost i
  else
    let done := if hurry then [bank] else bank :: c.postponed
    let s := s.updCh i fun c => { c with
      pages := c.pages.filter fun p => !done.contains p.1, postponed := if hurry then c.postponed else [] }
    s.refPost i

/-- MR4 of a channel's devices is read (R186, R188, R189). -/
def State.mr4Poll (i code m : Nat) (hot : Bool) (wrEcc : Word) (s : State) : State :=
  let s := s.wrFld .sender (Reg.DRC_CH_STAT i) 10 8 code
  let s := s.bump .sender (Reg.DRC_WR_ECC i) wrEcc.toNat
  let s := s.updCh i fun c => { c with mr4 := if hot then 2 else m }
  let (s, ev) := s.dramMults (!s.schedOn .sender) [i]
  s.raiseAll .sender (if hot then (Ev.DRC_DRAM_HOT i, 0) :: ev else ev)

/-! ### The bandwidth window and the test engine (R193, R196) -/

/-- The average of a window of `t` ns in which `moved` units moved is reported, in MB/s (R193). -/
def State.bwReport (moved t : Nat) (s : State) : State × List (Nat × Word) :=
  let q := 64000 * moved / t
  let up := 64000 * moved % t ≠ 0 && Config.roundUp 5 q
  let avg := min 0xFFFFF (if up then q + 1 else q)
  let s := s.wr .sender Reg.DRC_BW_LAST (wd avg)
  let s := s.wr .sender Reg.DRC_BW_MAX (wd (max avg (s.rd .sender Reg.DRC_BW_MAX).toNat))
  (s, if s.fldOf .sender Reg.DRC_BW_LIM 19 0 < avg then [(Ev.DRC_BW_OVER, 0)] else [])

/-- A window that a latch point has ended is reported, if one is still to be. -/
def State.bwLast (s : State) : State × List (Nat × Word) :=
  match s.snd.dram.window with
  | none => (s, [])
  | some (moved, t) => (s.updDram fun d => { d with window := none }).bwReport moved t

/-- The ns since the window under way began. -/
def State.bwAge (s : State) : Nat := (timeDiff (s.wall .sender) s.snd.dram.windowAt).toNat

/-- A sender latch point ends a window (R193): what the one before still has to report is reported first. -/
def State.bwLatch (s : State) : State × List (Nat × Word) :=
  let (s, ev) := s.bwLast
  if s.bwAge = 0 then (s, ev)
  else (s.updDram fun d => { d with window := some (d.moved, s.bwAge), moved := 0, windowAt := s.wall .sender }, ev)

/-- The window that has ended is reported (R193): the one a latch point ended, or, while no frame schedule runs, one of
a millisecond. -/
def State.bwWindow (s : State) : State × List (Nat × Word) :=
  if s.snd.dram.window.isSome then s.bwLast
  else if s.schedOn .sender || s.bwAge < 1000000 then (s, [])
  else
    let (moved, t) := (s.snd.dram.moved, s.bwAge)
    (s.updDram fun d => { d with moved := 0, windowAt := s.wall .sender }).bwReport moved t

/-- The test engine's BUSY (R196). -/
def State.testBusy (s : State) : Bool := s.bitOf .sender Reg.DRC_TEST_STAT 31

/-- The engine moves every installed unit through port 11 (R196). -/
def State.testMove (s : State) : State :=
  let n := s.installed / 64
  (s.bump .sender (Reg.DRC_PORT_UNITS 11) n).updDram fun d => { d with moved := d.moved + n }

/-- FILL: the pattern is written to every installed unit (R196). -/
def State.testFill (s : State) : State :=
  let s := s.wr .sender Reg.DRC_TEST_STAT 0x80000000
  let p := s.rd .sender Reg.DRC_TEST_PAT
  if s.dramReady then
    let s := (List.range 8).foldl (fun s i => ((s.dch i).reads.map RdReq.unit).foldl (fun s u => s.holdReads i u) s) s
    let s := s.testMove.updDram fun d => { d with
      mem := [], fill := some p, chans := d.chans.map fun c => { c with wq := [], draining := false } }
    (List.range 8).foldl (fun s i => s.wqLevel i) s
  else s

/-- A unit holds the pattern in every word. -/
def State.unitIs (p : Word) (unit : Nat) (s : State) : Bool :=
  (List.range 64).all fun j => s.fmByte (64 * unit + j) == byteOf p (j % 4)

/-- The first unit from `u` on, of the `n` units there, that does not hold the pattern. -/
def State.firstBad (p : Word) : Nat → Nat → State → Option Nat
  | 0, _, _ => none
  | n + 1, u, s => if s.unitIs p u then State.firstBad p n (u + 1) s else some u

/-- CHECK: every unit is compared with the pattern (R196). -/
def State.testCheck (s : State) : State :=
  let p := s.rd .sender Reg.DRC_TEST_PAT
  let s := s.testMove
  s.wr .sender Reg.DRC_TEST_STAT
    (match s.firstBad p (s.installed / 64) 0 with
    | none => 0x80000000
    | some u => wd (3 * 2 ^ 30 + u))

/-- `DRC_TEST_CTRL` is written: ignored while BUSY is 1 (R196). -/
def State.testCtrlWrite (v : Word) (s : State) : State :=
  if s.testBusy then s
  else
    let s := if bit v 0 then s.testFill else s
    if bit v 1 then s.testCheck else s

/-! ### The commands -/

/-- DRC_CFG_WRITE (R179). -/
def execDrcCfgWrite (v : Word) (s : State) : Host.Outcome State Fault Refusal :=
  .next (s.when' .sender (State.drcCfgWrite v))

/-- DRC_TRAIN_ATTEMPT_END (R176). -/
def execDrcTrainAttemptEnd (ch : Fin 8) (r0 r1 w0 w1 : BitVec 256) (s : State) : Host.Outcome State Fault Refusal :=
  .next (s.when' .sender fun s => if s.training ch.val then s.trainEnd ch.val r0 r1 w0 w1 else s)

/-- DRC_TRACK (R177). -/
def execDrcTrack (ch : Fin 8) (m0 m1 : BitVec 9) (s : State) : Host.Outcome State Fault Refusal :=
  .next (s.when' .sender fun s =>
    if s.dramReady && s.bitOf .sender Reg.DRC_CTRL 1 then s.track ch.val m0 m1 else s)

/-- DRC_MR4_POLL (R186). -/
def execDrcMr4Poll (ch : Fin 8) (code : BitVec 3) (m : Fin 3) (hot : Bool) (wrEcc : Word) (s : State) :
    Host.Outcome State Fault Refusal :=
  .next (s.when' .sender fun s => if s.dramReady then s.mr4Poll ch.val code.toNat m.val hot wrEcc else s)

/-- DRC_REFRESH (R187). -/
def execDrcRefresh (ch : Fin 8) (bank : Fin 32) (s : State) : Host.Outcome State Fault Refusal :=
  .next (s.when' .sender fun s => if s.dramReady then s.refresh ch.val bank.val else s)

/-- The deadline of a request: what the pipe attaches on ports 0 to 3, else its arrival and the port's target (R181). -/
def State.deadlineOf (port : Nat) (attached : Word) (s : State) : Word :=
  if port < 4 then attached else s.wall .sender + wd (s.target port)

/-- DRAM_WRITE_REQUEST (R183): while its port is stalled it waits behind the stalled write. Beyond the installed memory it is discarded (R172). -/
def execDramWriteRequest (port : Fin 12) (unit : BitVec 29) (en : BitVec 64) (data : List Byte) (s : State) :
    Host.Outcome State Fault Refusal :=
  .next (s.when' .sender fun s =>
    if s.installed ≤ 64 * unit.toNat then s
    else
      let bytes := ((List.range 64).filter fun j => en.getLsbD j).map fun j => (j, data.getD j 0)
      let now := s.wall .sender
      (s.dramRequest (.write ⟨unit.toNat, bytes, port.val, s.deadlineOf port.val now, now⟩)).1)

/-- DRC_BW_WINDOW (R193). -/
def execDrcBwWindow (s : State) : Host.Outcome State Fault Refusal :=
  .next (s.when' .sender fun s => evRaise .sender s.bwWindow)

/-- DRC_TEST_FILL (R196). -/
def execDrcTestFill (s : State) : Host.Outcome State Fault Refusal := .next (s.when' .sender (State.testCtrlWrite 1))

/-- DRC_TEST_CHECK (R196). -/
def execDrcTestCheck (s : State) : Host.Outcome State Fault Refusal := .next (s.when' .sender (State.testCtrlWrite 2))

/-- TEST_DONE (R196). -/
def execTestDone (s : State) : Host.Outcome State Fault Refusal :=
  .next (s.when' .sender fun s =>
    if s.testBusy then (s.wrBit .sender Reg.DRC_TEST_STAT 31 false).raise .sender Ev.TEST_DONE else s)

end Sys2Proof.Machine
end

