-- ==== Sys2Proof/Machine/Net.lean ====
section
/-!
DEFINITION. Network ingest (R111 to R141) but for the wake patterns: link, MAC and counters, classification, the flow
engine with its merge and buffers, receive rings and transmit rings.
-/

namespace Sys2Proof.Machine

/-! ### Counters (R119 to R121, R136) -/

/-- Counter j of a port counts up by n; crossing half range sets its HALF bit and, if enabled, gives NET_CNT_HALF
(R120). -/
def State.netCount (i j n : Nat) (s : State) : State × List (Nat × Word) :=
  let was := (s.rd .sender (Reg.NET_CNT i j)).toNat
  let s := s.bump .sender (Reg.NET_CNT i j) n
  if was < 2 ^ 31 && 2 ^ 31 ≤ was + n then
    let half := if j < 32 then Reg.NET_HALF0 i else Reg.NET_HALF1 i
    let en := if j < 32 then Reg.NET_HALF_EN0 i else Reg.NET_HALF_EN1 i
    let s := s.wrBit .sender half (j % 32) true
    (s, if s.bitOf .sender en (j % 32) then [(Ev.NET_CNT_HALF i, 0)] else [])
  else (s, [])

/-- A FLOW counter, by its address, counts up by n; crossing half range sets its half-range bit and gives
FLOW_CNT_HALF (R136). -/
def State.flowCount (a n : Nat) (s : State) : State × List (Nat × Word) :=
  let was := (s.rd .sender a).toNat
  let s := s.bump .sender a n
  if was < 2 ^ 31 && 2 ^ 31 ≤ was + n then
    let m := (a - 0x94000) / 4
    (s.wrBit .sender (Reg.FLOW_HALF (m / 32)) (m % 32) true, [(Ev.FLOW_CNT_HALF, 0)])
  else (s, [])

/-- The size bucket of a frame, FCS included, 0 to 8 (R119). -/
def sizeBucket (len : Nat) : Nat :=
  if len ≤ 64 then 0 else if len < 128 then 1 else if len < 256 then 2 else if len < 512 then 3
  else if len < 1024 then 4 else if len ≤ 1518 then 5 else if len < 2048 then 6 else if len < 4096 then 7 else 8

/-! ### Frames as bytes -/

/-- Byte n of a frame. -/
def Fr.b (f : List Byte) (n : Nat) : Nat := (f.getD n 0).toNat
/-- Two bytes of a frame, the first the more significant. -/
def Fr.h (f : List Byte) (n : Nat) : Nat := Fr.b f n * 256 + Fr.b f (n + 1)
/-- Four bytes of a frame. -/
def Fr.w (f : List Byte) (n : Nat) : Nat := Fr.h f n * 65536 + Fr.h f (n + 2)
/-- The destination address. -/
def Fr.dst (f : List Byte) : Nat := natBE (f.take 6)
/-- The frame has an 802.1Q tag (R113). -/
def Fr.tagged (f : List Byte) : Bool := Fr.h f 12 == 0x8100
/-- Where the EtherType lies, after a recognised tag. -/
def Fr.typeAt (f : List Byte) : Nat := if Fr.tagged f then 16 else 12
/-- The EtherType after a recognised tag (R125). -/
def Fr.type (f : List Byte) : Nat := Fr.h f (Fr.typeAt f)
/-- Where the payload of the frame starts. -/
def Fr.ip (f : List Byte) : Nat := Fr.typeAt f + 2
/-- The frame carries IPv4. -/
def Fr.isV4 (f : List Byte) : Bool := Fr.type f == 0x0800 && Fr.b f (Fr.ip f) / 16 == 4
/-- The IPv4 protocol. -/
def Fr.proto (f : List Byte) : Nat := Fr.b f (Fr.ip f + 9)
/-- Header length of the IPv4 datagram in bytes. -/
def Fr.ihl (f : List Byte) : Nat := 4 * (Fr.b f (Fr.ip f) % 16)
/-- The UDP destination port over IPv4, of a datagram that starts at offset 0. -/
def Fr.udpPort (f : List Byte) : Option Nat :=
  if Fr.isV4 f && Fr.proto f == 17 && Fr.h f (Fr.ip f + 6) % 8192 == 0 then some (Fr.h f (Fr.ip f + Fr.ihl f + 2)) else none
/-- IPv4 with IHL 5, not fragmented, UDP (R124). -/
def Fr.plainUdp (f : List Byte) : Bool :=
  Fr.isV4 f && Fr.ihl f == 20 && Fr.proto f == 17 && Fr.h f (Fr.ip f + 6) % 16384 == 0
/-- One's-complement sum of the 16-bit words of an IPv4 header. -/
def ipSum (f : List Byte) (at' n : Nat) : Nat :=
  let t := (List.range n).foldl (fun x k => x + Fr.h f (at' + 2 * k)) 0
  let t := t % 65536 + t / 65536
  t % 65536 + t / 65536
/-- The IPv4 header checksum is good (R127). -/
def Fr.ipOk (f : List Byte) : Bool := ipSum f (Fr.ip f) 10 == 0xFFFF
/-- The destination is a group address. -/
def Fr.group (f : List Byte) : Bool := Fr.b f 0 % 2 == 1
/-- The index among 0 unicast, 1 multicast, 2 broadcast of the destination. -/
def Fr.kind (f : List Byte) : Nat := if Fr.dst f = 0xFFFFFFFFFFFF then 2 else if Fr.group f then 1 else 0

/-- The port's own address (R118). -/
def State.netMac (i : Nat) (s : State) : Nat :=
  s.fldOf .sender (Reg.NET_MAC_HI i) 15 0 * 2 ^ 32 + (s.rd .sender (Reg.NET_MAC_LO i)).toNat

/-- `NET_MAXLEN` (R118). -/
def State.maxLen (i : Nat) (s : State) : Nat := s.fldOf .sender (Reg.NET_MAXLEN i) 13 0

/-- `NET_STAT.LINK` (R112). -/
def State.netUp (i : Nat) (s : State) : Bool := s.bitOf .sender (Reg.NET_STAT i) 0

/-! ### The flow engine (R126 to R133) -/

/-- What is kept of a flow. -/
def State.flow (f : Nat) (s : State) : Flow := (s.snd.flows[f]?).getD Flow.reset

/-- What is kept of a flow, changed. -/
def State.updFlow (f : Nat) (g : Flow → Flow) (s : State) : State :=
  s.updSnd fun t => { t with flows := listModify t.flows f g }

/-- The pgroup of a sampling and depth: P bytes and C pixels (R128); none for what R126 does not list. -/
def pgroup (samp depth : Nat) : Option (Nat × Nat) :=
  if samp = 0 then (if depth = 0 then some (5, 2) else if depth = 1 then some (6, 2) else none)
  else if samp = 1 then (if depth = 0 then some (15, 4) else if depth = 1 then some (9, 2) else none)
  else if samp = 2 then
    (if depth = 0 then some (15, 4) else if depth = 1 then some (9, 2) else if depth = 2 then some (6, 1) else none)
  else none

/-- The pgroup of a flow; 1 byte for 1 pixel where validation would have rejected its format. -/
def State.flowP (f : Nat) (s : State) : Nat × Nat :=
  (pgroup (s.fldOf .sender (Reg.FLOW_FMT f) 31 30) (s.fldOf .sender (Reg.FLOW_FMT f) 29 28)).getD (1, 1)

/-- WIDTH, HEIGHT and NBUF of a flow (R136). -/
def State.flowW (f : Nat) (s : State) : Nat := s.fldOf .sender (Reg.FLOW_SIZE f) 12 0
def State.flowH (f : Nat) (s : State) : Nat := s.fldOf .sender (Reg.FLOW_SIZE f) 28 16
def State.flowN (f : Nat) (s : State) : Nat := s.fldOf .sender (Reg.FLOW_CTRL f) 19 16

/-- The bytes of a complete line (R132). -/
def State.lineBytes (f : Nat) (s : State) : Nat := s.flowW f / (s.flowP f).2 * (s.flowP f).1

/-- Where buffer n of a flow starts in frame memory (R128). -/
def State.flowBuf (f n : Nat) (s : State) : Nat :=
  64 * (s.rd .sender (Reg.FLOW_BASE f)).toNat + 64 * (s.rd .sender (Reg.FLOW_BUFSZ f)).toNat * n

/-- The line pitch of a flow (R136). -/
def State.flowPitch (f : Nat) (s : State) : Nat := s.fldOf .sender (Reg.FLOW_PITCH f) 19 0

/-- A line of an open frame is complete (R132). -/
def State.lineDone (f : Nat) (o : OpenFrame) (l : Nat) (s : State) : Bool := SMap.get (fun _ => 0) o.tally l == s.lineBytes f

/-- The lines complete without a gap from line 0, of the `n` lines from `l` on (R133). -/
def State.runDone (f : Nat) (o : OpenFrame) : Nat → Nat → State → Nat
  | 0, l, _ => l
  | n + 1, l, s => if s.lineDone f o l then State.runDone f o n (l + 1) s else l

/-- The buffer of the latest closed frame, while there is one (R132, R136). -/
def State.latestBuf (f : Nat) (s : State) : Option Nat :=
  if s.bitOf .sender (Reg.FLOW_LATEST_STALE f) 31 then some (s.fldOf .sender (Reg.FLOW_STAT f) 19 16) else none

/-- OPEN and `FLOW_WPROG` follow the open frames (R133, R136). -/
def State.flowShow (f : Nat) (s : State) : State :=
  let l := (s.flow f).frames
  let s := s.wrFld .sender (Reg.FLOW_STAT f) 27 24 l.length
  s.wr .sender (Reg.FLOW_WPROG f) (match l with
    | [] => 0
    | o :: _ => wd (2 ^ 31 + o.buf * 2 ^ 16 + s.runDone f o (s.flowH f) 0))

/-- The bytes of the line-status map: bit L mod 8 of byte L div 8 is 1 for a stale line (R132). -/
def statusMap (stale : Nat → Bool) (h : Nat) : List Byte :=
  (List.range ((h + 7) / 8)).map fun b =>
    BitVec.ofNat 8 ((List.range 8).foldl (fun x i => if 8 * b + i < h && stale (8 * b + i) then x + 2 ^ i else x) 0)

/-- An open frame of a flow closes (R131, R132). -/
def State.flowClose (f : Nat) (o : OpenFrame) (s : State) : State × List (Nat × Word) :=
  let h := s.flowH f
  let stale := fun l => !s.lineDone f o l
  let n := ((List.range h).filter stale).length
  let s := s.portPuts 4 (s.flowBuf f o.buf + s.flowPitch f * h) (statusMap stale h)
  let both := s.bitOf .sender (Reg.FLOW_CTRL f) 30 && s.bitOf .sender (Reg.FLOW_CTRL f) 29
  let rec' := if both then (o.got.filter fun g => g.2 ≠ 3).length else 0
  let s := s.updFlow f fun w => { w with frames := w.frames.filter (fun x => x.ts ≠ o.ts), closed := o.ts :: w.closed }
  let s := s.wrFld .sender (Reg.FLOW_STAT f) 19 16 o.buf
  let s := s.wr .sender (Reg.FLOW_LATEST_TS f) o.ts
  let s := s.wr .sender (Reg.FLOW_LATEST_STALE f) (wd (2 ^ 31 + n))
  let s := s.wr .sender (Reg.FLOW_LATEST_WT f) (s.wall .sender)
  let s := s.flowShow f
  let x := evThen (s.flowCount (Reg.FLOW_CNT f 6) 1) (State.flowCount (Reg.FLOW_CNT f 9) rec')
  let x := evThen x fun s => (s, [(Ev.FLOW_FRAME f, 0)])
  if n = 0 then x
  else
    let x := evThen x (State.flowCount (Reg.FLOW_CNT f 7) 1)
    let x := evThen x (State.flowCount (Reg.FLOW_CNT f 8) n)
    evThen x fun s => (s, [(Ev.FLOW_STALE f, 0)])

/-- A path is live: path 1, or path 2 (R130). -/
def State.live (f : Nat) (two : Bool) (s : State) : Bool := s.bitOf .sender (Reg.FLOW_STAT f) (if two then 30 else 31)

/-- A path becomes live or stops being live (R130). -/
def State.setLive (f : Nat) (two b : Bool) (s : State) : State × List (Nat × Word) :=
  if s.live f two = b then (s, [])
  else (s.wrBit .sender (Reg.FLOW_STAT f) (if two then 30 else 31) b, [(Ev.FLOW_PATH f, 0)])

/-- A marker has arrived for an open frame on every live path, and on one at least (R131). -/
def State.allMarked (f : Nat) (o : OpenFrame) (s : State) : Bool :=
  (o.mark1 || o.mark2) && (o.mark1 || !s.live f false) && (o.mark2 || !s.live f true)

/-- Open frames whose markers have all arrived close, oldest first (R131). -/
def State.closeMarked (f : Nat) (s : State) : State × List (Nat × Word) :=
  evEach ((s.flow f).frames.filter fun o => s.allMarked f o) (State.flowClose f) s

/-- The buffer that the next frame of a flow opens: the first in rotation that is neither open, nor the latest closed,
nor held by the compositor (R129). -/
def State.nextBuf (f : Nat) (s : State) : Nat :=
  let w := s.flow f
  let n := s.flowN f
  let ok := fun b => !(w.frames.any fun o => o.buf = b) && s.latestBuf f ≠ some b && (w.held.map Prod.fst) ≠ some b
  (((List.range n).map fun k => (w.next + k) % n).find? ok).getD (w.next % n)

/-- A frame opens (R129): a frame that would be one too many first closes the oldest; the merge timers of the earlier
frames start (R131). -/
def State.flowOpen (f : Nat) (ts : Word) (s : State) : State × List (Nat × Word) :=
  let l := (s.flow f).frames
  let x : State × List (Nat × Word) := match l with
    | [] => (s, [])
    | o :: _ => if s.flowN f - 2 ≤ l.length then s.flowClose f o else (s, [])
  evThen x fun s =>
    let b := s.nextBuf f
    let now := s.wall .sender
    let s := s.updFlow f fun w => { w with
      frames := (w.frames.map fun o => { o with timer := some (o.timer.getD now) }) ++
        [{ ts := ts, buf := b, tally := [], got := [], mark1 := false, mark2 := false, timer := none }],
      next := (b + 1) % s.flowN f }
    (s.flowShow f, [])

/-- An SRD of a packet: row, offset, length and where its bytes start in the frame (R128). -/
structure Srd where
  row : Nat
  off : Nat
  len : Nat
  at' : Nat
  deriving DecidableEq, Repr

/-- The SRD headers from a place in a frame, at most `n`: length, row and offset of each, and where the headers end;
none where a further header follows (R126). DESIGN CHOICE: no rule says what the field bit of an interlaced packet does;
it is dropped, and the SRD is placed as progressive. -/
def srdHeads (fr : List Byte) : Nat → Nat → Option (List (Nat × Nat × Nat) × Nat)
  | 0, _ => none
  | n + 1, p =>
    let h := (Fr.h fr p, Fr.h fr (p + 2) % 32768, Fr.h fr (p + 4) % 32768)
    if Fr.h fr (p + 4) / 32768 = 1 then
      match srdHeads fr n (p + 6) with
      | none => none
      | some (l, e) => some (h :: l, e)
    else some ([h], p + 6)

/-- The SRDs whose headers are given, their bytes in order from a place. -/
def srdPlaces : List (Nat × Nat × Nat) → Nat → List Srd
  | [], _ => []
  | (len, row, off) :: l, p => ⟨row, off, len, p⟩ :: srdPlaces l (p + len)

/-- An SRD may be placed (R128); `stop` is where the packet ends. DESIGN CHOICE: one whose bytes reach beyond the
packet, which R128 does not list, counts in FMT_ERR too. -/
def State.srdOk (f : Nat) (r : Srd) (stop : Nat) (s : State) : Bool :=
  let (p, c) := s.flowP f
  r.off % c = 0 && r.len % p = 0 && r.row < s.flowH f && r.off / c * p + r.len ≤ s.lineBytes f && r.at' + r.len ≤ stop

/-- An SRD is placed in a frame's buffer and its line's tally grows, or it counts in FMT_ERR (R128, R132). -/
def State.placeSrd (f : Nat) (ts : Word) (buf : Nat) (fr : List Byte) (stop : Nat) (r : Srd) (s : State) :
    State × List (Nat × Word) :=
  if s.srdOk f r stop then
    let (p, c) := s.flowP f
    let s := s.portPuts 4 (s.flowBuf f buf + r.row * s.flowPitch f + r.off / c * p) ((fr.drop r.at').take r.len)
    (s.updFlow f fun w => { w with frames := w.frames.map fun o =>
      if o.ts = ts then { o with tally := AMap.put o.tally r.row (SMap.get (fun _ => 0) o.tally r.row + r.len) } else o }, [])
  else evThen (s.flowCount (Reg.FLOW_CNT f 4) 1) fun s => (s, [(Ev.FLOW_FMT f, 0)])

/-- A marker of a path arrives for an open frame (R131). -/
def State.flowMark (f : Nat) (two : Bool) (ts : Word) (s : State) : State :=
  let now := s.wall .sender
  s.updFlow f fun w => { w with frames := w.frames.map fun o =>
    if o.ts = ts then
      { o with mark1 := o.mark1 || !two, mark2 := o.mark2 || two, timer := some (o.timer.getD now) }
    else o }

/-- The paths that delivered a packet of an open frame (R130). -/
def State.flowGot (f : Nat) (ts : Word) (seq path : Nat) (s : State) : State :=
  s.updFlow f fun w => { w with frames := w.frames.map fun o =>
    if o.ts = ts then { o with got := AMap.put o.got seq (SMap.get (fun _ => 0) o.got seq ||| path) } else o }

/-- How far a sequence number lies behind the newest, by serial-number arithmetic on 32 bits. -/
def behind (newest seq : Nat) : Int := timeDiff (wd newest) (wd seq)

/-- A sequence number is marked, and becomes the newest if it is later (R130). DESIGN CHOICE: a marked number exactly
131,072 behind the newest, which the map's size leaves out and LATE does not take in, still counts as marked. -/
def Flow.mark (w : Flow) (seq : Nat) : Flow :=
  let newest := match w.newest with
    | none => seq
    | some n => if behind n seq < 0 then seq else n
  { w with newest := some newest, marked := (seq :: w.marked).filter fun m => behind newest m ≤ 131072 }

/-- A packet is placed: it opens a frame, belongs to an open one, or is late (R129). DESIGN CHOICE: a timestamp between
those of two open frames, which R129 does not list, is late. -/
def State.flowPlace (f : Nat) (two : Bool) (ts : Word) (seq : Nat) (fr : List Byte) (pay stop : Nat) (s : State) :
    State × List (Nat × Word) :=
  let w := s.flow f
  let isOpen := w.frames.any fun o => o.ts = ts
  let opens := !w.closed.contains ts && w.frames.all fun o => decide (0 < timeDiff ts o.ts)
  if isOpen || opens then
    let x := if isOpen then (s, []) else s.flowOpen f ts
    evThen x fun s =>
      let s := s.flowGot f ts seq (if two then 2 else 1)
      let buf := (((s.flow f).frames.find? fun o => o.ts = ts).map OpenFrame.buf).getD 0
      match srdHeads fr 3 pay with
      | none => evThen (s.flowCount (Reg.FLOW_CNT f 4) 1) fun s => (s, [(Ev.FLOW_FMT f, 0)])
      | some (hs, p) => evThen (evEach (srdPlaces hs p) (State.placeSrd f ts buf fr stop) s) fun s => (s.flowShow f, [])
  else s.flowCount (Reg.FLOW_CNT f 3) 1

/-- An accepted packet of a flow is merged by its sequence number and placed, and may close its frame (R130, R131). -/
def State.flowMerge (f : Nat) (two : Bool) (ts : Word) (seq : Nat) (marker : Bool) (fr : List Byte) (pay stop : Nat)
    (s : State) : State × List (Nat × Word) :=
  let w := s.flow f
  let old := match w.newest with
    | none => false
    | some n => decide (131072 < behind n seq)
  let x :=
    if w.marked.contains seq then
      (s.flowGot f ts seq (if two then 2 else 1)).flowCount (Reg.FLOW_CNT f 2) 1
    else if old then s.flowCount (Reg.FLOW_CNT f 3) 1
    else (s.updFlow f fun w => w.mark seq).flowPlace f two ts seq fr pay stop
  evThen x fun s => if marker then (s.flowMark f two ts).closeMarked f else (s, [])

/-- A datagram matches path 1 or 2 of a flow (R127). -/
def State.pathMatch (i : Nat) (fr : List Byte) (f : Nat) (two : Bool) (s : State) : Bool :=
  let p := if two then 1 else 0
  let ctl := s.rd .sender (Reg.FLOW_CTRL f)
  let pt := s.rd .sender (Reg.FLOW_PORT f p)
  let ip := Fr.ip fr
  bit ctl 31 && bit ctl (if two then 29 else 30) && fld pt 31 30 == i &&
    Fr.w fr (ip + 16) == (s.rd .sender (Reg.FLOW_DST_IP f p)).toNat && Fr.h fr (ip + 22) == fld pt 15 0 &&
    (!bit pt 29 || Fr.w fr (ip + 12) == (s.rd .sender (Reg.FLOW_SRC_IP f p)).toNat) &&
    (!bit pt 28 || (Fr.tagged fr && Fr.h fr 14 % 4096 == fld pt 27 16))

/-- The flow and path that a frame matches, the lowest flow first (R124). -/
def State.flowMatch (i : Nat) (fr : List Byte) (s : State) : Option (Nat × Bool) :=
  if Fr.plainUdp fr then
    ((List.range 16).flatMap fun f => [(f, false), (f, true)]).find? fun x => s.pathMatch i fr x.1 x.2
  else none

/-- A datagram of a flow arrives on a path (R127 to R131). DESIGN CHOICE: PKT_P1 and PKT_P2, of which R136 gives the
names only, count every datagram that matches, also one then discarded. -/
def State.flowPacket (f : Nat) (two : Bool) (fr : List Byte) (s : State) : State × List (Nat × Word) :=
  let now := s.wall .sender
  let s := s.updFlow f fun w => if two then { w with at2 := now } else { w with at1 := now }
  let x := evThen (s.setLive f two true) (State.flowCount (Reg.FLOW_CNT f (if two then 1 else 0)) 1)
  let rtp := Fr.ip fr + 28
  let b0 := Fr.b fr rtp
  let b1 := Fr.b fr (rtp + 1)
  let pt := s.fldOf .sender (Reg.FLOW_CTRL f) 6 0
  if !Fr.ipOk fr || b0 / 64 ≠ 2 || b1 % 128 ≠ pt || b0 / 32 % 2 = 1 || b0 % 16 ≠ 0 then
    evThen (evThen x (State.flowCount (Reg.FLOW_CNT f 5) 1)) fun s => (s, [(Ev.FLOW_FMT f, 0)])
  else
    let ext := if b0 / 16 % 2 = 1 then 4 + 4 * Fr.h fr (rtp + 14) else 0
    let pay := rtp + 12 + ext
    let seq := Fr.h fr pay * 65536 + Fr.h fr (rtp + 2)
    let stop := min fr.length (Fr.ip fr + Fr.h fr (Fr.ip fr + 2))
    evThen x (State.flowMerge f two (wd (Fr.w fr (rtp + 4))) seq (128 ≤ b1) fr (pay + 2) stop)

/-! ### Receive rings (R137 to R140) -/

/-- Bytes of a frame written to a ring's buffers in order through port RXR, at most `n` buffers; each buffer is `size`
bytes. -/
def State.ringFill (base mask size : Nat) : Nat → Nat → List Byte → State → State
  | 0, _, _, s => s
  | n + 1, h, bs, s =>
    if bs.isEmpty then s
    else
      let s := s.portUse 6 (unitSpan (base + 16 * h) 16)
      let a := 16 * (s.fmWord (base + 16 * h)).toNat
      State.ringFill base mask size n ((h + 1) % mask) (bs.drop size) (s.portPuts 6 a (bs.take size))

/-- The descriptors of a frame written back: `left` buffers of `n` from the descriptor `h` on (R137). -/
def State.ringBack (base mask size port filter flen n : Nat) (ts : Word) : Nat → Nat → State → State
  | 0, _, s => s
  | left + 1, h, s =>
    let first := left + 1 = n
    let last := left = 0
    let len := if last then flen - size * (n - 1) else size
    let w1 := 2 ^ 31 + (if first then 2 ^ 30 else 0) + (if last then 2 ^ 29 else 0) + port * 2 ^ 27 + len
    let w3 := (if last then flen * 2 ^ 16 else 0) + filter
    let s := s.portPuts 6 (base + 16 * h + 4) (bytesLE [wd w1, ts, wd w3])
    State.ringBack base mask size port filter flen n ts left ((h + 1) % mask) s

/-- A ring runs: EN is 1, SIZE is 4 to 12 and its buffers hold something (R139). -/
def State.ringOn (r : Nat) (s : State) : Bool :=
  let c := s.rd .sender (Reg.RING_CFG r)
  bit c 31 && 4 ≤ fld c 3 0 && fld c 3 0 ≤ 12 && fld c 15 8 ≠ 0

/-- A ring as a frame finds it: descriptors, their start, the next one, bytes of a buffer, MAXBUF and free buffers
(R137, R138, R140). -/
structure RingView where
  m : Nat
  base : Nat
  head : Nat
  size : Nat
  maxb : Nat
  free : Nat
  deriving DecidableEq, Repr

/-- A ring as a frame finds it. -/
def State.ring (r : Nat) (s : State) : RingView :=
  let c := s.rd .sender (Reg.RING_CFG r)
  let m := 2 ^ fld c 3 0
  let head := s.fldOf .sender (Reg.RING_HEAD r) 11 0 % m
  { m := m, base := 16 * (s.rd .sender (Reg.RING_BASE r)).toNat, head := head, size := 64 * fld c 15 8,
    maxb := fld c 27 24 + 1, free := (s.fldOf .sender (Reg.RING_TAIL r) 11 0 + m - head) % m }

/-- The buffers that a frame needs. -/
def RingView.need (v : RingView) (fr : List Byte) : Nat := (fr.length + v.size - 1) / v.size

/-- A frame fills the free buffers of a ring while it arrives, at most MAXBUF (R138, R139). -/
def State.ringSpill (r : Nat) (fr : List Byte) (s : State) : State :=
  if s.ringOn r then
    let v := s.ring r
    s.ringFill v.base v.m v.size (min (v.need fr) (min v.free v.maxb)) v.head fr
  else s

/-- A frame reaches a ring from a port, by a filter or as default (R138, R139). DESIGN CHOICE: one that needs more than
MAXBUF buffers where just MAXBUF are free meets both conditions of R139; it counts in TOOLONG. -/
def State.ringFrame (r port filter : Nat) (fr : List Byte) (ts : Word) (s : State) : State × List (Nat × Word) :=
  if s.ringOn r then
    let ⟨m, base, head, size, maxb, free⟩ := s.ring r
    let need := (s.ring r).need fr
    let s := s.ringSpill r fr
    if maxb < need && maxb ≤ free then
      evThen (s.flowCount (Reg.RING_CNT r 2) 1) fun s => (s, [(Ev.RING_TOOLONG, 0)])
    else if free < need then evThen (s.flowCount (Reg.RING_CNT r 1) 1) fun s => (s, [(Ev.RING_NOBUF, 0)])
    else
      let s := s.ringBack base m size port filter fr.length need ts need head
      let s := s.wr .sender (Reg.RING_HEAD r) (wd ((head + need) % m))
      evThen (s.flowCount (Reg.RING_CNT r 0) 1) fun s => (s, [(Ev.RING_READY r, 0)])
  else evThen (s.flowCount (Reg.RING_CNT r 1) 1) fun s => (s, [(Ev.RING_NOBUF, 0)])

/-! ### Reception (R112 to R115, R124, R125) -/

/-- A ring filter matches a frame of a port (R125). -/
def State.filterHit (i : Nat) (fr : List Byte) (e : Nat) (s : State) : Bool :=
  let w := s.rd .sender (Reg.FLOW_RF e)
  let v := fld w 15 0
  bit w 31 && bit w (24 + i) && (match fld w 30 29 with
    | 0 => Fr.type fr == v
    | 1 => Fr.isV4 fr && Fr.proto fr == v % 256
    | 2 => Fr.udpPort fr == some v
    | _ => true)

/-- The ring of a frame that no flow takes, with the filter that a descriptor records; none where it is dropped
(R124). -/
def State.ringOf (i : Nat) (fr : List Byte) (s : State) : Option (Nat × Nat) :=
  match (List.range 32).find? fun e => s.filterHit i fr e with
  | some e => some (s.fldOf .sender (Reg.FLOW_RF e) 21 16, e)
  | none =>
    if s.bitOf .sender (Reg.NET_RX_CTRL i) 6 then none else some (s.fldOf .sender (Reg.NET_RX_CTRL i) 5 0, 0x3F)

/-- A good frame that R113 accepts goes to the first destination of R124. -/
def State.classify (i : Nat) (fr : List Byte) (ts : Word) (s : State) : State × List (Nat × Word) :=
  match s.flowMatch i fr with
  | some (f, two) => s.flowPacket f two fr
  | none =>
    match s.ringOf i fr with
    | some (r, e) => s.ringFrame r i e fr ts
    | none => s.netCount i 25 1

/-- R113 accepts a frame's destination address. -/
def State.netTakes (i : Nat) (fr : List Byte) (s : State) : Bool := Fr.group fr || Fr.dst fr == s.netMac i

/-- A frame that ends with a bad FCS or a length error has filled the buffers of the ring it was bound for, unseen
(R139). -/
def State.badSpill (i : Nat) (fr : List Byte) (s : State) : State :=
  if !s.netTakes i fr || Fr.type fr = 0x8808 || (s.flowMatch i fr).isSome then s
  else match s.ringOf i fr with
    | none => s
    | some (r, _) => s.ringSpill r fr

/-- A good frame's counters: total, bytes, bucket, destination type and tag, from counter `base` on (R119). -/
def State.netGood (i base : Nat) (fr : List Byte) (tag : Bool) (s : State) : State × List (Nat × Word) :=
  let len := fr.length + 4
  let x := evThen (s.netCount i base 1) (State.netCount i (base + 1) len)
  let x := evThen x (State.netCount i (base + 2 + sizeBucket len) 1)
  let x := evThen x (State.netCount i (base + 11 + Fr.kind fr) 1)
  if tag && Fr.tagged fr then evThen x (State.netCount i (base + 14) 1) else x

/-- A frame ends on a port whose link is up (R113 to R115, R119, R124). -/
def State.netRx (i : Nat) (fr : List Byte) (fcs : Bool) (lag : Word) (s : State) : State :=
  evRaise .sender
    (let len := fr.length + 4
    if len < 64 then (s.badSpill i fr).netCount i (if fcs then 17 else 18) 1
    else if s.maxLen i < len then (s.badSpill i fr).netCount i (if fcs then 19 else 20) 1
    else if !fcs then (s.badSpill i fr).netCount i 16 1
    else if Fr.type fr = 0x8808 then s.netCount i 15 1
    else
      evThen (s.netGood i 0 fr true) fun s =>
        if s.netTakes i fr then
          s.classify i fr (s.wall .sender - lag + s.rd .sender (Reg.TIME_RX_ADJ i))
        else s.netCount i 24 1)

/-- `NET_STAT` under the link conditions given (R112, R118). -/
def netStat (lanes : Nat) (align fec hiBer lf rf : Bool) : Word :=
  let up := lanes = 15 && align && fec && !hiBer && !lf && !rf
  wd (rf.toNat * 2 ^ 10 + lf.toNat * 2 ^ 9 + hiBer.toNat * 2 ^ 8 + lanes * 2 ^ 4 + align.toNat * 2 + up.toNat)

/-- The link conditions of a port change (R112): while LINK is 0 the port sends remote fault if it detects a local fault,
otherwise idles. -/
def State.netLink (i : Nat) (lanes : Nat) (align fec hiBer lf rf inRx : Bool) (s : State) : State :=
  let was := s.rd .sender (Reg.NET_STAT i)
  let up := bit (netStat lanes align fec hiBer lf rf) 0
  let s := s.wr .sender (Reg.NET_STAT i) (netStat lanes align fec hiBer lf rf)
  let s := if up then s else s.emit (.netFill i lf)
  let x : State × List (Nat × Word) := (s, (if bit was 0 = up then [] else [(Ev.NET_LINK i, 0)]) ++
    (if hiBer && !bit was 8 then [(Ev.NET_RX_ERR i, 0)] else []))
  evRaise .sender (if bit was 0 && !up && inRx then evThen x (State.netCount i 16 1) else x)

/-- `NET_CTRL` is written (R118): a port that is not enabled has no link. Whether its link, if it was up, falls within a
frame in reception (R112) is an open value. -/
def State.netCtrlWrite (i : Nat) (v : Word) (s : State) : State :=
  let s := s.wr .sender (Reg.NET_CTRL i) (v &&& 3)
  if bit v 0 then s
  else if s.netUp i then
    let (x, s) := s.free 14
    s.netLink i 0 false false false false false (bit x 0)
  else s.netLink i 0 false false false false false false

/-! ### Transmission (R116, R117) -/

/-- A transmit ring has a frame waiting (R117, R118). -/
def State.txWaits (i t : Nat) (s : State) : Bool :=
  let c := s.rd .sender (Reg.NET_TXR_CFG i t)
  let m := 2 ^ fld c 3 0
  bit c 31 && 4 ≤ fld c 3 0 && fld c 3 0 ≤ 12 &&
    (s.fldOf .sender (Reg.NET_TXR_TAIL i t) 11 0 + m - s.fldOf .sender (Reg.NET_TXR_HEAD i t) 11 0 % m) % m ≠ 0

/-- A frame is sent on a port: padded to 60 bytes and counted, or, poisoned, ended with an inverted FCS (R116, R190). -/
def State.netSend (i : Nat) (bs : List Byte) (poisoned : Bool) (s : State) : State × List (Nat × Word) :=
  let pad := List.replicate (60 - bs.length) (0 : Byte)
  let s := s.emit (.frame i (bs ++ pad) poisoned)
  let x := if poisoned then s.netCount i 47 1 else s.netGood i 32 (bs ++ pad) false
  if pad.isEmpty then x else evThen x (State.netCount i 46 1)

/-- The next frame of a transmit ring is sent or refused, and its descriptor written back (R116, R117). -/
def State.txFrame (i t : Nat) (poisoned : Bool) (lag : Word) (s : State) : State :=
  let m := 2 ^ fld (s.rd .sender (Reg.NET_TXR_CFG i t)) 3 0
  let head := s.fldOf .sender (Reg.NET_TXR_HEAD i t) 11 0 % m
  let d := 16 * (s.rd .sender (Reg.NET_TXR_BASE i t)).toNat + 16 * head
  let s := s.portUse 7 (unitSpan d 16)
  let w1 := s.fmWord (d + 4)
  let len := fld w1 13 0
  let refused := decide (s.maxLen i - 4 < len)
  let a := 16 * (s.fmWord d).toNat
  let x :=
    if refused then s.netCount i 47 1
    else (s.portUse 7 (unitSpan a len)).netSend i (State.fmBytes a s len) poisoned
  let x := evThen x fun s =>
    let w := putBit (putBit w1 31 true) 30 (bit w1 30 || refused)
    ((s.portPuts 7 (d + 4) (bytesLE [w])).wr .sender (Reg.NET_TXR_HEAD i t) (wd ((head + 1) % m)), [])
  let tsid := fld (s.fmWord (d + 8)) 15 0
  let s := evRaise .sender x
  if bit w1 29 && !refused then s.txqPush i (s.wall .sender - lag + s.rd .sender (Reg.TIME_TX_ADJ i)) (wd tsid) else s

/-! ### Snapshots (R121, R136) -/

/-- The counters at consecutive addresses are copied to others and cleared. -/
def State.snapCopy (src dst : Nat) : List Nat → State → State
  | [], s => s
  | j :: js, s => State.snapCopy src dst js ((s.wr .sender (dst + 4 * j) (s.rd .sender (src + 4 * j))).wr .sender (src + 4 * j) 0)

/-- `NET_SNAP` (R121). -/
def State.netSnap (i : Nat) (s : State) : State :=
  let s := s.snapCopy (Reg.NET_CNT i 0) (Reg.NET_SNAPV i 0) (List.range 64)
  (s.bump .sender (Reg.NET_SNAP_GEN i) 1).raise .sender (Ev.NET_SNAP_DONE i)

/-- `FLOW_SNAP` (R136). -/
def State.flowSnap (s : State) : State := s.snapCopy 0x94000 0x95000 (List.range 512)

/-! ### Commits (R135) -/

/-- What a change of makes a flow abandon its open frames: enable, format, size, base, pitch, stride and NBUF (R135). -/
def State.flowKey (f : Nat) (s : State) : List Word :=
  [s.rd .sender (Reg.FLOW_CTRL f) &&& 0x800F0000, s.rd .sender (Reg.FLOW_FMT f), s.rd .sender (Reg.FLOW_SIZE f),
   s.rd .sender (Reg.FLOW_BASE f), s.rd .sender (Reg.FLOW_PITCH f), s.rd .sender (Reg.FLOW_BUFSZ f)]

/-- The line tallies in use (R134, R136). -/
def State.tallyUsed (s : State) : Nat :=
  (List.range 16).foldl (fun n f => if s.bitOf .sender (Reg.FLOW_CTRL f) 31 then n + s.flowH f * (s.flowN f - 2) else n) 0

/-- After a commit that names FLOW has applied: flows that changed abandon their open frames and release the buffer
that is held (R135, R200). `before` gives their keys before the commit. DESIGN CHOICE: R135 names neither the map of sequence
numbers nor the rotation; the map is kept, and the rotation starts at buffer 0. -/
def State.flowLand (before : List (List Word)) (s : State) : State :=
  let s := (List.range 16).foldl (fun s f =>
    if before.getD f [] = s.flowKey f then s
    else
      let s := s.updFlow f fun w => { w with frames := [], closed := [], next := 0, held := none }
      let s := s.wrBit .sender (Reg.FLOW_LATEST_STALE f) 31 false
      s.flowShow f) s
  s.wr .sender Reg.FLOW_TALLY_USED (wd s.tallyUsed)

/-! ### The commands -/

/-- A port has a wake pattern enabled (R123). -/
def State.wakePort (i : Nat) (s : State) : Bool :=
  (List.range 8).any fun k => s.bitOf .sender (Reg.NET_WCFG i k) 31

/-- NET_LINK (R112): a port that is not enabled has no link. In the low-power state a port with a wake pattern keeps its
receive path, and nothing is counted or raised (R123). -/
def execNetLink (i : Fin 4) (lanes : BitVec 4) (align fec hiBer lf rf inRx : Bool) (s : State) :
    Host.Outcome State Fault Refusal :=
  .next (
    if s.sender.phase = .low then
      if s.bitOf .sender (Reg.NET_CTRL i.val) 0 && s.wakePort i.val then
        s.wr .sender (Reg.NET_STAT i.val) (netStat lanes.toNat align fec hiBer lf rf)
      else s
    else s.when' .sender fun s =>
      if s.bitOf .sender (Reg.NET_CTRL i.val) 0 then s.netLink i.val lanes.toNat align fec hiBer lf rf inRx else s)

/-- The frame whose merge timer has run out, oldest first (R131). -/
def State.mergeDue (f : Nat) (s : State) : Option OpenFrame :=
  let win := wd (1000 * s.fldOf .sender (Reg.FLOW_MERGE f) 15 0)
  (s.flow f).frames.find? fun o => match o.timer with
    | none => false
    | some t => s.reachedAt .sender (t + win)

/-- FLOW_MERGE_TIMEOUT (R131). -/
def execFlowMergeTimeout (f : Fin 16) (s : State) : Host.Outcome State Fault Refusal :=
  .next (s.when' .sender fun s => match s.mergeDue f.val with
    | none => s
    | some o => evRaise .sender (s.flowClose f.val o))

/-- FLOW_PATH_TIMEOUT (R130): the frames that waited for a marker on this path alone close (R131). -/
def execFlowPathTimeout (f : Fin 16) (two : Bool) (s : State) : Host.Outcome State Fault Refusal :=
  .next (s.when' .sender fun s =>
    let at' := if two then (s.flow f.val).at2 else (s.flow f.val).at1
    let lim := wd (1000 * s.fldOf .sender (Reg.FLOW_MERGE f.val) 31 16)
    if s.live f.val two && s.reachedAt .sender (at' + lim) then
      evRaise .sender (evThen (s.setLive f.val two false) (State.closeMarked f.val))
    else s)

/-- RING_TAIL_WRITE (R138). -/
def execRingTailWrite (r : Fin 64) (v : Word) (s : State) : Host.Outcome State Fault Refusal :=
  .next (s.when' .sender fun s => s.wr .sender (Reg.RING_TAIL r.val) (v &&& 0xFFF))

/-- NET_SNAP (R121). -/
def execNetSnap (i : Fin 4) (s : State) : Host.Outcome State Fault Refusal :=
  .next (s.when' .sender (State.netSnap i.val))

/-- FLOW_SNAP (R136). -/
def execFlowSnap (s : State) : Host.Outcome State Fault Refusal := .next (s.when' .sender State.flowSnap)

/-- NET_TXR_TAIL_WRITE (R117). -/
def execNetTxrTailWrite (i : Fin 4) (t : Fin 2) (v : Word) (s : State) : Host.Outcome State Fault Refusal :=
  .next (s.when' .sender fun s => s.wr .sender (Reg.NET_TXR_TAIL i.val t.val) (v &&& 0xFFF))

/-- RS_FEC_CODEWORD (R119): counted while the port is enabled. -/
def execRsFecCodeword (i : Fin 4) (err : PcsErr) (s : State) : Host.Outcome State Fault Refusal :=
  .next (s.when' .sender fun s =>
    if s.bitOf .sender (Reg.NET_CTRL i.val) 0 then
      evRaise .sender (match err with
        | .corrected => s.netCount i.val 22 1
        | .uncorrectable => evThen (s.netCount i.val 23 1) fun s => (s, [(Ev.NET_RX_ERR i.val, 0)])
        | .badBlock => s.netCount i.val 21 1)
    else s)

end Sys2Proof.Machine
end

