-- ==== Sys2Proof/Machine/Compose.lean ====
section
/-!
DEFINITION. Layers, scaling and blending (R198 to R214) and the colour stages (R223 to R235): what a canvas pixel of a
composition is, from the contents of frame memory to wall code.
-/

namespace Sys2Proof.Machine

/-! ### Layer descriptors (R198, R199) -/

/-- `LYR_CTRL[d]`. -/
def State.lyr (d : Nat) (s : State) : Word := s.rd .sender (Reg.LYR_CTRL d)

/-- A descriptor is enabled. -/
def State.lyrOn (d : Nat) (s : State) : Bool := bit (s.lyr d) 31

/-- The source flow of a descriptor, none for a graphics source (R198). -/
def State.lyrFlow (d : Nat) (s : State) : Option Nat := if bit (s.lyr d) 30 then none else some (fld (s.lyr d) 11 8)

/-- A rectangle: left, top, width and height. -/
structure Rect where
  x : Int
  y : Int
  w : Nat
  h : Nat
  deriving DecidableEq, Repr

/-- Two rectangles have a pixel in common. -/
def Rect.meets (a b : Rect) : Bool :=
  0 < a.w && 0 < a.h && 0 < b.w && 0 < b.h && a.x < b.x + b.w && b.x < a.x + a.w && a.y < b.y + b.h && b.y < a.y + a.h

/-- A pixel lies in a rectangle. -/
def Rect.has (r : Rect) (x y : Int) : Bool := r.x ≤ x && x < r.x + r.w && r.y ≤ y && y < r.y + r.h

/-- The destination rectangle of a descriptor on the canvas (R198). -/
def State.lyrDst (d : Nat) (s : State) : Rect :=
  let xy := s.rd .sender (Reg.LYR_DST_XY d)
  let wh := s.rd .sender (Reg.LYR_DST_WH d)
  ⟨sfld xy 15 0, sfld xy 31 16, fld wh 13 0, fld wh 29 16⟩

/-- The crop of a descriptor in its source (R198). -/
def State.lyrCrop (d : Nat) (s : State) : Rect :=
  let xy := s.rd .sender (Reg.LYR_CROP_XY d)
  let wh := s.rd .sender (Reg.LYR_CROP_WH d)
  ⟨(fld xy 13 0 : Nat), (fld xy 29 16 : Nat), fld wh 13 0, fld wh 29 16⟩

/-- The canvas rectangle of a position of a chain (R242). -/
def State.posRect (k p : Nat) (s : State) : Rect :=
  let xy := s.rd .sender (Reg.CHN_POS_XY k p)
  let c := s.rd .sender (Reg.CHN_CTRL k)
  ⟨(fld xy 13 0 : Nat), (fld xy 29 16 : Nat), 256, if bit c 24 then 4 * fld c 21 16 else 128⟩

/-- The canvas (R198). -/
def State.canvas (s : State) : Rect :=
  let c := s.rd .sender Reg.CMP_CANVAS
  ⟨0, 0, fld c 13 0, fld c 29 16⟩

/-- A descriptor shows in a slot (R199). -/
def State.lyrShows (d slot : Nat) (s : State) : Bool := s.lyrOn d && bit (s.lyr d) (16 + slot) && slot < s.slots .sender

/-- A descriptor's rectangle meets the chain area (R205). -/
def State.lyrMeets (d k : Nat) (s : State) : Bool :=
  (List.range (s.chainLen k)).any fun p => (s.lyrDst d).meets (s.posRect k p)

/-- The layers that are given units in a composition of a chain, in ascending descriptor number (R206). -/
def State.compLayers (k slot : Nat) (s : State) : List Nat :=
  (List.range 64).filter fun d => s.lyrShows d slot && s.lyrMeets d k

/-! ### Source pixels (R200 to R203, R225 to R229) -/

/-- A pixel as the layer unit passes it to scaling. -/
structure Rgba where
  r : LF
  g : LF
  b : LF
  a : LF
  deriving DecidableEq, Repr

/-- Transparent black (R190, R201). -/
def Rgba.clear : Rgba := ⟨0, 0, 0, 0⟩

/-- n ÷ d as LF24 (R224, R226). -/
def lfFrac (n : Int) (d : Nat) : LF := roundLF ⟨n, d, 0⟩

/-- A constant n × 2⁻¹⁴ as LF24 (R226, R229). -/
def lf14 (n : Int) : LF := roundLF ⟨n, 1, -14⟩

/-- Sample k, of n bits, of a pgroup of P bytes (R128, R203). -/
def pgSample (p n : Nat) (bs : List Byte) (k : Nat) : Nat := natBE bs / 2 ^ (8 * p - n * (k + 1)) % 2 ^ n

/-- Normalisation of a luma or colour sample of n bits (R226). -/
def normY (full : Bool) (n v : Nat) : LF :=
  if full then lfFrac v (2 ^ n - 1) else lfFrac ((v : Int) - 16 * 2 ^ (n - 8)) (219 * 2 ^ (n - 8))

/-- Normalisation of a chroma sample of n bits (R226). -/
def normC (full : Bool) (n v : Nat) : LF :=
  if full then lfFrac ((v : Int) - 2 ^ (n - 1)) (2 ^ n - 1)
  else lfFrac ((v : Int) - 128 * 2 ^ (n - 8)) (224 * 2 ^ (n - 8))

/-- Conversion from Y′CbCr; the constants in units of 2⁻¹⁴ (R226). -/
def fromYcc (mtx : Nat) (y cb cr : LF) : LF × LF × LF :=
  let c : Int × Int × Int × Int := if mtx = 1 then (25802, -3069, -7670, 30402) else (24160, -2696, -9361, 30825)
  (LF.fma y (lf14 c.1) cr, LF.fma (LF.fma y (lf14 c.2.1) cb) (lf14 c.2.2.1) cr, LF.fma y (lf14 c.2.2.2) cb)

/-- A value clamped to 0 to 1 (R203, R227). -/
def LF.clamp01 (x : LF) : LF := if LF.lt x LF.zero then LF.zero else if LF.lt LF.one x then LF.one else x

/-- An LF24 register field. -/
def State.rdLF (a : Nat) (s : State) : LF := (s.rd .sender a).setWidth 24

/-- The transfer table of a profile (R227). -/
def State.tfAt (n i : Nat) (s : State) : LF := if i < 1024 then s.rdLF (Reg.CLR_TF n i) else s.rdLF (Reg.CLR_TF_END n)

/-- Transfer decode of a component (R227). -/
def State.transfer (n : Nat) (v : LF) (s : State) : LF :=
  let v := LF.clamp01 v
  let x : Exact := ⟨v.val.n, v.val.d, v.val.e + 10⟩
  let (a, b) := scale2 x.n.toNat x.d x.e
  let i := a / b
  if 1024 ≤ i then s.tfAt n 1024
  else
    let w := lfFrac ((a % b : Nat) : Int) b
    LF.fma (s.tfAt n i) w (LF.sub (s.tfAt n (i + 1)) (s.tfAt n i))

/-- A sum of three products in the order of R224. -/
def lfDot (a0 b0 a1 b1 a2 b2 : LF) : LF := LF.fma (LF.fma (LF.mul a0 b0) a1 b1) a2 b2

/-- One exact value is at or below another; denominators are positive. -/
def Exact.le (a b : Exact) : Bool := (a.add b.neg).n ≤ 0

/-- A power of an LF24 value, exactly. -/
def LF.pow (x : LF) (k : Nat) : Exact := ⟨x.val.n ^ k, 1, x.val.e * k⟩

/-- An LF24 value lies within a relative error below 2⁻¹⁵ of Ys^(γ − 1), for GAMMA = 100 × γ at or above 100 (R228). Both
are raised to the power 100, which makes them exact. -/
def ootfOk (ys f : LF) (gamma : Nat) : Bool :=
  let y := ys.pow (gamma - 100)
  let f := (f.pow 100).mul ⟨1, 1, 1500⟩
  let low : Exact := y.mul ⟨32767 ^ 100, 1, 0⟩
  let high : Exact := y.mul ⟨32769 ^ 100, 1, 0⟩
  !f.le low && !high.le f

/-- The largest LF24 value at or below Ys^(γ − 1). -/
def ootfFloor (ys : LF) (gamma : Nat) : LF :=
  let y := ys.pow (gamma - 100)
  BitVec.ofNat 24 ((List.range 23).foldl (fun v i =>
    let w := v + 2 ^ (22 - i)
    if (LF.pow (BitVec.ofNat 24 w) 100).le y then w else v) 0)

/-- The factor of the OOTF for Ys above 0 (R228): the circuit's own value, which the rule bounds and does not give. -/
def ootfFactor (ys : LF) (gamma : Nat) : LF :=
  let f := Config.ootfPower ys gamma
  if 0 < (LF.val f).n && ootfOk ys f gamma then f else ootfFloor ys gamma

/-- The stages after normalisation: transfer, OOTF, gain and matrix of a profile (R225, R227 to R229). -/
def State.colour (n : Nat) (c : LF × LF × LF) (s : State) : LF × LF × LF :=
  let ctl := s.rd .sender (Reg.CLR_PROF_CTRL n)
  let (r, g, b) := if bit ctl 0 then c else (s.transfer n c.1, s.transfer n c.2.1, s.transfer n c.2.2)
  let (r, g, b) :=
    if bit ctl 28 then
      let ys := lfDot (roundLF ⟨2627, 10000, 0⟩) r (roundLF ⟨6780, 10000, 0⟩) g (roundLF ⟨593, 10000, 0⟩) b
      let f := if ys.val.n ≤ 0 then LF.zero else ootfFactor ys (fld ctl 23 16)
      (LF.mul r f, LF.mul g f, LF.mul b f)
    else (r, g, b)
  let k := s.rdLF (Reg.CLR_PROF_GAIN n)
  let (r, g, b) := (LF.mul r k, LF.mul g k, LF.mul b k)
  let m := fun i j => lf14 (sfld (s.rd .sender (Reg.CLR_MTX n i j)) 16 0)
  let row := fun i => lfDot (m i 0) r (m i 1) g (m i 2) b
  (row 0, row 1, row 2)

/-- The colour profile of a descriptor (R225). -/
def State.lyrProf (d : Nat) (s : State) : Nat := s.fldOf .sender (Reg.LYR_CLR d) 2 0

/-- A pixel of a flow's buffer, after the layer-unit stages (R200, R225). -/
def State.flowPixel (d f buf row col : Nat) (s : State) : Rgba :=
  let (p, c) := s.flowP f
  let fmt := s.rd .sender (Reg.FLOW_FMT f)
  let samp := fld fmt 31 30
  let bits := if fld fmt 29 28 = 0 then 10 else if fld fmt 29 28 = 1 then 12 else 16
  let line := s.flowBuf f buf + row * s.flowPitch f
  let pg := fun (g : Nat) => State.fmBytes (line + g * p) s p
  let n := s.lyrProf d
  let ctl := s.rd .sender (Reg.CLR_PROF_CTRL n)
  let full := bit ctl 4
  let v := pg (col / c)
  let k := pgSample p bits v
  let rgb :=
    if samp = 0 then
      let y := k (1 + 2 * (col % 2))
      let (cb, cr) :=
        if bit (s.lyr d) 24 && col % 2 = 1 && col + 1 < s.flowW f then
          let q := pgSample p bits (pg (col / c + 1))
          ((k 0 + q 0 + 1) / 2, (k 2 + q 2 + 1) / 2)
        else (k 0, k 2)
      fromYcc (fld ctl 9 8) (normY full bits y) (normC full bits cb) (normC full bits cr)
    else
      let j := 3 * (col % c)
      if samp = 1 then
        fromYcc (fld ctl 9 8) (normY full bits (k (j + 1))) (normC full bits (k j)) (normC full bits (k (j + 2)))
      else (normY full bits (k j), normY full bits (k (j + 1)), normY full bits (k (j + 2)))
  let (r, g, b) := s.colour n rgb
  ⟨r, g, b, LF.one⟩

/-- Bytes of a pixel of a graphics format (R203). -/
def gfmtBytes (g : Nat) : Nat := if g < 2 then 4 else 8

/-- A half-precision alpha: clamped to 0 to 1, a NaN taken as 0 (R203). -/
def halfAlpha (h : BitVec 16) : LF := LF.clamp01 (lfOfHalf h)

/-- A pixel of a graphics source, after the layer-unit stages (R203, R225). -/
def State.gfxPixel (d row col : Nat) (s : State) : Rgba :=
  let g := fld (s.lyr d) 2 0
  let a := 64 * (s.rd .sender (Reg.LYR_GBASE d)).toNat + row * s.fldOf .sender (Reg.LYR_GPITCH d) 19 0 + col * gfmtBytes g
  let n := s.lyrProf d
  let full := bit (s.rd .sender (Reg.CLR_PROF_CTRL n)) 4
  let w0 := s.fmWord a
  let w1 := s.fmWord (a + 4)
  let h := fun (w : Word) (hi : Bool) => (if hi then w.extractLsb' 16 16 else w.extractLsb' 0 16 : BitVec 16)
  let (rgb, al) :=
    if g = 0 then
      ((normY full 8 (fld w0 7 0), normY full 8 (fld w0 15 8), normY full 8 (fld w0 23 16)), lfFrac (fld w0 31 24 : Nat) 255)
    else if g = 1 then
      ((normY full 10 (fld w0 9 0), normY full 10 (fld w0 19 10), normY full 10 (fld w0 29 20)), lfFrac (fld w0 31 30 : Nat) 3)
    else if g = 2 then
      ((normY full 16 (fld w0 15 0), normY full 16 (fld w0 31 16), normY full 16 (fld w1 15 0)),
       lfFrac (fld w1 31 16 : Nat) 65535)
    else ((lfOfHalf (h w0 false), lfOfHalf (h w0 true), lfOfHalf (h w1 false)), halfAlpha (h w1 true))
  let (r, g, b) := s.colour n rgb
  ⟨r, g, b, al⟩

/-- The buffer that a flow layer shows (R200, R202). -/
def State.heldBuf (f : Nat) (s : State) : Option Nat := (s.flow f).held.map Prod.fst

/-- The held buffer holds a frame that is still open (R202). -/
def State.heldOpen (f : Nat) (s : State) : Bool :=
  match s.heldBuf f with
  | none => false
  | some b => (s.flow f).frames.any fun o => o.buf = b

/-- A line of the held buffer is stale: missed while its frame was open, or, once the frame has closed, by its
line-status map (R201, R202). -/
def State.lineStale (d f buf : Nat) (missed : List (Nat × Nat)) (row : Nat) (s : State) : Bool :=
  missed.contains (d, row) ||
    !s.heldOpen f && (s.fmByte (s.flowBuf f buf + s.flowPitch f * s.flowH f + row / 8)).getLsbD (row % 8)

/-- The line read in place of a line: itself, the nearest above that is not stale, or none where the line is
transparent (R201). -/
def State.rowShown (d f buf : Nat) (missed : List (Nat × Nat)) (row : Nat) (s : State) : Option Nat :=
  if s.lineStale d f buf missed row then
    match fld (s.lyr d) 28 27 with
    | 0 => some row
    | 1 => ((List.range row).reverse).find? fun r => !s.lineStale d f buf missed r
    | _ => none
  else some row

/-- A source pixel of a layer that scaling reads: premultiplied by its alpha where that is straight, alpha 1 where the
mode is opaque, transparent where it is stale or poisoned (R190, R201, R212). -/
def State.sample (d : Nat) (c : Comp) (row col : Nat) (s : State) : Rgba :=
  let mode := fld (s.lyr d) 26 25
  let bad := fun (r : Nat) => c.poison.any fun q => q.1 = d && q.2.1 = r && q.2.2.1 ≤ col && col ≤ q.2.2.2
  let seen : Option Rgba := match s.lyrFlow d with
    | none => if bad row then none else some (s.gfxPixel d row col)
    | some f =>
      match s.heldBuf f with
      | none => none
      | some b =>
        match s.rowShown d f b c.missed row with
        | none => none
        | some r => if bad r then none else some (s.flowPixel d f b r col)
  match seen with
  | none => Rgba.clear
  | some v =>
    if mode = 0 then { v with a := LF.one }
    else if mode = 1 then { v with r := LF.mul v.r v.a, g := LF.mul v.g v.a, b := LF.mul v.b v.a }
    else v

/-! ### Scaling (R208, R209, R211) -/

/-- A step, 16.16: source size × 65,536 ÷ destination size (R208). -/
def stepOf (crop dst : Nat) : Nat := crop * 65536 / dst

/-- The source position of a canvas column or row, 16.16 (R208). -/
def srcPos (x dx : Int) (step org : Nat) : Int := asr ((2 * (x - dx) + 1) * step - 65536) 1 + 65536 * org

/-- Its integer part, and its phase (R208). -/
def srcInt (u : Int) : Int := asr u 16
def srcPhase (u : Int) : Nat := (u / 1024 % 64).toNat

/-- A tap's column or row, held inside the crop (R208). -/
def tapAt (i : Int) (org n : Nat) : Nat := (clampI i org ((org : Int) + n - 1)).toNat

/-- A coefficient of a bank: horizontal tap t of 8, or vertical tap t of 4, at a phase (R209, R221). -/
def State.coef (bank : Nat) (vert : Bool) (phase t : Nat) (s : State) : LF :=
  let x := 384 * bank + (if vert then 256 + 2 * phase else 4 * phase) + t / 2
  let w := s.rd .sender (Reg.CMP_COEF x)
  roundLF ⟨if t % 2 = 0 then sfld w 11 0 else sfld w 27 16, 1, -10⟩

/-- A weighted sum in tap order, each multiply-add rounded once (R209). -/
def tapSum : List (LF × LF) → LF
  | [] => LF.zero
  | (v, c) :: l => l.foldl (fun p x => LF.fma p x.1 x.2) (LF.mul v c)

/-- A weighted sum of pixels in tap order (R209). -/
def tapSumPx (l : List (Rgba × LF)) : Rgba :=
  ⟨tapSum (l.map fun x => (x.1.r, x.2)), tapSum (l.map fun x => (x.1.g, x.2)), tapSum (l.map fun x => (x.1.b, x.2)),
   tapSum (l.map fun x => (x.1.a, x.2))⟩

/-- A layer's sample at a canvas pixel (R208, R209). -/
def State.scaled (d : Nat) (c : Comp) (x y : Int) (s : State) : Rgba :=
  let crop := s.lyrCrop d
  let dst := s.lyrDst d
  let bank := fld (s.lyr d) 13 12
  let u := srcPos x dst.x (stepOf crop.w dst.w) crop.x.toNat
  let v := srcPos y dst.y (stepOf crop.h dst.h) crop.y.toNat
  tapSumPx ((List.range 4).map fun (t : Nat) =>
    let row := tapAt (srcInt v - 1 + t) crop.y.toNat crop.h
    (tapSumPx ((List.range 8).map fun (q : Nat) =>
      let col := tapAt (srcInt u - 3 + q) crop.x.toNat crop.w
      (s.sample d c row col, s.coef bank false (srcPhase u) q)),
     s.coef bank true (srcPhase v) t))

/-! ### Blending (R212) -/

/-- A layer blended over what lies below (R212): the coverage of an opaque layer is its own alpha, whatever its sample
is. -/
def State.blendOne (c : Comp) (x y : Int) (out : LF × LF × LF) (d : Nat) (s : State) : LF × LF × LF :=
  if (s.lyrDst d).has x y then
    let v := s.scaled d c x y
    let al := lfFrac (s.fldOf .sender (Reg.LYR_OPAC d) 15 0 : Nat) 65535
    let rest := LF.sub LF.one (if fld (s.lyr d) 26 25 = 0 then al else LF.mul v.a al)
    (LF.fma (LF.mul v.r al) rest out.1, LF.fma (LF.mul v.g al) rest out.2.1, LF.fma (LF.mul v.b al) rest out.2.2)
  else out

/-- The layers that have units in a composition, in ascending descriptor number, but for flow layers without a buffer
(R200, R206). -/
def State.shown (c : Comp) (s : State) : List Nat :=
  (c.units.map Prod.fst).filter fun d => match s.lyrFlow d with
    | none => true
    | some f => (s.heldBuf f).isSome

/-- A canvas pixel of a composition in linear light (R212). -/
def State.blend (c : Comp) (x y : Int) (s : State) : LF × LF × LF :=
  (s.shown c).foldl (fun out d => s.blendOne c x y out d) (LF.zero, LF.zero, LF.zero)

/-! ### Tone mapping and wall code (R231, R233) -/

/-- Entry i of a tone bank (R231). -/
def State.toneAt (b i : Nat) (s : State) : LF := if i < 512 then s.rdLF (Reg.CLR_TONE b i) else s.rdLF (Reg.CLR_TONE_END b)

/-- f(m) of the tone curve, and whether m is 4.0 or above (R231). -/
def State.toneF (b : Nat) (m : LF) (s : State) : LF × Bool :=
  let e := m.toNat / 2 ^ 15 % 256
  let f := m.toNat % 2 ^ 15
  if m.isZero then (LF.zero, false)
  else if e < 97 then
    let t := (s.toneAt b 0).val
    (LF.mul m (roundLF ⟨t.n, t.d, t.e + 30⟩), false)
  else if e < 129 then
    let i := (e - 97) * 16 + f / 2048
    (LF.fma (s.toneAt b i) (lfFrac (f % 2048 : Nat) 2048) (LF.sub (s.toneAt b (i + 1)) (s.toneAt b i)), false)
  else (s.toneAt b 512, true)

/-- The largest code c below `hi`, from `lo` on, with `CLR_ENC[c]` at or below x; the thresholds rise (R233, R238). -/
def State.encode (x : Nat) : Nat → Nat → Nat → State → Nat
  | 0, lo, _, _ => lo
  | n + 1, lo, hi, s =>
    if hi ≤ lo + 1 then lo
    else
      let mid := (lo + hi) / 2
      if s.fldOf .sender (Reg.CLR_ENC mid) 19 0 ≤ x then State.encode x n mid hi s else State.encode x n lo mid s

/-- The wall code of a component in 0 to 1 (R233). -/
def State.wallCode (v : LF) (s : State) : Nat := s.encode (LF.toNatScaled v 1048575) 15 0 16384

/-- A pixel as it leaves the output stages: the 42-bit word (R << 28) | (G << 14) | B, and whether it counts in
`CLR_NEG` and in `CLR_OVER` (R231, R233, R248). -/
def State.pixelOut (c : Comp) (x y : Int) (s : State) : Nat × Bool × Bool :=
  let (r, g, b) := s.blend c x y
  let cut := fun (v : LF) => if LF.lt v LF.zero then LF.zero else v
  let negv := LF.lt r LF.zero || LF.lt g LF.zero || LF.lt b LF.zero
  let (r, g, b) := (cut r, cut g, cut b)
  let m := LF.max (LF.max r g) b
  let bank := (s.bitOf .sender Reg.CLR_CTRL c.slot).toNat
  let (f, above) := s.toneF bank m
  let gain := if m.isZero then LF.zero else LF.div f m
  let code := fun (v : LF) => s.wallCode (LF.mul v gain)
  (code r * 2 ^ 28 + code g * 2 ^ 14 + code b, negv, above)

/-! ### Poisoned units (R190, R201) -/

/-- The source of a layer in frame memory: its base, pitch, bytes and pixels of a pgroup. -/
def State.lyrSource (d : Nat) (s : State) : Option (Nat × Nat × Nat × Nat) :=
  match s.lyrFlow d with
  | none =>
    some (64 * (s.rd .sender (Reg.LYR_GBASE d)).toNat, s.fldOf .sender (Reg.LYR_GPITCH d) 19 0,
      gfmtBytes (fld (s.lyr d) 2 0), 1)
  | some f => (s.heldBuf f).map fun b => (s.flowBuf f b, s.flowPitch f, (s.flowP f).1, (s.flowP f).2)

/-- The source columns that the pixels of a position take from a layer, first and last; none where the layer shows in no
column of it (R208). -/
def State.posCols (k p d : Nat) (s : State) : Option (Nat × Nat) :=
  let pos := s.posRect k p
  let dst := s.lyrDst d
  let crop := s.lyrCrop d
  let a := max pos.x dst.x
  let b := min (pos.x + pos.w) (dst.x + dst.w) - 1
  if b < a || !(dst.meets pos) then none
  else
    let at' := fun (x : Int) => srcInt (srcPos x dst.x (stepOf crop.w dst.w) crop.x.toNat)
    some (tapAt (at' a - 3) crop.x.toNat crop.w, tapAt (at' b + 4) crop.x.toNat crop.w)

/-- The source columns that the pipe of a chain takes from a layer, as ranges (R208). -/
def State.pipeCols (k d : Nat) (s : State) : List (Nat × Nat) :=
  (List.range (s.chainLen k)).filterMap fun p => s.posCols k p d

/-- A source column lies in one of some ranges. -/
def inCols (l : List (Nat × Nat)) (col : Nat) : Bool := l.any fun r => r.1 ≤ col && col ≤ r.2

/-- The units that hold the bytes the pipe of a chain takes from a source row of a layer. -/
def State.lineUnits (k d row : Nat) (s : State) : List Nat :=
  match s.lyrSource d with
  | none => []
  | some (base, pitch, p, c) =>
    ((s.pipeCols k d).flatMap fun r =>
      unitSpan (base + row * pitch + r.1 / c * p) ((r.2 / c + 1 - r.1 / c) * p)).eraseDups

/-- The source pixels of a layer that take bytes from a unit: their row, and first and last column. -/
def State.pixelsOf (d unit : Nat) (s : State) : Option (Nat × Nat × Nat) :=
  match s.lyrSource d with
  | none => none
  | some (base, pitch, p, c) =>
    let crop := s.lyrCrop d
    if 64 * unit + 63 < base || pitch = 0 then none
    else
      let o := 64 * unit - base
      let row := o / pitch
      let lo := max (o % pitch / p * c) crop.x.toNat
      let hi := min (((64 * unit + 63 - base) - row * pitch) / p * c + c - 1) (crop.x.toNat + crop.w - 1)
      if (row : Int) < crop.y || crop.y + crop.h ≤ row || hi < lo then none else some (row, lo, hi)

end Sys2Proof.Machine
end

