-- ==== Sys2Proof/Machine/Pixel.lean ====
section
/-!
DEFINITION. The tile's reception and presentation of frames (R318 to R329): PIX, ABORT, SYNC, SIG, the swap
of the sets, slot windows, the standby checks (R313); the correction banks and their window (R334 to R338,
R340), with the meaning of each command.
-/

namespace Sys2Proof.Machine

/-! ### The open frame (R319, R342) -/

/-- The receive set's state: 0 IDLE, 1 OPEN, 2 CLOSED (R342). -/
def State.rxState (s : State) : Nat := s.fldOf .tile Reg.PIX_STAT 31 30

/-- The sender an open frame is bound to (R301, R342). -/
def State.rxBound (s : State) : Option Letter :=
  match s.fldOf .tile Reg.PIX_STAT 25 24 with
  | 1 => some .a
  | 2 => some .b
  | _ => none

/-- `a` is a later frame than `b` (R319). -/
def laterFrame (a b : Word) : Bool := 0 < (a - b).toInt

/-- Where a packet's 64 pixels stand in a set. -/
def pixKey (slot row colg : Nat) : Nat := 512 * slot + 4 * row + colg

/-- ROW of a PIX (R279). -/
def Pkt.row (k : Packet) : Nat := fld (Pkt.w k 1) 31 25
/-- COLG of a PIX (R279). -/
def Pkt.colg (k : Packet) : Nat := fld (Pkt.w k 1) 24 23

/-- Pixel i of a PIX payload, a 42-bit wall-code word (R280). -/
def payloadPixel (ws : List Word) (i : Nat) : Nat := natOfWordsBE ws / 2 ^ (2688 - 42 * (i + 1)) % 2 ^ 42

/-- The wall-code word of a pixel of a set, if its packet is valid. -/
def pixelOf (set : List (Nat × List Word)) (slot x y : Nat) : Option Nat :=
  (AMap.find set (pixKey slot y (x / 64))).map fun ws => payloadPixel ws (x % 64)

/-- Packets of a set that are missing among slots 0 to n − 1 (R319). -/
def missingOf (set : List (Nat × List Word)) (n : Nat) : Nat :=
  512 * n - (set.filter fun e => decide (e.1 < 512 * n)).length

/-- `PIX_RX_MISSING` follows the open frame (R342). -/
def State.showMissing (s : State) : State :=
  s.wr .tile Reg.PIX_RX_MISSING (if s.rxState = 0 then 0 else wd (missingOf s.til.pix.pixRx (s.slots .tile)))

/-! ### Signatures (R218, R328) -/

/-- A signature region: the tile coordinates and size of `SIG_XY` and `SIG_WH` (R217). -/
structure SigRegion where
  x0 : Nat
  y0 : Nat
  w : Nat
  h : Nat
  deriving DecidableEq, Repr

/-- The geometry of region e. -/
def State.sigRegion (e : Nat) (s : State) : SigRegion :=
  { x0 := s.fldOf .tile (Reg.SIG_XY e) 7 0, y0 := s.fldOf .tile (Reg.SIG_XY e) 22 16,
    w := s.fldOf .tile (Reg.SIG_WH e) 8 0, h := s.fldOf .tile (Reg.SIG_WH e) 23 16 }

/-- Region e is declared for this tile and slot (R328, R217). -/
def State.sigDeclared (e slot : Nat) (s : State) : Bool :=
  s.bitOf .tile (Reg.SIG_POS e) 31 && s.tilePos == some (s.fldOf .tile (Reg.SIG_POS e) 5 0) &&
  s.bitOf .tile (Reg.SIG_POS e) (16 + slot) && slot < s.slots .tile

/-- A packet holds pixels of a region. -/
def SigRegion.touches (g : SigRegion) (row colg : Nat) : Bool :=
  g.y0 ≤ row && row < g.y0 + g.h && g.x0 < 64 * (colg + 1) && 64 * colg < g.x0 + g.w

/-- A pixel lies in a region. -/
def SigRegion.has (g : SigRegion) (x y : Nat) : Bool :=
  g.x0 ≤ x && x < g.x0 + g.w && g.y0 ≤ y && y < g.y0 + g.h

/-- Every packet that holds pixels of a region is there. -/
def SigRegion.present (g : SigRegion) (set : List (Nat × List Word)) (slot : Nat) : Bool :=
  (List.range g.h).all fun j => ([0, 1, 2, 3] : List Nat).all fun c =>
    !g.touches (g.y0 + j) c || (AMap.find set (pixKey slot (g.y0 + j) c)).isSome

/-- The six bytes of a pixel, least significant first (R218). -/
def pixelBytes (w : Nat) : List Byte := (List.range 6).map fun i => BitVec.ofNat 8 (w / 256 ^ i)

/-- The signature of a region of a set (R218). -/
def SigRegion.crc (g : SigRegion) (set : List (Nat × List Word)) (slot : Nat) : Word :=
  crc32c ((List.range g.h).flatMap fun j => (List.range g.w).flatMap fun i =>
    pixelBytes ((pixelOf set slot (g.x0 + i) (g.y0 + j)).getD 0))

/-- `SIG_VAL` and its frame and slot take a signature computed (R217). -/
def State.sigVal (e slot : Nat) (frame v : Word) (s : State) : State :=
  ((s.wr .tile (Reg.SIG_VAL e) v).wr .tile (Reg.SIG_VAL_FRAME e) frame).wr .tile (Reg.SIG_VAL_SLOT e) (wd slot)

/-- A stored packet that completes a declared region gives its signature (R328). -/
def State.sigComplete (slot row colg : Nat) (frame : Word) (s : State) : State :=
  (List.range 64).foldl (fun s e =>
    let g := s.sigRegion e
    if s.sigDeclared e slot && g.touches row colg && g.present s.til.pix.pixRx slot then
      s.sigVal e slot frame (g.crc s.til.pix.pixRx slot)
    else s) s

/-! ### PIX (R319, R320) -/

/-- The standby of R313: the other sender than the holder, while there is one and SBY_EN is 1. -/
def State.standby (s : State) : Option Letter :=
  if s.bitOf .tile Reg.LOAN_CTRL 31 then s.holder.map otherLetter else none

/-- A PIX of the standby is kept for the checks of R313; one of a later frame drops those of the frame before. -/
def State.standbyPix (k : Packet) (s : State) : State :=
  if s.standby = some (letterOf (Pkt.w k 3)) then
    let f := Pkt.w k 2
    let key := pixKey (Pkt.slot k) (Pkt.row k) (Pkt.colg k)
    let ws := (Pkt.body k).drop 2
    if f = s.til.pix.sbyFrame then s.updPix fun x => { x with sbyPix := AMap.put x.sbyPix key ws }
    else if laterFrame f s.til.pix.sbyFrame || s.til.pix.sbyPix.isEmpty then
      s.updPix fun x => { x with sbyFrame := f, sbyPix := [(key, ws)] }
    else s
  else s

/-- The packet's pixels are written and its valid bit set (R319). -/
def State.pixStore (k : Packet) (s : State) : State :=
  let s := s.updPix fun x =>
    { x with pixRx := AMap.put x.pixRx (pixKey (Pkt.slot k) (Pkt.row k) (Pkt.colg k)) ((Pkt.body k).drop 2) }
  (s.sigComplete (Pkt.slot k) (Pkt.row k) (Pkt.colg k) (Pkt.w k 2)).showMissing

/-- An open frame is abandoned for a later one, with the event this raises (R320). -/
def State.abandonForLater (s : State) : State × List (Nat × Word) :=
  match s.rxState with
  | 1 => (s.rxIdle.bump .tile Reg.PIX_ABANDON 1, [(Ev.PIX_HOLD, 0)])
  | 2 => (s.rxIdle.bump .tile Reg.PIX_OVERRUN 1, [(Ev.PIX_OVERRUN, 0)])
  | _ => (s, [])

/-- A frame is opened, bound to a sender (R301, R319). -/
def State.rxOpen (l : Letter) (frame : Word) (s : State) : State :=
  let s := s.wr .tile Reg.PIX_STAT ((s.rd .tile Reg.PIX_STAT &&& 0x20000000) ||| wd (2 ^ 30 + holderCode l * 2 ^ 24))
  s.wr .tile Reg.PIX_RX_FRAME frame

/-- A PIX with a good CRC (R319). In the safe state only the counting rows act (R424). -/
def State.pixTake (i : Nat) (k : Packet) (s : State) : State :=
  let l := letterOf (Pkt.w k 3)
  let f := Pkt.w k 2
  let open_ := s.rd .tile Reg.PIX_RX_FRAME
  if l ≠ letterOfPort i || s.slots .tile ≤ Pkt.slot k then s.bump .tile Reg.PIX_STRAY 1
  else if s.safe .tile then s
  else
    let s := s.standbyPix k
    if s.rxBound = some l && f = open_ && s.rxState = 1 then
      if (AMap.find s.til.pix.pixRx (pixKey (Pkt.slot k) (Pkt.row k) (Pkt.colg k))).isSome then
        s.bump .tile Reg.PIX_DUP 1
      else s.pixStore k
    else if s.holder = some l && (s.rxState = 0 || laterFrame f open_) then
      let (s, ev) := s.abandonForLater
      ((s.rxOpen l f).pixStore k).raiseAll .tile ev
    else if s.rxBound = some l && laterFrame open_ f then s.bump .tile Reg.PIX_STRAY 1
    else s

/-! ### Slot windows (R324) -/

/-- The windows of frame f: those of its accepted SYNC; else those of the last frame used, moved by the schedule;
else the tile's own TIME values (R324). -/
def State.windowsOf (f : Word) (s : State) : Windows :=
  let b := s.baseOf .tile f
  let own := fun k : Nat => (b + s.rd .tile (Reg.TIME_SLOT_CUR k), s.fldOf .tile (Reg.TIME_SLOT_LEN k) 25 0)
  let ext : Windows :=
    match s.til.pix.win with
    | none => ⟨f, b, (List.range (s.slots .tile)).map own⟩
    | some w =>
      if w.frame = f then w
      else ⟨f, b, (List.range (s.slots .tile)).map fun k =>
        match w.slots[k]? with
        | some (st, len) => (st + b - w.base, len)
        | none => own k⟩
  match s.til.pix.sync with
  | some w => if w.frame = f then w else ext
  | none => ext

/-- START of a slot of frame f. -/
def State.slotStart (f : Word) (slot : Nat) (s : State) : Word := ((s.windowsOf f).slots.getD slot (0, 0)).1

/-! ### SYNC and ABORT (R321 to R323) -/

/-- START and LEN of each slot of a SYNC (R279). -/
def syncSlots : List Word → List (Word × Nat)
  | a :: b :: t => (a, fld b 25 0) :: syncSlots t
  | _ => []

/-- Declared regions and slots of the open frame with no SIG yet (R328). -/
def State.noSigs (s : State) : Nat :=
  ((List.range 512).filter fun n =>
    s.sigDeclared (n / 8) (n % 8) && !s.til.pix.sigGot.contains n).length

/-- A mismatching region of the open frame has the action HOLD (R323, R329). -/
def State.sigHolds (s : State) : Bool :=
  s.til.pix.rxMis.any fun n => s.fldOf .tile (Reg.SIG_ACT (n / 8)) 1 0 == 1

/-- A SYNC is accepted, and the fate of its frame is decided (R323, R328). -/
def State.syncAccept (k : Packet) (s : State) : State :=
  let f := Pkt.w k 2
  let m := missingOf s.til.pix.pixRx (s.slots .tile)
  let ns := s.noSigs
  let hold := (m ≠ 0 && !s.bitOf .tile Reg.PIX_CTRL 0) || s.sigHolds
  let s := s.updPix fun x => { x with sync := some ⟨f, s.baseOf .tile f, syncSlots ((Pkt.body k).drop 2)⟩ }
  let s := (s.bump .tile Reg.SIG_NOSIG ns).bump .tile Reg.PIX_LOST m
  let s := if hold then s.rxIdle.bump .tile Reg.PIX_HELD 1 else s.wrFld .tile Reg.PIX_STAT 31 30 2
  let evs : List (Nat × Word) := if ns ≠ 0 then [(Ev.SIG_NOSIG, 0)] else []
  let evs := if hold then evs ++ [(Ev.PIX_HOLD, 0)] else evs
  s.raiseAll .tile (if m ≠ 0 then evs ++ [(Ev.PIX_LOSS, 0)] else evs)

/-- A SYNC reaches the tile (R301, R322). -/
def State.syncTake (k : Packet) (s : State) : State :=
  if s.safe .tile || s.rxState ≠ 1 || Pkt.w k 2 ≠ s.rd .tile Reg.PIX_RX_FRAME
    || s.rxBound ≠ some (letterOf (Pkt.w k 3)) then s
  else if Pkt.kind k ≠ s.slots .tile then
    (s.rxIdle.bump .tile Reg.PIX_STRAY 1).raise .tile Ev.PIX_LATE
  else if timeDiff (Pkt.w k 4) (s.wall .tile) < 10000 then
    (s.rxIdle.bump .tile Reg.PIX_LATE 1).raise .tile Ev.PIX_LATE
  else s.syncAccept k

/-- An ABORT reaches the tile (R321). -/
def State.abortTake (k : Packet) (s : State) : State :=
  if s.safe .tile || s.rxState ≠ 1 || Pkt.w k 2 ≠ s.rd .tile Reg.PIX_RX_FRAME
    || s.rxBound ≠ some (letterOf (Pkt.w k 3)) then s
  else (s.rxIdle.bump .tile Reg.PIX_ABORTS 1).raise .tile Ev.PIX_ABORT

/-! ### SIG (R313, R328) -/

/-- The main check of a SIG from the bound sender for the open frame (R328). -/
def State.sigCheck (k : Packet) (s : State) : State :=
  let e := fld (Pkt.w k 1) 31 26
  let slot := Pkt.slot k
  let g := s.sigRegion e
  if s.rxState = 0 || s.rxBound ≠ some (letterOf (Pkt.w k 4)) || Pkt.w k 2 ≠ s.rd .tile Reg.PIX_RX_FRAME then s
  else
    let s := s.updPix fun x =>
      { x with sigGot := if x.sigGot.contains (8 * e + slot) then x.sigGot else (8 * e + slot) :: x.sigGot }
    if !g.present s.til.pix.pixRx slot then s.bump .tile Reg.SIG_SKIP 1
    else if g.crc s.til.pix.pixRx slot = Pkt.w k 3 then s
    else
      let s := s.bump .tile Reg.SIG_MISS 1
      let s := s.wr .tile Reg.SIG_LAST (wd (e * 2 ^ 24 + slot * 2 ^ 16 + s.fldOf .tile (Reg.SIG_ACT e) 1 0))
      let s := s.wr .tile Reg.SIG_LAST_FRAME (Pkt.w k 2)
      let first := !s.til.pix.sigRaised
      let s := s.updPix fun x =>
        { x with rxMis := if x.rxMis.contains (8 * e + slot) then x.rxMis else (8 * e + slot) :: x.rxMis,
                 sigRaised := true }
      if first then s.raise .tile Ev.SIG_MISMATCH else s

/-- A standby check is recorded (R313). -/
def State.sbyRecord (e slot kind : Nat) (f : Word) (s : State) : State :=
  (s.wr .tile Reg.LOAN_SBY_LAST (wd (e * 2 ^ 24 + slot * 2 ^ 16 + kind))).wr .tile Reg.LOAN_SBY_FRAME f

/-- A standby event is raised at most once per frame (R317). DEDUCED: the frame is that of the check. -/
def State.sbyRaise (ev kind : Nat) (f : Word) (s : State) : State :=
  if s.til.pix.sbyTold.getD kind none = some f then s
  else (s.updPix fun x => { x with sbyTold := x.sbyTold.set kind (some f) }).raise .tile ev

/-- C against S when S arrives (R313): not compared while a packet of the region is missing. -/
def State.sbyPath (e slot : Nat) (f v : Word) (s : State) : State :=
  let g := s.sigRegion e
  if f ≠ s.til.pix.sbyFrame || !g.present s.til.pix.sbyPix slot then s
  else
    let s := s.sbyRecord e slot 1 f
    if g.crc s.til.pix.sbyPix slot = v then s
    else (s.bump .tile Reg.LOAN_SBY_PATH 1).sbyRaise Ev.STBY_PATH 1 f

/-- H against S when the later of them arrives (R313). -/
def State.sbyPair (e slot : Nat) (r : StandbySig) (s : State) : State :=
  match r.h, r.s with
  | some a, some b =>
    let s := s.sbyRecord e slot 0 r.frame
    if a = b then s else (s.bump .tile Reg.LOAN_SBY_MISS 1).sbyRaise Ev.STBY_MISMATCH 0 r.frame
  | _, _ => s

/-- The record of a region and slot takes a signature; a value left alone by a later frame counts (R313). -/
def State.sbyTake (e slot : Nat) (f v : Word) (own : Bool) (s : State) : State :=
  let key := 8 * e + slot
  let put := fun (r : StandbySig) (s : State) =>
    let r := if own then { r with h := some v } else { r with s := some v }
    (s.updPix fun x => { x with sbySig := AMap.put x.sbySig key r }).sbyPair e slot r
  match AMap.find s.til.pix.sbySig key with
  | none => put ⟨f, none, none⟩ s
  | some r =>
    if r.frame = f then put r s
    else if laterFrame f r.frame then
      put ⟨f, none, none⟩ (if r.h.isSome && r.s.isSome then s else s.bump .tile Reg.LOAN_SBY_UNPAIRED 1)
    else s.bump .tile Reg.LOAN_SBY_UNPAIRED 1

/-- The standby check of a SIG (R313). -/
def State.sbyCheck (k : Packet) (s : State) : State :=
  let e := fld (Pkt.w k 1) 31 26
  let slot := Pkt.slot k
  let l := letterOf (Pkt.w k 4)
  match s.standby with
  | none => s
  | some x =>
    let s := if l = x then s.sbyPath e slot (Pkt.w k 2) (Pkt.w k 3) else s
    s.sbyTake e slot (Pkt.w k 2) (Pkt.w k 3) (l ≠ x)

/-- A SIG reaches the tile (R328). -/
def State.sigTake (k : Packet) (s : State) : State :=
  if s.safe .tile || !s.sigDeclared (fld (Pkt.w k 1) 31 26) (Pkt.slot k) then s
  else (s.sigCheck k).sbyCheck k

/-! ### Correction banks (R334 to R338) -/

/-- The identity correction of two pixels, 480 bits (R338, R334). -/
def identityPair : Nat :=
  let m := 0x400000000 * 2 ^ 72 + 0x000400000 * 2 ^ 36 + 0x000000400
  let one := (m * 2 ^ 108 + m) * 2 ^ 24
  one * 2 ^ 240 + one

/-- Word j of a bank with identity correction (R338). -/
def identityWord (j : Nat) : Word := wd (identityPair / 2 ^ (32 * (14 - j % 15)))

/-- Words of a bank (R334). -/
def bankWords : Nat := 245760

/-- `COR_BSTAT.ACT`: the active bank (R335). -/
def State.corAct (s : State) : Bool := s.bitOf .tile Reg.COR_BSTAT 31

/-- A bank's words that are not identity. -/
def State.bank (b : Bool) (s : State) : List (Nat × Word) := if b then s.til.pix.cor1 else s.til.pix.cor0

/-- A bank's words replaced. -/
def State.setBank (b : Bool) (m : List (Nat × Word)) (s : State) : State :=
  s.updPix fun x => if b then { x with cor1 := m } else { x with cor0 := m }

/-- Word j of a bank. -/
def State.bankWord (b : Bool) (j : Nat) (s : State) : Word := SMap.get identityWord (s.bank b) j

/-- The window's word at a folio address, if it has one there (R334). -/
def corIndex (a : Nat) : Option Nat :=
  if 0x800000 ≤ a && a < 0x800000 + 4 * bankWords && a % 4 = 0 then some ((a - 0x800000) / 4) else none

/-- A read of the window returns the active bank; higher addresses read 0 (R334). -/
def State.corRead (a : Nat) (s : State) : Word :=
  match corIndex a with
  | none => 0
  | some j => s.bankWord s.corAct j

/-- A commit that names block bit `b` is pending in a part (R51). -/
def State.shadowLocked (p : Part) (b : Nat) (s : State) : Bool :=
  match (s.chip p).commit with
  | none => false
  | some c => bit c.mask b

/-- A correction row, one line of one block of a bank, by its number in `corLost`. -/
def corRowKey (b : Bool) (block line : Nat) : Nat := 2048 * b.toNat + 32 * block + line

/-- The row that holds word j of a bank (R334). -/
def corRowOf (b : Bool) (j : Nat) : Nat :=
  let p := 2 * (j / 15)
  corRowKey b (16 * (p / 256 / 32) + p % 256 / 16) (p / 256 % 32)

/-- `COR_DEGRADED` shows 16 pixels for each row on identity correction (R340, R343). -/
def State.corCount (s : State) : State :=
  let n := fun b : Bool => 16 * (s.til.pix.corLost.filter fun e => decide (e.1 / 2048 = b.toNat)).length
  s.wr .tile Reg.COR_DEGRADED (wd (n true * 2 ^ 16 + n false))

/-- Rows on identity correction have been written again, where `f` holds of them. -/
def State.corRewritten (f : Nat → Bool) (s : State) : State :=
  s.updPix fun x => { x with corLost := x.corLost.map fun e => (e.1, e.2 || f e.1) }

/-- A bank loaded since has been swapped in: the rows lost before are no longer degraded (R340). -/
def State.corSwapped (s : State) : State :=
  let b := s.corAct
  (s.updPix fun x => { x with corLost := x.corLost.filter fun e => decide (e.1 / 2048 = b.toNat) && !e.2 }).corCount

/-- A write of the window (R334 to R337): locked while a COR commit is pending, discarded and counted while a copy
or the identity fill runs. The flag tells that R51 discarded it. -/
def State.corWrite (a : Nat) (v : Word) (s : State) : State × Bool :=
  if s.shadowLocked .tile 10 then
    ((s.bump .tile Reg.SYS_CMT_LOCKDROP 1).raise .tile Ev.SHADOW_LOCKED, true)
  else
    match corIndex a with
    | none => (s, false)
    | some j =>
      if s.bitOf .tile Reg.COR_BSTAT 29 then (s.bump .tile Reg.COR_WDROP 1, false)
      else
        let b := !s.corAct
        let s := s.corRewritten (· == corRowOf b j)
        ((s.setBank b (SMap.set identityWord (s.bank b) j v)).wrBit .tile Reg.COR_BSTAT 30 true, false)

/-- GO of `COR_COPY` (R336). -/
def State.corCopyGo (s : State) : State :=
  if s.bitOf .tile Reg.COR_BSTAT 29 || s.shadowLocked .tile 10 then s else s.wrBit .tile Reg.COR_BSTAT 29 true

/-- A line of a block of a bank takes the identity correction (R340). -/
def State.corIdentityRow (b : Bool) (block line : Nat) (s : State) : State :=
  let p0 := 256 * (32 * (block / 16) + line) + 16 * (block % 16)
  let lo := 15 * (p0 / 2)
  s.setBank b ((s.bank b).filter fun e => decide (e.1 < lo ∨ lo + 120 ≤ e.1))

/-- Spare rows used in a block of a bank (R343). -/
def corSpare (b : Bool) (block : Nat) : Nat × Nat := (Reg.COR_SPARE_USED (4 * b.toNat + block / 16), 2 * (block % 16))

/-- A region is made dark, as the level above a block that can repair no more (R35, R36, R339, R340, R388). What was
remapped or replaced stays (R37). -/
def State.darken (r : Nat) (s : State) : State := s.wrBit .tile Reg.PIX_DARK r true

/-- A region is dark (R36, R339, R340, R388). -/
def State.dark (r : Nat) (s : State) : Bool := s.bitOf .tile Reg.PIX_DARK r

/-- A lost correction row is repaired: a spare row with identity correction, or the region goes dark (R340). A row that was
on identity correction already is not counted twice. -/
def State.corRepair (b : Bool) (block line : Nat) (s : State) : State :=
  let (a, lo) := corSpare b block
  let used := s.fldOf .tile a (lo + 1) lo
  if 2 ≤ used then (s.darken (block / 16)).raise .tile Ev.COR_NOSPARE
  else
    let s := (s.wrFld .tile a (lo + 1) lo (used + 1)).corIdentityRow b block line
    let s := s.updPix fun x => { x with corLost := AMap.put x.corLost (corRowKey b block line) false }
    s.corCount.raise .tile Ev.COR_ROW_LOST

/-- A double-bit error of a correction row (R340). In a dark region its repair waits for the return to service (R37). -/
def State.corRowLost (b : Bool) (block line : Nat) (s : State) : State :=
  let s := s.bump .tile Reg.COR_ECC_UNCORR 1
  let s := s.wr .tile Reg.COR_ECC_LAST (wd (b.toNat * 2 ^ 31 + block * 2 ^ 16 + line))
  let n := corRowKey b block line
  if s.dark (block / 16) then
    s.updPix fun x => { x with corWait := if x.corWait.contains n then x.corWait else x.corWait ++ [n] }
  else s.corRepair b block line

/-- Regions return to service on a write of `PIX_DARK_CLR`, with their remaps kept (R339); repairs that waited start
(R37). -/
def State.darkClear (m : Word) (s : State) : State :=
  let s := s.wr .tile Reg.PIX_DARK (s.rd .tile Reg.PIX_DARK &&& ~~~m)
  let back := s.til.pix.corWait.filter fun n => !s.dark (n % 2048 / 512)
  let s := s.updPix fun x => { x with corWait := x.corWait.filter fun n => s.dark (n % 2048 / 512) }
  back.foldl (fun s n => s.corRepair (n / 2048 == 1) (n % 2048 / 32) (n % 32)) s

/-- A single-bit error of a correction word is corrected in place (R340). -/
def State.corCorrected (s : State) : State :=
  let s := s.bump .tile Reg.COR_ECC_CORR 1
  if s.msDue .tile s.til.pix.corEccAt then
    (s.updPix fun x => { x with corEccAt := some (s.elapsed .tile) }).raise .tile Ev.COR_ECC_CORR
  else s

/-- What the check of a correction word does (R340). -/
def State.corEcc (e : Ecc) (b : Bool) (block line : Nat) (s : State) : State :=
  match e with
  | .good => s
  | .corrected => s.corCorrected
  | .double => s.corRowLost b block line

/-! ### The meanings -/

/-- PIX (R319): one that is addressed to the tile's own position; a broadcast one is forwarded and no more (R283). -/
def execPix (port : LnkPort) (pkt : Packet) (s : State) : Host.Outcome State Fault Refusal :=
  .next (match port.part with
    | .sender => s.arriveSender port.idx pkt (Pkt.type pkt == tPIX) id
    | .tile => s.headerGate .tile port.idx pkt fun s =>
        if Pkt.type pkt ≠ tPIX then s
        else if Pkt.dest pkt = destAll then (s.fwd port.idx pkt).crcGate .tile port.idx pkt id
        else if !s.destOwn pkt then s
        else
          let s := s.notFwd port.idx pkt false
          if Pkt.crcOk pkt then s.pixTake port.idx pkt
          else (s.crcGate .tile port.idx pkt id).bump .tile Reg.PIX_CRC 1)

/-- ABORT (R321). -/
def execAbort (port : LnkPort) (pkt : Packet) (s : State) : Host.Outcome State Fault Refusal :=
  .next (match port.part with
    | .sender => s.arriveSender port.idx pkt (Pkt.type pkt == tABORT) id
    | .tile => s.arriveTile port.idx pkt (Pkt.type pkt == tABORT) (State.abortTake pkt))

/-- SYNC (R322). -/
def execSync (port : LnkPort) (pkt : Packet) (s : State) : Host.Outcome State Fault Refusal :=
  .next (match port.part with
    | .sender => s.arriveSender port.idx pkt (Pkt.type pkt == tSYNC) id
    | .tile => s.arriveTile port.idx pkt (Pkt.type pkt == tSYNC) (State.syncTake pkt))

/-- SIG (R328). -/
def execSig (port : LnkPort) (pkt : Packet) (s : State) : Host.Outcome State Fault Refusal :=
  .next (match port.part with
    | .sender => s.arriveSender port.idx pkt (Pkt.type pkt == tSIG) id
    | .tile => s.arriveTile port.idx pkt (Pkt.type pkt == tSIG) (State.sigTake pkt))

/-- PIX_SWAP (R324): the sets exchange roles at START of slot 0 of the closed frame. -/
def execPixSwap (s : State) : Host.Outcome State Fault Refusal :=
  .next (s.when' .tile fun s =>
    let f := s.rd .tile Reg.PIX_RX_FRAME
    match s.til.pix.sync with
    | some w =>
      if s.rxState = 2 && w.frame = f && s.reachedAt .tile (w.slots.getD 0 (0, 0)).1 then
        let s := s.updPix fun x => { x with pixDisp := x.pixRx, dispMis := x.rxMis, deadRows := [] }
        let s := (s.rxIdle.wrBit .tile Reg.PIX_STAT 29 true).wr .tile Reg.PIX_DISP_FRAME f
        (s.bump .tile Reg.PIX_SHOWN 1).raise .tile Ev.PIX_SWAP
      else s
    | none => s)

/-- COR_SCRUB (R340): the errors the scrubber found, in the order it met them. -/
def execCorScrub (errs : List ScrubErr) (s : State) : Host.Outcome State Fault Refusal :=
  .next (s.when' .tile fun s =>
    errs.foldl (fun s e => s.corEcc (if e.double then .double else .corrected) e.bank e.block.val e.line.val) s)

/-- PIX_DARK_CLR (R339). -/
def execPixDarkClr (m : BitVec 4) (s : State) : Host.Outcome State Fault Refusal :=
  .next (s.when' .tile (State.darkClear (m.setWidth 32)))

/-- CORRECTION_WINDOW_WRITE (R334). -/
def execCorrectionWindowWrite (addr v : Word) (s : State) : Host.Outcome State Fault Refusal :=
  .next (s.when' .tile fun s => (s.corWrite addr.toNat v).1)

/-- COR_COPY_GO (R336). -/
def execCorCopyGo (s : State) : Host.Outcome State Fault Refusal := .next (s.when' .tile State.corCopyGo)

/-- COR_COPY_DONE (R336): the inactive bank holds the active one's contents. The identity fill ends by its own
command. -/
def execCorCopyDone (s : State) : Host.Outcome State Fault Refusal :=
  .next (s.when' .tile fun s =>
    if s.bitOf .tile Reg.COR_BSTAT 29 && !s.til.pix.filling then
      let s := (s.setBank (!s.corAct) (s.bank s.corAct)).corRewritten (· / 2048 == (!s.corAct).toNat)
      let s := (s.wrBit .tile Reg.COR_BSTAT 29 false).wrBit .tile Reg.COR_BSTAT 30 true
      s.raise .tile Ev.COR_COPY_DONE
    else s)

/-- IDENTITY_FILL_DONE (R338). -/
def execIdentityFillDone (s : State) : Host.Outcome State Fault Refusal :=
  .next (s.when' .tile fun s =>
    if s.til.pix.filling then
      (s.updPix fun x => { x with filling := false }).wrBit .tile Reg.COR_BSTAT 29 false
    else s)

end Sys2Proof.Machine
end

