-- ==== Sys2Proof/Machine/Thermal.lean ====
section
/-!
DEFINITION. Temperature sensing, bands and the lehr state of both parts (R395 to R410), and the local gain of
thermal derating that a conversion updates (R361, R362), with the meaning of each command.
-/

namespace Sys2Proof.Machine

/-! ### Sensors (R395 to R398) -/

/-- The sensors of a part (R395). -/
def sensorCount : Part → Nat
  | .sender => 8
  | .tile => 20

/-- The neighbours of a sensor on a grid of `rows` × `cols`, numbered by row (R395). -/
def gridNear (rows cols s : Nat) : List Nat :=
  let r := s / cols
  let k := s % cols
  (if 0 < r then [s - cols] else []) ++ (if r + 1 < rows then [s + cols] else []) ++
  (if 0 < k then [s - 1] else []) ++ (if k + 1 < cols then [s + 1] else [])

/-- The neighbours of a sensor (R395). In the sender, sensor s stands at row s mod 2, column s div 2. -/
def sensorNear (p : Part) (s : Nat) : List Nat :=
  match p with
  | .sender => gridNear 4 2 s
  | .tile => if s < 16 then gridNear 4 4 s else (gridNear 2 2 (s - 16)).map (· + 16)

/-- The temperature of a count, in units of 0.25 °C (R396). -/
def sensorTemp (p : Part) (i n : Nat) : Int :=
  100 + asr (((n : Int) - (Config.thmN0 p i).toNat) * (Config.thmK p i).toInt + 32768) 16

/-- A sensor shows a fault condition: N is 0, or T lies outside −55 °C to 150 °C (R397). -/
def sensorBad (n : Nat) (t : Int) : Bool := n = 0 || t < -220 || 600 < t

/-- A list of integers in ascending order. -/
def sortInts : List Int → List Int
  | [] => []
  | x :: xs => insI x (sortInts xs)
where
  /-- an integer put at its place -/
  insI (x : Int) : List Int → List Int
    | [] => [x]
    | y :: ys => if x ≤ y then x :: y :: ys else y :: insI x ys

/-- The median of the neighbours' readings for a sensor at `t` (R398). -/
def medianFor (t : Int) (l : List Int) : Int :=
  let a := sortInts l
  let n := a.length
  if n % 2 = 1 then a.getD (n / 2) 0
  else
    let lo := a.getD (n / 2 - 1) 0
    let hi := a.getD (n / 2) 0
    if (hi - t).natAbs < (lo - t).natAbs then hi else lo

/-- One sensor after a conversion: T, FAULT, exclusion and its two runs of 16. -/
structure SensorNow where
  t : Int
  fault : Bool
  excl : Bool
  clean : Nat
  near : Nat
  deriving DecidableEq, Repr

/-- FAULT and its run after a conversion (R397). -/
def State.sensorFault (p : Part) (i n : Nat) (s : State) : Bool × Nat :=
  let bad := sensorBad n (sensorTemp p i n)
  let run := if bad then 0 else min 16 ((s.chip p).thm.clean.getD i 0 + 1)
  let was := s.bitOf p Reg.THM_FAULT i
  (bad || (was && run < 16), run)

/-- Every sensor after a conversion (R397, R398). -/
def State.sensorsNow (p : Part) (counts : List Nat) (s : State) : List SensorNow :=
  let n := sensorCount p
  let t := fun i => sensorTemp p i (counts.getD i 0)
  let f := fun i => (s.sensorFault p i (counts.getD i 0)).1
  let chk := s.bitOf p Reg.THM_CTRL 29
  (List.range n).map fun i =>
    let run := (s.sensorFault p i (counts.getD i 0)).2
    let nb := (sensorNear p i).filter fun j => !f j
    let was := s.bitOf p Reg.THM_EXCL i
    let prev := (s.chip p).thm.near.getD i 0
    if !chk then ⟨t i, f i, false, run, 0⟩
    else if f i || nb.length < 2 then ⟨t i, f i, was, run, 0⟩
    else if 32 < (t i - medianFor (t i) (nb.map t)).natAbs then ⟨t i, f i, true, run, 0⟩
    else
      let near := min 16 (prev + 1)
      ⟨t i, f i, was && near < 16, run, near⟩

/-- A sensor is valid (R398). -/
def SensorNow.valid (x : SensorNow) : Bool := !x.fault && !x.excl

/-- The readings of the valid sensors among positions lo to lo + n − 1. -/
def validTemps (l : List SensorNow) (lo n : Nat) : List Int :=
  (((l.drop lo).take n).filter SensorNow.valid).map SensorNow.t

/-- The greatest of some readings. -/
def maxTemp : List Int → Option Int
  | [] => none
  | x :: xs => some (xs.foldl max x)

/-- The mean of some readings, rounded half up (R399). -/
def meanTemp (l : List Int) : Option Int :=
  if l.isEmpty then none else some ((2 * l.foldl (· + ·) 0 + l.length) / (2 * l.length : Nat))

/-- A register of a value that may not be valid: [31] VALID, [15:0] the value; the value stays while not valid. -/
def State.wrTemp (p : Part) (a : Nat) (t : Option Int) (s : State) : State :=
  match t with
  | none => s.wrBit p a 31 false
  | some x => s.wr p a (wd (2 ^ 31) ||| (wdi x &&& 0xFFFF))

/-- The registers of every sensor (R409), and the runs kept. -/
def State.wrSensors (p : Part) (counts : List Nat) (l : List SensorNow) (s : State) : State :=
  let mask := fun (f : SensorNow → Bool) =>
    ((l.zipIdx).foldl (fun m x => if f x.1 then m + 2 ^ x.2 else m) 0 : Nat)
  let s := ((s.wr p Reg.THM_VALID (wd (mask SensorNow.valid))).wr p Reg.THM_EXCL (wd (mask SensorNow.excl))).wr p
    Reg.THM_FAULT (wd (mask SensorNow.fault))
  let s := (l.zipIdx).foldl (fun s x =>
    let v := wd (x.1.valid.toNat * 2 ^ 31 + x.1.excl.toNat * 2 ^ 30 + x.1.fault.toNat * 2 ^ 29) |||
      (wdi x.1.t &&& 0xFFFF)
    (s.wr p (Reg.THM_T x.2) v).wr p (Reg.THM_RAW x.2) (wd (counts.getD x.2 0))) s
  s.upd p fun c => { c with thm := { c.thm with clean := l.map SensorNow.clean, near := l.map SensorNow.near } }

/-- THM_EXCLUDE and THM_SENSOR_FAULT, once for each sensor that a conversion newly excludes or marks (R410). -/
def sensorEvents (was now : Nat × Nat) : List (Nat × Word) :=
  let new := fun (id a b : Nat) =>
    ((List.range 20).filter fun i => b.testBit i && !a.testBit i).map fun _ => (id, (0 : Word))
  new Ev.THM_EXCLUDE was.1 now.1 ++ new Ev.THM_SENSOR_FAULT was.2 now.2

/-! ### Bands (R401 to R403) -/

/-- A signed 16-bit field at [15:0] of a register. -/
def State.tempOf (p : Part) (a : Nat) (s : State) : Int := sfld (s.rd p a) 15 0

/-- KNEE of a part (R401). -/
def State.knee (p : Part) (s : State) : Int :=
  match p with
  | .sender => s.tempOf .sender Reg.THM_KNEE
  | .tile => s.tempOf .tile Reg.DRV_KNEE

/-- The highest band whose lower edge is at or below T (R401). -/
def bandOf (knee t : Int) : Nat :=
  if 460 ≤ t then 4 else if knee ≤ t then 3 else if 280 ≤ t then 2 else if 0 ≤ t then 1 else 0

/-- The measured band (R409). -/
def State.band (p : Part) (s : State) : Nat := s.fldOf p Reg.THM_STAT 26 24

/-- The applied band (R409). -/
def State.bandUsed (p : Part) (s : State) : Nat := s.fldOf p Reg.THM_STAT 18 16

/-- The TIMEC cycle of a part: 2 ns (R39). -/
def State.timecNow (p : Part) (s : State) : Nat := s.elapsed p / 2

/-- The measured band as it stood at the start of the TIMEC cycle (R403). -/
def State.bandStart (p : Part) (s : State) : Nat :=
  if (s.chip p).thm.bandAt = some (s.timecNow p) then (s.chip p).thm.bandWas else s.band p

/-- A conversion's candidate moves the dwell count, and at 16 the measured band (R402). -/
def State.dwell (p : Part) (t : Int) (s : State) : State :=
  let b := s.band p
  let hi := bandOf (s.knee p) t
  let lo := bandOf (s.knee p) (t + 8)
  let cand := if b < hi then hi else if lo < b then lo else b
  let n := s.fldOf p Reg.THM_STAT 4 0
  if cand = b then s.wrFld p Reg.THM_STAT 4 0 0
  else
    let up := decide (b < cand)
    let m := if n ≠ 0 && up = (s.chip p).thm.up then n + 1 else 1
    let s := s.upd p fun c => { c with thm := { c.thm with up := up } }
    if 16 ≤ m then
      let s := s.upd p fun c => { c with thm := { c.thm with bandAt := some (s.timecNow p), bandWas := b } }
      (s.wrFld p Reg.THM_STAT 26 24 cand).wrFld p Reg.THM_STAT 4 0 0
    else s.wrFld p Reg.THM_STAT 4 0 m

/-- The applied band takes the measured band, and the events of a change: at a latch point as it stood at the start of
the cycle, at once while no schedule runs (R403). -/
def State.applyBand (p : Part) (s : State) : State × List (Nat × Word) :=
  let b := if s.schedOn p then s.bandStart p else s.band p
  if b = s.bandUsed p then (s, [])
  else
    (s.wrFld p Reg.THM_STAT 18 16 b,
     (Ev.THM_BAND, 0) :: (if b = 3 then [(Ev.THM_HOT, 0)] else if b = 4 then [(Ev.THM_CRITICAL, 0)] else []))

/-- The sender's refresh multipliers follow its applied band (R186). -/
def State.bandDram (p : Part) (s : State) : State × List (Nat × Word) :=
  match p with
  | .sender => s.dramLatch
  | .tile => (s, [])

/-! ### The lehr state (R404 to R406) -/

/-- The part is in its lehr state (R404). -/
def State.lehr (p : Part) (s : State) : Bool := s.bitOf p Reg.THM_STAT 31

/-- What the lehr state stops (R405). -/
def State.lehrStops (p : Part) (s : State) : State × List (Nat × Word) :=
  match p with
  | .tile => (s.scanOff, [])
  | .sender =>
    let s := s.rasStop
    let st := s.fldOf .sender Reg.LOAN_STAT 31 30
    if st = 1 then ((s.wrFld .sender Reg.LOAN_STAT 31 30 0).releaseChains s.chainMask 0, [(Ev.LOAN_STATE, 0)])
    else (s, [])

/-- The part enters its lehr state (R404). -/
def State.lehrEnter (p : Part) (s : State) : State × List (Nat × Word) :=
  let s := (s.wrBit p Reg.THM_STAT 31 true).bump p Reg.THM_LEHR_CNT 1
  let s := s.wr p Reg.THM_LEHR_WT (s.wall p)
  let s := s.upd p fun c =>
    { c with acc := { c.acc with lehr := true }, thm := { c.thm with shutRun := 0, coolRun := 0, permit := false } }
  let (s, ev) := s.lehrStops p
  (s, (Ev.THM_LEHR, 0) :: ev)

/-- The part may leave its lehr state (R406). -/
def State.lehrMayExit (p : Part) (s : State) : Bool :=
  s.lehr p && 1000 ≤ (s.chip p).thm.coolRun && (s.bitOf p Reg.THM_CTRL 30 || (s.chip p).thm.permit)

/-- The part leaves its lehr state if it may: a sender not in its safe state, with EN at 1, is ACTIVE again
(R406). -/
def State.lehrExit (p : Part) (s : State) : State × List (Nat × Word) :=
  if s.lehrMayExit p then
    let s := s.wrBit p Reg.THM_STAT 31 false
    match p with
    | .tile => (s, [(Ev.THM_LEHR_EXIT, 0)])
    | .sender =>
      if !s.safe .sender && s.bitOf .sender Reg.LOAN_CTRL 31 then
        (s.wrFld .sender Reg.LOAN_STAT 31 30 1, [(Ev.THM_LEHR_EXIT, 0), (Ev.LOAN_STATE, 0)])
      else (s, [(Ev.THM_LEHR_EXIT, 0)])
  else (s, [])

/-- The shutdown and the cooling counts of a conversion (R404, R406). -/
def State.shutCounts (p : Part) (t : Option Int) (all : List Int) (s : State) : State × List (Nat × Word) :=
  match t with
  | none => (s.upd p fun c => { c with thm := { c.thm with coolRun := 0 } }, [])
  | some x =>
    let hot := decide (s.tempOf p Reg.THM_SHUT ≤ x)
    let cool := all.all fun y => decide (y < s.tempOf p Reg.THM_RESTART)
    let s := s.upd p fun c =>
      { c with thm := { c.thm with shutRun := if hot then c.thm.shutRun + 1 else 0,
                                   coolRun := if cool then min 1000 (c.thm.coolRun + 1) else 0 } }
    if !s.lehr p && s.bitOf p Reg.THM_CTRL 31 && 4 ≤ (s.chip p).thm.shutRun then s.lehrEnter p else (s, [])

/-- BLIND and its count (R400). -/
def State.blindCount (p : Part) (blind : Bool) (s : State) : State × List (Nat × Word) :=
  if blind then
    let n := (s.chip p).thm.blindRun + 1
    let s := s.upd p fun c => { c with thm := { c.thm with blindRun := min 1000 n } }
    if n = 1000 then (s.wrBit p Reg.THM_STAT 30 true, [(Ev.THM_BLIND, 0)]) else (s, [])
  else
    ((s.upd p fun c => { c with thm := { c.thm with blindRun := 0 } }).wrBit p Reg.THM_STAT 30 false, [])

/-! ### The local gain (R361, R362) -/

/-- G_loc for a temperature above or below KNEE (R361). -/
def State.localGain (t : Int) (s : State) : Int :=
  if t ≤ s.tempOf .tile Reg.DRV_KNEE then 65536
  else
    max (s.fldOf .tile Reg.DRV_FLOOR 16 0)
      (65536 - (s.fldOf .tile Reg.DRV_SLOPE 15 0 : Nat) * (t - s.tempOf .tile Reg.DRV_KNEE))

/-- A conversion updates G_loc and what reports on it (R361, R362). -/
def State.derate (t : Option Int) (s : State) : State × List (Nat × Word) :=
  match t with
  | none => (s.wrBit .tile Reg.DRV_STAT 28 true, [])
  | some x =>
    let g0 := s.fldOf .tile Reg.DRV_G_LOC 16 0
    let g := (s.localGain x).toNat
    let fl0 := s.bitOf .tile Reg.DRV_STAT 29
    let fl := decide (s.tempOf .tile Reg.DRV_KNEE < x) && g = s.fldOf .tile Reg.DRV_FLOOR 16 0
    let s := (s.wr .tile Reg.DRV_TMAX (wdi x &&& 0xFFFF)).wr .tile Reg.DRV_G_LOC (wd g)
    let s := (s.wrBit .tile Reg.DRV_STAT 28 false).wrBit .tile Reg.DRV_STAT 29 fl
    let s := s.wrBit .tile Reg.DRV_STAT 31 (decide (g < 65536))
    let ev : List (Nat × Word) := if decide (g < 65536) ≠ decide (g0 < 65536) then [(Ev.DRV_DERATE, 0)] else []
    let moved := 256 ≤ ((g : Int) - s.til.lmp.gLast).natAbs
    let s := if moved then s.updLmp fun l => { l with gLast := g } else s
    let ev := if moved then ev ++ [(Ev.DRV_DERATE_REQ, 0)] else ev
    (s, if fl && !fl0 then ev ++ [(Ev.DRV_FLOOR, 0)] else ev)

/-- The values a conversion forms for the tile's consumers (R399). -/
def State.tileTemps (l : List SensorNow) (s : State) : State × List (Nat × Word) :=
  let s := ([0, 1, 2, 3] : List Nat).foldl (fun s r =>
    s.wrTemp .tile (Reg.THM_REGION r) (meanTemp (validTemps l (4 * r) 4))) s
  let drv := validTemps l 0 16
  let s := (s.wrTemp .tile Reg.THM_DRV_MAX (maxTemp drv)).wrTemp .tile Reg.THM_DRV_MEAN (meanTemp drv)
  s.derate (maxTemp drv)

/-- A conversion (R396 to R406). -/
def State.convert (p : Part) (counts : List Nat) (s : State) : State :=
  let was := ((s.rd p Reg.THM_EXCL).toNat, (s.rd p Reg.THM_FAULT).toNat)
  let l := s.sensorsNow p counts
  let all := validTemps l 0 (sensorCount p)
  let s := s.wrSensors p counts l
  let ev := sensorEvents was ((s.rd p Reg.THM_EXCL).toNat, (s.rd p Reg.THM_FAULT).toNat)
  let s := s.wrTemp p Reg.THM_TMAX (maxTemp all)
  let (s, ev1) := match p with
    | .tile => s.tileTemps l
    | .sender => (s, [])
  let (s, ev2) := s.blindCount p (match p with
    | .tile => (validTemps l 0 16).isEmpty
    | .sender => all.isEmpty)
  let s := match maxTemp all with
    | none => s
    | some t => s.dwell p t
  let (s, ev3) := if s.schedOn p then (s, []) else evThen (s.applyBand p) (State.bandDram p)
  let (s, ev4) := s.shutCounts p (maxTemp all) all
  let (s, ev5) := if s.schedOn p then (s, []) else s.lehrExit p
  s.raiseAll p (ev ++ ev1 ++ ev2 ++ ev3 ++ ev4 ++ ev5)

/-- Conversions run: in the tile, once the U reference has been present (R396). -/
def State.converts (p : Part) (s : State) : Bool :=
  match p with
  | .sender => true
  | .tile => s.til.refSeen

/-- 1 written to `THM_LEHR_EXIT` (R406). -/
def State.lehrPermit (p : Part) (s : State) : State :=
  if s.lehr p then
    let s := s.upd p fun c => { c with thm := { c.thm with permit := true } }
    if s.schedOn p then s
    else
      let (s, ev) := s.lehrExit p
      s.raiseAll p ev
  else s

/-- THM_CONVERSION (R396). -/
def execThmConversion (p : Part) (counts : List (BitVec 20)) (s : State) : Host.Outcome State Fault Refusal :=
  .next (s.when' p fun s => if s.converts p then s.convert p (counts.map BitVec.toNat) else s)

/-- THM_LEHR_EXIT_WRITE (R406). -/
def execThmLehrExitWrite (p : Part) (s : State) : Host.Outcome State Fault Refusal :=
  .next (s.when' p (State.lehrPermit p))

end Sys2Proof.Machine
end

