-- ==== Sys2Proof/Machine/Raster.lean ====
section
/-!
DEFINITION. Pipes and chain rasters of the sender (R200 to R207, R214 to R219, R241 to R255): buffer selection,
compositions, raster lines and the packets they send, aborts and fail-over, write-back and the preview flow.
-/

namespace Sys2Proof.Machine

/-! ### Buffer selection (R200, R202) -/

/-- The media time of a 64-bit count of ns (R200). -/
def mediaTime (t : Nat) : Word := wd (t * 9 / 100000)

/-- The 64-bit count at a wall time near now (R143). -/
def State.ptpAt (w : Word) (s : State) : Nat := ((s.ptp : Int) + timeDiff w (s.wall .sender)).toNat

/-- The enabled descriptors that name a flow (R200). -/
def State.namers (f : Nat) (s : State) : List Nat := (List.range 64).filter fun d => s.lyrOn d && s.lyrFlow d = some f

/-- `LYR_STAT` and `LYR_TS` of the descriptors that name a flow show the held buffer (R198). -/
def State.heldShow (f : Nat) (s : State) : State :=
  (s.namers f).foldl (fun s d =>
    match (s.flow f).held with
    | none => (s.wrBit .sender (Reg.LYR_STAT d) 31 false).wrFld .sender (Reg.LYR_STAT d) 19 16 0
    | some (b, ts) =>
      ((s.wrBit .sender (Reg.LYR_STAT d) 31 true).wrFld .sender (Reg.LYR_STAT d) 19 16 b).wr .sender (Reg.LYR_TS d) ts) s

/-- The latest closed frame of a flow becomes the held one. -/
def State.holdLatest (f b : Nat) (s : State) : State :=
  let ts := s.rd .sender (Reg.FLOW_LATEST_TS f)
  (s.updFlow f fun w => { w with held := some (b, ts) }).heldShow f

/-- The compositor selects a buffer of a flow at the latch point `t` (R200). -/
def State.selectFlow (t : Word) (f : Nat) (s : State) : State × List (Nat × Word) :=
  match s.namers f with
  | [] => (s.updFlow f fun w => { w with held := none }, [])
  | d :: _ =>
    if bit (s.lyr d) 29 then (s.heldShow f, [])
    else
      let delay := 1000 * s.fldOf .sender (Reg.LYR_DELAY d) 19 0
      let m := mediaTime (s.ptpAt t - delay)
      match s.latestBuf f with
      | some b =>
        if atOrAfter m (s.rd .sender (Reg.FLOW_LATEST_TS f)) then (s.holdLatest f b, [])
        else (s.heldShow f, if (s.flow f).held.isSome then [] else [(Ev.LYR_NOFRAME, 0)])
      | none => (s.heldShow f, if (s.flow f).held.isSome then [] else [(Ev.LYR_NOFRAME, 0)])

/-- A low-latency layer selects at its first fetch in a frame (R202). -/
def State.pickFlow (f : Nat) (s : State) : State :=
  let held := (s.flow f).held
  match (s.flow f).frames with
  | o :: _ =>
    let later := match held with
      | none => true
      | some (_, ts) => decide (0 < timeDiff o.ts ts)
    if later then (s.updFlow f fun w => { w with held := some (o.buf, o.ts) }).heldShow f
    else match s.latestBuf f with
      | some b => s.holdLatest f b
      | none => s
  | [] => match s.latestBuf f with
    | some b => s.holdLatest f b
    | none => s

/-! ### Pipes (R204 to R207) -/

/-- A pipe has failed (R207). -/
def State.pipeFailed (p : Nat) (s : State) : Bool := s.bitOf .sender (Reg.CMP_PIPE_STAT p) 31

/-- The pipe that `CMP_MAP` names for a chain port (R204). -/
def State.mapped (k : Nat) (s : State) : Nat := s.fldOf .sender (Reg.CMP_MAP k) 4 0

/-- Fail-over is ACTIVE for a chain port (R207). -/
def State.foChain (s : State) : Option Nat :=
  if s.bitOf .sender Reg.CMP_FO_STAT 31 then some (s.fldOf .sender Reg.CMP_FO_STAT 19 16) else none

/-- The pipe that serves a chain (R204, R207): pipe 16 takes over from the latch point after a fail-over. -/
def State.serving (k : Nat) (s : State) : Option Nat :=
  let m := s.mapped k
  if m ≤ 16 && !s.pipeFailed m then some m
  else if s.foChain = some k && s.snd.foLive && !s.pipeFailed 16 then some 16
  else none

/-- The DRAM port through which a pipe fetches (R204). -/
def pipePort (p : Nat) : Nat := if p = 16 then 3 else p / 4

/-- The chains a pipe serves, lowest first. -/
def State.servedBy (p : Nat) (s : State) : List Nat :=
  (List.range 16).filter fun k => s.isChain k && s.serving k = some p

/-- The working layer units of a pipe, lowest first (R206, R221). -/
def State.unitsOf (p : Nat) (s : State) : List Nat :=
  (List.range 16).filter fun u => s.bitOf .sender (Reg.CMP_PIPE_STAT p) u

/-- `CMP_PIPE_STAT[p]` as it reads: FAILED and the units, with SERVING and the chain port (R221). -/
def State.pipeStat (p : Nat) (s : State) : Word :=
  let w := s.rd .sender (Reg.CMP_PIPE_STAT p) &&& 0x8000FFFF
  match s.servedBy p with
  | [] => w
  | k :: _ => putFld (putBit w 30 true) 19 16 k

/-! ### Aborts (R252, R253) -/

/-- The raster's record of a chain in the frame in progress. -/
def State.rasChain (k : Nat) (s : State) : Option SendSt :=
  match s.snd.ras with
  | none => none
  | some r => if r.skip then none else AMap.find r.chains k

/-- The raster frame in progress changed. -/
def State.updRas (f : RasFrame → RasFrame) (s : State) : State := s.updSnd fun t => { t with ras := t.ras.map f }

/-- The record of a chain changed. -/
def State.setRasChain (k : Nat) (v : SendSt) (s : State) : State :=
  s.updRas fun r => { r with chains := AMap.put r.chains k v }

/-- The frame in progress on a chain is aborted with a cause, unless it has been, or is skipped (R252, R253, R255). -/
def State.rasAbort (k cause : Nat) (s : State) : State × List (Nat × Word) :=
  match s.snd.ras, s.rasChain k with
  | some r, some st =>
    if st = .aborted then (s, [])
    else
      let s := s.setRasChain k .aborted
      let s := s.updSnd fun t => { t with comps := AMap.del t.comps k }
      let s := s.sendChain k (mkPacket tABORT destAll 0 0x7E 0 [r.frame, kWord s.letter k])
      let s := (s.bump .sender (Reg.CHN_ABORTS k) 1).wr .sender (Reg.CHN_ABORT_FRAME k) r.frame
      (s.wrFld .sender (Reg.CHN_STAT k) 27 24 cause, [(Ev.CHN_ABORT k, 0)])
  | _, _ => (s, [])

/-- Fail-over to pipe 16 is possible for a chain (R207). -/
def State.foPossible (k : Nat) (s : State) : Bool :=
  s.bitOf .sender Reg.CMP_CTRL 0 && !s.pipeFailed 16 && s.foChain.isNone
    && !((List.range 16).any fun j => s.isChain j && s.mapped j = 16)
    && (List.range (s.slots .sender)).all fun slot => (s.compLayers k slot).length ≤ (s.unitsOf 16).length

/-- A chain is left without a pipe: its loans are released (R207, R302). -/
def State.leavePipeless (k : Nat) (s : State) : State × List (Nat × Word) :=
  let s := s.updSnd fun t => { t with noPipe := t.noPipe.set k true }
  (if s.loanSt = 1 then s.releaseChains (2 ^ k) 0 else s, [(Ev.CMP_FO_NONE, 0)])

/-- `CMP_FO_STAT` names pipe 16 for a chain whose pipe p has failed; it serves from the next latch point (R207). -/
def State.foTake (p k : Nat) (s : State) : State :=
  (s.wr .sender Reg.CMP_FO_STAT (wd (2 ^ 31 + k * 2 ^ 16 + p))).updSnd fun t =>
    { t with foLive := false, foAt := s.elapsed .sender }

/-- A chain whose pipe has failed gets pipe 16, or is left without one (R207). Of two chains whose pipes fail in one
cycle, the one with the lower port number takes pipe 16, also where its failure is the second command. -/
def State.failOver (p k : Nat) (s : State) : State × List (Nat × Word) :=
  match s.foChain with
  | some j =>
    let free := s.wrBit .sender Reg.CMP_FO_STAT 31 false
    if k < j && !s.snd.foLive && s.snd.foAt = s.elapsed .sender && free.foPossible k then
      (s.foTake p k).leavePipeless j
    else s.leavePipeless k
  | none => if s.foPossible k then (s.foTake p k, [(Ev.CMP_FO, 0)]) else s.leavePipeless k

/-- The sender's latch point: pipe 16 serves the chain that fail-over names (R207). -/
def State.foLatch (s : State) : State := s.updSnd fun t => { t with foLive := s.foChain.isSome }

/-- A pipe fails until reset (R207). -/
def State.pipeFail (p : Nat) (s : State) : State × List (Nat × Word) :=
  if s.pipeFailed p then (s, [])
  else
    let served := if p = 16 && !s.snd.foLive then s.servedBy p ++ s.foChain.toList else s.servedBy p
    let s := s.wrBit .sender (Reg.CMP_PIPE_STAT p) 31 true
    let s := if p = 16 then s.wrBit .sender Reg.CMP_FO_STAT 31 false else s
    let x := evEach served (fun k s => s.rasAbort k 2) s
    evThen (x.1, (Ev.CMP_PIPE_FAIL p, 0) :: x.2) (evEach served (State.failOver p))

/-! ### Raster timing (R243 to R245) -/

/-- A raster timing field of CHN instance 0 (R258). -/
def State.ras' (a : Nat) (s : State) : Nat := (s.rd .sender a).toNat

/-- HTOT in CMP cycles (R243). -/
def State.htot (s : State) : Nat :=
  s.ras' Reg.CHN_RAS_HACT + s.ras' Reg.CHN_RAS_HFP + s.ras' Reg.CHN_RAS_HSYNC + s.ras' Reg.CHN_RAS_HBP

/-- The lines of a field (R244). -/
def State.fieldLines (s : State) : Nat := s.ras' Reg.CHN_RAS_VBP + 128 + s.ras' Reg.CHN_RAS_VFP

/-- The raster lines of a frame up to the last active one (R245). -/
def State.frameLines (s : State) : Nat := s.slots .sender * s.fieldLines - s.ras' Reg.CHN_RAS_VFP

/-- n lines and c CMP cycles of 4/3 ns, in whole ns downward (R243, R244). -/
def State.rasNs (n c : Nat) (s : State) : Nat := 4 * (n * s.htot + c) / 3

/-- The earliest wall time of the TIMEC cycle, of 2 ns, that is nearest to the start of raster line n of frame F (R245).
DESIGN CHOICE: of two equally near, the earlier. -/
def State.lineAt (f : Word) (n : Nat) (s : State) : Word :=
  s.senderLatch f - wd (s.rasNs (s.frameLines - n) 0) - 1

/-- The fetch deadline of a pixel emitted c CMP cycles into raster line n of frame F: 2,000 ns before (R247), in whole
ns downward. -/
def State.pixelDeadline (f : Word) (n c : Nat) (s : State) : Word :=
  let q := 4 * ((s.frameLines - n) * s.htot)
  s.senderLatch f - wd ((q - 4 * c + 2) / 3) - 2000

/-! ### Fetches (R209, R247) -/

/-- The row map v of a chain (R242). -/
def State.rowMap (k y : Nat) (s : State) : Nat :=
  let c := s.rd .sender (Reg.CHN_CTRL k)
  if bit c 24 then y / 32 * fld c 21 16 + min (y % 32) (fld c 21 16 - 1) else y

/-- The canvas pixel that tile pixel (x, y) of a position shows (R242). -/
def State.canvasAt (k p x y : Nat) (s : State) : Nat × Nat :=
  let r := s.posRect k p
  (r.x.toNat + x, r.y.toNat + s.rowMap k y)

/-- The pixels of row y of a position read a source row of a layer: the column of the first that does (R208). -/
def State.readsRow (k d p y row : Nat) (s : State) : Option Nat :=
  let dst := s.lyrDst d
  let crop := s.lyrCrop d
  let (cx, cy) := s.canvasAt k p 0 y
  let x := (dst.x - cx).toNat
  let v := srcInt (srcPos cy dst.y (stepOf crop.h dst.h) crop.y.toNat)
  if x < 256 && dst.has ((cx + x : Nat) : Int) cy
      && (List.range 4).any (fun (t : Nat) => tapAt (v - 1 + t) crop.y.toNat crop.h = row) then some x
  else none

/-- The first pixel of a chain's field that reads a source row of a layer: its row and its CMP cycle in the line
(R247). -/
def State.firstRead (k d row : Nat) (s : State) : Option (Nat × Nat) :=
  (List.range 128).findSome? fun y =>
    (List.range (s.chainLen k)).findSome? fun p => (s.readsRow k d p y row).map fun x => (y, 256 * p + x)

/-- The fetch deadline of a source row in the composition of a slot of frame F: that of the first pixel that reads it
(R247). -/
def State.fetchDeadline (k d row slot : Nat) (f : Word) (s : State) : Option Word :=
  (s.firstRead k d row).map fun x =>
    s.pixelDeadline f (slot * s.fieldLines + s.ras' Reg.CHN_RAS_VBP + x.1) x.2

/-- A line put among those whose fetch has units to ask for, after those of its layer and of the layers below it
(R29). -/
def insFetched (n : Fetched) : List Fetched → List Fetched
  | [] => [n]
  | x :: xs => if n.layer < x.layer then n :: x :: xs else x :: insFetched n xs

/-- The composition a chain's pipe works on. -/
def State.comp (k : Nat) (s : State) : Option Comp := AMap.find s.snd.comps k

/-- The composition of a chain changed. -/
def State.setComp (k : Nat) (c : Comp) (s : State) : State :=
  s.updSnd fun t => { t with comps := AMap.put t.comps k c }

/-- The pipe of a chain issues the fetch of a source row for a row that its pixels read (R209). -/
def State.fetchLine (k d row read : Nat) (s : State) : State :=
  match s.comp k with
  | none => s
  | some c =>
    match s.fetchDeadline k d row c.slot c.frame, s.lineUnits k d read with
    | some w, u :: us => s.setComp k { c with fetched := insFetched ⟨d, w, u :: us⟩ c.fetched }
    | _, _ => s

/-! ### Compositions (R206, R209, R214) -/

/-- An event of a layer is raised once per frame: given if it has not been. -/
def State.onceEv (id layer : Nat) (s : State) : State × List (Nat × Word) :=
  match s.snd.ras with
  | none => (s, [])
  | some r =>
    if r.once.contains (id, layer) then (s, [])
    else (s.updRas fun r => { r with once := (id, layer) :: r.once }, [(id, 0)])

/-- The pipe of a chain begins the composition of a slot: layers get units in ascending order, or the pipe fails for
want of units (R206, R207). -/
def State.compBegin (k slot : Nat) (s : State) : State × List (Nat × Word) :=
  match s.snd.ras, s.rasChain k, s.serving k with
  | some r, some st, some p =>
    if st = .aborted then (s, [])
    else
      let ls := s.compLayers k slot
      let us := s.unitsOf p
      if us.length < ls.length then s.pipeFail p
      else
        let c : Comp := { frame := r.frame, slot := slot, units := ls.zip us, fetched := [], missed := [], poison := [] }
        let s := s.updSnd fun t => { t with comps := AMap.put t.comps k c }
        (ls.foldl (fun s d => s.wrFld .sender (Reg.LYR_STAT d) 12 0 0) s, [])
  | _, _, _ => (s, [])

/-- A line of a low-latency layer whose frame is open is still incomplete (R202). -/
def State.llMiss (f row : Nat) (s : State) : Bool :=
  match (s.flow f).frames with
  | [] => false
  | o :: _ => s.heldBuf f = some o.buf && s.runDone f o (s.flowH f) 0 ≤ row

/-- A low-latency flow whose layer fetches for the first time in the frame selects its buffer (R202). -/
def State.pickFirst (d f : Nat) (s : State) : State :=
  if bit (s.lyr d) 29 && !((s.snd.ras.map RasFrame.picked).getD []).contains f then
    (s.pickFlow f).updRas fun r => { r with picked := f :: r.picked }
  else s

/-- A fetch of a line of a flow's held buffer: a line still incomplete is missed, a stale one counts, and the line shown
in its place is read (R201, R202, R209). -/
def State.flowFetch (k d f b row : Nat) (c : Comp) (s : State) : State × List (Nat × Word) :=
  let x : State × List (Nat × Word) :=
    if s.heldOpen f then
      if s.llMiss f row then
        ((s.setComp k { c with missed := (d, row) :: c.missed }).bump .sender Reg.CMP_LL_MISS 1).onceEv Ev.LYR_LL_MISS d
      else (s, [])
    else if s.lineStale d f b [] row then
      let s := s.bump .sender Reg.CMP_STALE_LINES 1
      let n := s.fldOf .sender (Reg.LYR_STAT d) 12 0
      (s.wrFld .sender (Reg.LYR_STAT d) 12 0 (n + 1)).onceEv Ev.LYR_STALE d
    else (s, [])
  evThen x fun s =>
    (match s.rowShown d f b (((s.comp k).map Comp.missed).getD []) row with
    | none => s
    | some r => s.fetchLine k d row r, [])

/-- A fetch of a line of a layer's source (R201, R202, R209). -/
def State.layerFetch (k d row : Nat) (s : State) : State × List (Nat × Word) :=
  match s.comp k with
  | none => (s, [])
  | some c =>
    if !c.units.any (fun u => u.1 = d) then (s, [])
    else match s.lyrFlow d with
      | none => (s.fetchLine k d row row, [])
      | some f =>
        let s := s.pickFirst d f
        match s.heldBuf f with
        | none => (s, [])
        | some b => s.flowFetch k d f b row c

/-- A unit of a pipe is disabled; its layer is transparent for the rest of the composition (R207). -/
def State.unitOff (p u : Nat) (s : State) : State × List (Nat × Word) :=
  if s.bitOf .sender (Reg.CMP_PIPE_STAT p) u then
    let s := s.wrBit .sender (Reg.CMP_PIPE_STAT p) u false
    let s := (s.servedBy p).foldl (fun s k =>
      match s.comp k with
      | none => s
      | some c =>
        s.updSnd fun t => { t with comps := AMap.put t.comps k { c with units := c.units.filter fun x => x.2 ≠ u } }) s
    (s, [(Ev.CMP_UNIT_OFF p, 0)])
  else (s, [])

/-- A poisoned unit that the pipe of a chain asked for reaches its layer: the source pixels that the pipe takes from it
are replaced, each counted once (R190, R201). -/
def State.poisonUnit (k d unit : Nat) (s : State) : State × List (Nat × Word) :=
  match s.comp k, s.pixelsOf d unit with
  | some c, some (row, lo, hi) =>
    let cols := s.pipeCols k d
    let had := fun (col : Nat) => c.poison.any fun q => q.1 = d && q.2.1 = row && q.2.2.1 ≤ col && col ≤ q.2.2.2
    let n := ((List.range (hi + 1 - lo)).filter fun i => inCols cols (lo + i) && !had (lo + i)).length
    let s := s.setComp k { c with poison := (d, row, lo, hi) :: c.poison }
    if n = 0 then (s, []) else (s.bump .sender Reg.CMP_POISON n).onceEv Ev.LYR_POISON d
  | _, _ => (s, [])

/-! ### What the raster's registers show (R257, R258) -/

/-- `CHN_RAS_STAT` as it reads (R258). -/
def State.rasStat (s : State) : Word :=
  if !s.schedOn .sender then 0
  else match s.snd.ras with
    | none => 0xC0000000
    | some r =>
      let now := s.wall .sender
      let d := timeDiff now (s.lineAt r.frame 0)
      if r.skip && 0 ≤ d then 0xC0000000
      else
        -- before its first line, the frame before it still runs its last blank lines and its vertical sync
        let lines := fun (t : Int) => (t * 3 / ((4 * s.htot : Nat) : Int)).toNat
        let ln := if 0 ≤ d then lines d else s.frameLines + lines (timeDiff now (s.senderLatch (r.frame - 1)))
        let field := min (ln / s.fieldLines) (s.slots .sender - 1)
        let pos := ln - field * s.fieldLines
        let active := s.ras' Reg.CHN_RAS_VBP ≤ pos && pos < s.ras' Reg.CHN_RAS_VBP + 128
        wd (2 ^ 31 + (if active then 0 else 2 ^ 30) + field * 2 ^ 24 + ln % 1024)

/-- `CHN_RAS_NEXT` as it reads: the next sender latch point (R258). -/
def State.rasNext (s : State) : Word := if s.schedOn .sender then s.senderLatch s.sender.nextLatch else 0

/-- `CHN_STAT[k]` as it reads (R257). -/
def State.chnStat (k : Nat) (s : State) : Word :=
  let w := s.rd .sender (Reg.CHN_STAT k) &&& 0x0F000000
  let w := putBit w 31 (s.rasChain k == some .sending)
  let w := putBit w 30 (s.txActive .sender k)
  if s.isChain k then putFld w 20 16 ((s.serving k).getD 0) else w

/-! ### A raster line (R243, R248, R251) -/

/-- The composition that a raster line of a slot shows: none begun shows opaque black. -/
def State.compFor (k slot : Nat) (f : Word) (s : State) : Comp :=
  match s.comp k with
  | some c => if c.frame = f && c.slot = slot then c else ⟨f, slot, [], [], [], []⟩
  | none => ⟨f, slot, [], [], [], []⟩

/-- The pixels of a position in a raster line (R243). -/
def State.tileLine (k p y : Nat) (c : Comp) (s : State) : List (Nat × Bool × Bool) :=
  (List.range 256).map fun x =>
    let (cx, cy) := s.canvasAt k p x y
    s.pixelOut c cx cy

/-- The 84 payload words of 64 pixels (R280). -/
def pixPayload (px : List Nat) : List Word :=
  let n := px.foldl (fun n v => n * 2 ^ 42 + v) 0
  (List.range 84).map fun i => wd (n / 2 ^ (32 * (83 - i)))

/-- The four PIX packets of a position's row (R248, R279). -/
def State.sendPix (k p slot y : Nat) (f : Word) (px : List Nat) (s : State) : State :=
  (List.range 4).foldl (fun s g =>
    s.sendChain k (mkPacket tPIX p slot 0x7E (wd (y * 2 ^ 25 + g * 2 ^ 23))
      (f :: kWord s.letter k :: pixPayload ((px.drop (64 * g)).take 64)))) s

/-- The bytes of a pixel's word that enter a signature (R218). -/
def sigBytes (w : Nat) : List Byte := (List.range 6).map fun i => BitVec.ofNat 8 (w / 2 ^ (8 * i))

/-- A signature region takes its part of a row, and with its last row its SIG is sent (R218, R219). `row` gives the
words of each position. -/
def State.sigRow (k slot y : Nat) (f : Word) (sends : Bool) (row : List (List Nat)) (e : Nat) (s : State) : State :=
  let pos := s.rd .sender (Reg.SIG_POS e)
  let xy := s.rd .sender (Reg.SIG_XY e)
  let wh := s.rd .sender (Reg.SIG_WH e)
  let y0 := fld xy 22 16
  let h := fld wh 23 16
  if bit pos 31 && fld pos 27 24 = k && bit pos (16 + slot) && y0 ≤ y && y < y0 + h then
    let p := fld pos 5 0
    let px := ((row.getD p []).drop (fld xy 7 0)).take (fld wh 8 0)
    let was := if y = y0 then 0xFFFFFFFF else
      ((s.snd.ras.bind fun r => AMap.find r.crcs e).getD 0xFFFFFFFF)
    let crc := px.foldl (fun c w => crc32cUpd c (sigBytes w)) was
    let s := s.updRas fun r => { r with crcs := AMap.put r.crcs e crc }
    if y + 1 = y0 + h && sends then
      let sig : Word := wd crc ^^^ 0xFFFFFFFF
      let s := s.wr .sender (Reg.SIG_VAL e) sig
      let s := s.wr .sender (Reg.SIG_VAL_FRAME e) f
      let s := s.wr .sender (Reg.SIG_VAL_SLOT e) (wd slot)
      s.sendChain k (mkPacket tSIG p slot 0x7E (wd (e * 2 ^ 26)) [f, sig, kWord s.letter k])
    else s
  else s

/-- A preview pixel written: 12 bits a sample, 9 bytes for two pixels (R215). -/
def State.wbPut (buf px py w : Nat) (s : State) : State :=
  let v := (w / 2 ^ 30 % 4096) * 2 ^ 24 + (w / 2 ^ 16 % 4096) * 2 ^ 12 + w / 4 % 4096
  let a := 64 * (s.rd .sender Reg.CMP_WB_BASE).toNat + 64 * (s.rd .sender Reg.CMP_WB_BUFSZ).toNat * buf
    + py * s.fldOf .sender Reg.CMP_WB_PITCH 19 0 + px / 2 * 9
  if px % 2 = 0 then
    let s := s.fmPuts a (bytesOfNatBE 4 (v / 16))
    s.fmPut (a + 4) (BitVec.ofNat 8 (v % 16 * 16 + (s.fmByte (a + 4)).toNat % 16))
  else
    let s := s.fmPut (a + 4) (BitVec.ofNat 8 ((s.fmByte (a + 4)).toNat / 16 * 16 + v / 2 ^ 32))
    s.fmPuts (a + 5) (bytesOfNatBE 4 (v % 2 ^ 32))

/-- DIV of write-back (R221). -/
def State.wbDiv (s : State) : Nat := 2 ^ s.fldOf .sender Reg.CMP_WB_CTRL 17 16

/-- The units that a position's row takes in the write-back buffer, written through port WB (R215). -/
def State.wbUnits (buf k p y : Nat) (s : State) : List Nat :=
  let (cx, cy) := s.canvasAt k p 0 y
  let first := (cx + s.wbDiv - 1) / s.wbDiv
  let last := (cx + 255) / s.wbDiv
  let a := 64 * (s.rd .sender Reg.CMP_WB_BASE).toNat + 64 * (s.rd .sender Reg.CMP_WB_BUFSZ).toNat * buf
    + cy / s.wbDiv * s.fldOf .sender Reg.CMP_WB_PITCH 19 0
  if cy % s.wbDiv = 0 && first ≤ last then unitSpan (a + first / 2 * 9) ((last / 2 - first / 2 + 1) * 9) else []

/-- A position's row goes to the write-back buffer, if its slot does (R215). -/
def State.wbRow (k p slot y : Nat) (px : List Nat) (s : State) : State :=
  match s.snd.ras.bind RasFrame.wb with
  | none => s
  | some buf =>
    if s.fldOf .sender Reg.CMP_WB_CTRL 26 24 ≠ slot then s
    else
      let s := s.portUse 5 (s.wbUnits buf k p y)
      (List.range 256).foldl (fun s x =>
        let (cx, cy) := s.canvasAt k p x y
        if cx % s.wbDiv = 0 && cy % s.wbDiv = 0 then s.wbPut buf (cx / s.wbDiv) (cy / s.wbDiv) (px.getD x 0) else s) s

/-- The output stages take a canvas pixel of a chain once, where a position shows it first: not again where a fold
repeats the row, nor where a lower position holds the pixel (R231, R242). -/
def State.firstShown (k p x y : Nat) (s : State) : Bool :=
  let c := s.rd .sender (Reg.CHN_CTRL k)
  let (cx, cy) := s.canvasAt k p x y
  (!bit c 24 || y % 32 < fld c 21 16) && (List.range p).all fun q => !(s.posRect k q).has cx cy

/-- What a chain does in an active line y of a slot: compose, count, write back, and, while it sends, its PIX and SIG
packets (R215, R219, R231, R248, R251). -/
def State.chainLine (slot y : Nat) (f : Word) (k : Nat) (s : State) : State × List (Nat × Word) :=
  match s.rasChain k with
  | none => (s, [])
  | some .aborted => (s, [])
  | some st =>
    let c := s.compFor k slot f
    let px := (List.range (s.chainLen k)).map fun p => s.tileLine k p y c
    let row := px.map fun l => l.map Prod.fst
    let count := fun (g : Nat × Bool × Bool → Bool) => (List.range (s.chainLen k)).foldl (fun n p =>
      n + ((List.range 256).filter fun x => g ((px.getD p []).getD x (0, false, false)) && s.firstShown k p x y).length) 0
    let neg := count fun q => q.2.1
    let above := count fun q => q.2.2
    let s := s.bump .sender Reg.CLR_NEG neg
    let s := s.bump .sender Reg.CLR_OVER above
    let x := if neg = 0 then (s, []) else s.onceEv Ev.CLR_NEG 0
    let x := if above = 0 then x else evThen x (State.onceEv Ev.CLR_OVER 0)
    evThen x fun s =>
      let s := (List.range (s.chainLen k)).foldl (fun s p => s.wbRow k p slot y (row.getD p [])) s
      let up := st = .sending && s.txActive .sender k
      let s := s.setRasChain k (if up then .sending else .unsent)
      let s := if up then
          (List.range (s.chainLen k)).foldl (fun s p => s.sendPix k p slot y f (row.getD p [])) s
        else s
      ((List.range 64).foldl (fun s e => s.sigRow k slot y f up row e) s, [])

/-- The highest queue level of a chain in a line; beyond 4,096 pixels the frame is aborted (R246, R252). -/
def State.queueLevel (levels : List Nat) (k : Nat) (s : State) : State × List (Nat × Word) :=
  let n := levels.getD k 0
  let a := Reg.CHN_QMAX k
  let s := s.wr .sender a (wd (max (min n 4096) (s.rd .sender a).toNat))
  if 4096 < n then s.rasAbort k 4 else (s, [])

/-- The chains of the frame in progress. -/
def State.rasChains (s : State) : List Nat := ((s.snd.ras.map RasFrame.chains).getD []).map Prod.fst

/-- The next raster line of the frame in progress starts (R243 to R245). -/
def State.rasLine (levels : List Nat) (s : State) : State × List (Nat × Word) :=
  match s.snd.ras with
  | none => (s, [])
  | some r =>
    if r.skip || s.frameLines ≤ r.line || !s.reachedAt .sender (s.lineAt r.frame r.line) then (s, [])
    else
      let s := if r.line = 0 then
          s.rasChains.foldl (fun s k =>
            if s.rasChain k = some .fresh then s.setRasChain k (if s.txActive .sender k then .sending else .unsent)
            else s) s
        else s
      let s := s.updRas fun r => { r with line := r.line + 1 }
      let slot := r.line / s.fieldLines
      let pos := r.line % s.fieldLines
      let vbp := s.ras' Reg.CHN_RAS_VBP
      let x := evEach s.rasChains (State.queueLevel levels) s
      if vbp ≤ pos && pos < vbp + 128 then
        evThen x (evEach s.rasChains (State.chainLine slot (pos - vbp) r.frame))
      else x

/-! ### Frames (R245, R249 to R255) -/

/-- The SYNC of a frame (R249). -/
def State.syncPacket (f : Word) (k : Nat) (s : State) : Packet :=
  let n := s.slots .sender
  mkPacket tSYNC destAll 0 0x7E (wd (n * 2 ^ 28))
    (f :: kWord s.letter k :: (List.range n).flatMap fun i =>
      [s.baseOf .sender f + s.rd .sender (Reg.TIME_SLOT_CUR i), s.rd .sender (Reg.TIME_SLOT_LEN i) &&& 0x3FFFFFF])

/-- A chain's frame is closed at the latch point (R249 to R251). -/
def State.chainClose (f : Word) (k : Nat) (s : State) : State × List (Nat × Word) :=
  match s.rasChain k with
  | none => (s, [])
  | some .aborted => (s, [])
  | some st =>
    if st ≠ .unsent && s.txActive .sender k then
      let s := s.sendChain k (s.syncPacket f k)
      ((s.bump .sender (Reg.CHN_FRAMES k) 1).wr .sender (Reg.CHN_SYNC_FRAME k) f, [])
    else (s.bump .sender (Reg.CHN_UNSENT k) 1, [(Ev.CHN_NOLINK k, 0)])

/-- The write-back buffer of a frame is complete unless a chain aborted it (R215). -/
def State.wbClose (f : Word) (r : RasFrame) (s : State) : State :=
  match r.wb with
  | none => s
  | some b =>
    if r.chains.any fun c => c.2 = .aborted then s
    else
      let s := s.wr .sender Reg.CMP_WB_STAT (wd (2 ^ 31 + b * 2 ^ 16))
      let s := s.wr .sender Reg.CMP_WB_FRAME f
      s.updSnd fun t => { t with wbTs := mediaTime (s.ptpAt (s.originOf .sender f)) }

/-- The latch point of frame F closes the frame in progress, if it is F: SYNC on every chain and on the cross-link
(R249, R250). -/
def State.rasClose (f : Word) (s : State) : State × List (Nat × Word) :=
  match s.snd.ras with
  | none => (s, [])
  | some r =>
    let done := fun (x : State × List (Nat × Word)) =>
      (x.1.updSnd fun t => { t with ras := none, comps := [] }, x.2)
    if r.frame ≠ f || r.skip then done (s, [])
    else
      done (evThen (evEach s.rasChains (State.chainClose f) s) fun s =>
        let s := (List.range 16).foldl (fun s k =>
          if s.fldOf .sender (Reg.CHN_CTRL k) 31 30 = 2 then s.sendChain k (s.syncPacket f k) else s) s
        (s.wbClose f r, []))

/-- The write-back buffer that a frame goes to: the next in rotation that is neither the latest complete one nor being
sent (R215). -/
def State.wbChoose (s : State) : Option Nat :=
  if s.bitOf .sender Reg.CMP_WB_CTRL 31 then
    let ok := fun b =>
      !(s.bitOf .sender Reg.CMP_WB_STAT 31 && s.fldOf .sender Reg.CMP_WB_STAT 17 16 = b) && (s.snd.pv.map PvRun.buf) ≠ some b
    ((List.range 3).map fun i => (s.snd.wbNext + i) % 3).find? ok
  else none

/-- The rasters run: the sender is in neither its safe nor its lehr state (R405, R424). -/
def State.rasOn (s : State) : Bool := s.schedOn .sender && !s.safe .sender && !s.lehr .sender

/-- The rasters begin a frame, or skip it (R252, R255). A chain without a pipe aborts it. -/
def State.rasBegin (f : Word) (skip : Bool) (s : State) : State × List (Nat × Word) :=
  if !s.rasOn then (s, [])
  else if skip then
    let s := s.updSnd fun t => { t with
      ras := some { frame := f, skip := true, line := 0, chains := [], wb := none, once := [], crcs := [], picked := [] } }
    (s.bump .sender Reg.CHN_RAS_SKIP 1, [(Ev.CHN_SKIP, 0)])
  else
    let wb := s.wbChoose
    let ks := (List.range 16).filter fun k => s.isChain k
    let s := s.updSnd fun t => { t with
      ras := some { frame := f, skip := false, line := 0, chains := ks.map fun k => (k, .fresh), wb := wb, once := [],
                    crcs := [], picked := [] },
      wbNext := match wb with
        | none => t.wbNext
        | some b => (b + 1) % 3 }
    evEach (ks.filter fun k => (s.serving k).isNone) (fun k s => s.rasAbort k 3) s

/-! ### The preview flow (R216) -/

/-- One's-complement checksum of an IPv4 header of 20 bytes whose checksum field is 0. -/
def ipChecksum (h : List Byte) : Nat := 65535 - ipSum h 0 10

/-- The preview frame that starts now from a buffer, at the origin of frame n, as the registers describe it (R216). -/
def State.pvRun (n : Word) (buf : Nat) (s : State) : PvRun :=
  let c := s.rd .sender Reg.CMP_CANVAS
  let d := s.wbDiv
  let ctl := s.rd .sender Reg.CMP_PV_CTRL
  let bytes := (fld c 13 0 + d - 1) / d * 9 / 2
  let plen := s.fldOf .sender Reg.CMP_PV_PLEN 13 0
  let w4 := fun (a : Nat) => bytesBE [s.rd .sender a]
  { buf := buf, ts := s.snd.wbTs, seq := s.snd.pvSeq, next := 0, port := fld ctl 29 28, lines := (fld c 29 16 + d - 1) / d,
    bytes := bytes, plen := plen, per := (bytes + plen - 1) / plen,
    base := 64 * (s.rd .sender Reg.CMP_WB_BASE).toNat + 64 * (s.rd .sender Reg.CMP_WB_BUFSZ).toNat * buf,
    pitch := s.fldOf .sender Reg.CMP_WB_PITCH 19 0,
    start := s.originOf .sender n, span := 15 * (fld ctl 18 16 + 1) * (s.sched .sender).period / (16 * ns),
    eth := bytesOfNatBE 2 (s.fldOf .sender Reg.CMP_PV_DMAC_HI 15 0) ++ w4 Reg.CMP_PV_DMAC_LO
      ++ bytesOfNatBE 6 (s.netMac (fld ctl 29 28)) ++ bytesOfNatBE 2 0x0800,
    iph := s.rd .sender Reg.CMP_PV_IPH, ips := w4 Reg.CMP_PV_SRC_IP ++ w4 Reg.CMP_PV_DST_IP, ports := w4 Reg.CMP_PV_PORTS,
    pt := fld ctl 6 0, ssrc := w4 Reg.CMP_PV_SSRC }

/-- The packets of a preview frame (R216). -/
def PvRun.count (r : PvRun) : Nat := r.lines * r.per

/-- Where the payload of packet j lies in its line, and its bytes: no packet crosses a line (R216). -/
def PvRun.off (r : PvRun) (j : Nat) : Nat := j % r.per * r.plen
def PvRun.len (r : PvRun) (j : Nat) : Nat := min r.plen (r.bytes - r.off j)

/-- Where the payload of packet j lies in frame memory. -/
def PvRun.addr (r : PvRun) (j : Nat) : Nat := r.base + j / r.per * r.pitch + r.off j

/-- Packet j of a preview frame as an Ethernet frame (R216). IPv4 identification, its DF flag, the UDP checksum and the
first sequence number are open values. -/
def PvRun.packet (r : PvRun) (j : Nat) (open' : Word) (udpSum : Nat) (data : List Byte) : List Byte :=
  let len := r.len j
  let seq := (Config.freeValue 13 0).toNat + r.seq + j
  let h := bytesOfNatBE 2 (0x4500 + fld r.iph 5 0 * 4) ++ bytesOfNatBE 2 (48 + len) ++ bytesOfNatBE 2 (fld open' 15 0)
    ++ bytesOfNatBE 2 (fld open' 16 16 * 2 ^ 14) ++ bytesOfNatBE 2 (fld r.iph 15 8 * 256 + 17)
  let sum := ipChecksum (h ++ bytesOfNatBE 2 0 ++ r.ips)
  r.eth ++ h ++ bytesOfNatBE 2 sum ++ r.ips
    ++ r.ports ++ bytesOfNatBE 2 (28 + len) ++ bytesOfNatBE 2 udpSum
    ++ bytesOfNatBE 2 (0x8000 + (if j + 1 = r.count then 128 else 0) + r.pt)
    ++ bytesOfNatBE 2 (seq % 65536) ++ bytesBE [r.ts] ++ r.ssrc
    ++ bytesOfNatBE 2 (seq / 65536 % 65536) ++ bytesOfNatBE 2 len ++ bytesOfNatBE 2 (j / r.per)
    ++ bytesOfNatBE 2 (r.off j / 9 * 2) ++ data

/-- Packet j of a preview frame leaves on its port, read through port PREV (R216). -/
def State.pvSend (r : PvRun) (poisoned : Bool) (j : Nat) (s : State) : State × List (Nat × Word) :=
  let (a, s) := s.free 12
  let (b, s) := s.free 12
  let s := s.portUse 8 (unitSpan (r.addr j) (r.len j))
  s.netSend r.port (r.packet j a (fld b 15 0) (State.fmBytes (r.addr j) s (r.len j))) poisoned

/-- A port can send a preview packet: its link is up and TXR0 has no frame waiting (R112, R117). -/
def State.pvFree (i : Nat) (s : State) : Bool := s.netUp i && !s.txWaits i 0

/-- The preview frame being sent goes on to packet n, if its port can send; with its last packet it is complete (R216,
R117). `bad` tells which packets hold a poisoned unit. -/
def State.pvTo (n : Nat) (bad : Nat → Bool) (s : State) : State × List (Nat × Word) :=
  match s.snd.pv with
  | none => (s, [])
  | some r =>
    if s.pvFree r.port then
      let js := (List.range (min n r.count - r.next)).map fun i => r.next + i
      evThen (evEach js (fun j => State.pvSend r (bad j) j) s) fun s =>
        if min n r.count < r.count then (s.updSnd fun t => { t with pv := some { r with next := max r.next n } }, [])
        else
          let s := s.updSnd fun t => { t with pv := none }
          ((s.wrBit .sender Reg.CMP_PV_STAT 31 false).bump .sender Reg.CMP_PV_SENT 1, [(Ev.PV_FRAME, 0)])
    else (s, [])

/-- The preview flow starts at the origin of a frame whose number is a multiple of PV_DIV: an unfinished preview frame
is cut short, of which `sent` packets had left (R216). -/
def State.pvStart (sent : Nat) (s : State) : State × List (Nat × Word) :=
  let n := s.rd .sender Reg.TIME_FRM_NUM
  let div := s.fldOf .sender Reg.CMP_PV_CTRL 18 16 + 1
  if !s.bitOf .sender Reg.CMP_PV_CTRL 31 || !s.rasOn || n.toNat % div ≠ 0 || s.snd.pvAt = some n then (s, [])
  else
    let s := s.updSnd fun t => { t with pvAt := some n }
    let x : State × List (Nat × Word) := match s.snd.pv with
      | none => (s, [])
      | some r =>
        let x := s.pvTo (min sent (r.count - 1)) fun _ => false
        (x.1.bump .sender Reg.CMP_PV_LATE 1, x.2 ++ [(Ev.PV_LATE, 0)])
    evThen x fun s =>
      if s.bitOf .sender Reg.CMP_WB_STAT 31 then
        let r := s.pvRun n (s.fldOf .sender Reg.CMP_WB_STAT 17 16)
        let s := s.updSnd fun t => { t with pv := some r, pvSeq := t.pvSeq + r.count }
        (s.wr .sender Reg.CMP_PV_STAT (wd (2 ^ 31 + r.buf * 2 ^ 16)), [])
      else
        ((s.updSnd fun t => { t with pv := none }).wrBit .sender Reg.CMP_PV_STAT 31 false, [])

/-- The packets of the preview frame that are left leave (R216). -/
def State.pvDone' (poisoned : List Nat) (s : State) : State × List (Nat × Word) :=
  match s.snd.pv with
  | none => (s, [])
  | some r => s.pvTo r.count poisoned.contains

/-- A packet of the preview frame is due on a port (R216, R117). DESIGN CHOICE: packet j of n falls due j/n of the way
from the origin to the time by which the last is to leave. -/
def State.pvDue (i : Nat) (s : State) : Option PvRun :=
  s.snd.pv.bind fun r =>
    if r.port = i && s.reachedAt .sender (r.start + wd (r.span * r.next / r.count)) then some r else none

/-- What a port sends next while its link is up (R117): a frame of TXR0, else a preview packet that is due, else a frame
of TXR1. -/
def State.netNext (i : Nat) (poisoned : Bool) (lag : Word) (s : State) : State :=
  if !s.netUp i then s
  else if s.txWaits i 0 then s.txFrame i 0 poisoned lag
  else match s.pvDue i with
    | some r => evRaise .sender (s.pvTo (r.next + 1) fun _ => poisoned)
    | none => if s.txWaits i 1 then s.txFrame i 1 poisoned lag else s

/-! ### Reads of the frame memory by the pipes (R181, R190, R252) -/

/-- A read answered late, or with a poisoned unit, on a compositor port (R190, R252). -/
def State.pipeRead (r : RdReq) (late poisoned : Bool) (s : State) : State × List (Nat × Word) :=
  if r.port < 4 then
    let x := match poisoned, r.layer with
      | true, some d => s.poisonUnit r.chain d r.unit
      | _, _ => (s, [])
    if late then evThen x (State.rasAbort r.chain 1) else x
  else (s, [])

/-- Reads answered from the write queue, or as the memory powers down, reach their pipes. -/
def State.pipeReads (x : State × Answers) : State :=
  evRaise .sender (evEach x.2 (fun a s => s.pipeRead a.1 a.2 false) x.1)

/-- A write of `DRC_CTRL`, with the reads that it answers (R174, R179). -/
def State.drcPut (v : Word) (s : State) : State := State.pipeReads (s.drcCtrlWrite v)

/-- The pipe that serves a chain asks for a unit through a DRAM port, and the deadline and layer of the request (R29,
R204, R209): its own quadrant's port; of its layers with units to ask for, the lowest; the deadline of the line. A unit of
no such line, as of a line-status map, has the deadline given and no layer. -/
def State.pipeAsk (port unit k : Nat) (given : Word) (s : State) : Option (State × Word × Option Nat) :=
  if (s.serving k).map pipePort ≠ some port then none
  else match s.comp k with
    | none => some (s, given, none)
    | some c =>
      match c.fetched.find? (fun l => l.left.contains unit), c.fetched with
      | some l, low :: _ =>
        if low.layer < l.layer then none
        else
          let rest := (c.fetched.map fun x =>
            if x = l then { x with left := x.left.filter fun u => u ≠ unit } else x).filter fun x => !x.left.isEmpty
          some (s.setComp k { c with fetched := rest }, l.deadline, some l.layer)
      | _, _ => some (s, given, none)

/-- A read request of a port (R172, R184): beyond the installed memory it returns ones. -/
def State.readRequest (port unit k : Nat) (layer : Option Nat) (deadline : Word) (s : State) : State :=
  if s.installed ≤ 64 * unit then
    s.updDram fun d => { d with last := some ⟨port, unit, List.replicate 64 0xFF, false⟩ }
  else State.pipeReads (s.dramRequest (.read ⟨unit, port, k, layer, deadline, s.wall .sender, [], []⟩))

/-- The oldest issued read of a channel returns (R189). -/
def State.dramReturn (i : Nat) (ecc : Ecc) (s : State) : State :=
  match (s.dch i).flight with
  | [] => s
  | r :: rs =>
    let s := s.updCh i fun c => { c with flight := rs }
    let (s, bad) := s.readEcc i r.unit ecc
    let (data, s) := if bad then s.freeUnit else (r.data, s)
    let (s, late) := s.readDone' r data bad
    evRaise .sender (s.pipeRead r late bad)

/-! ### The commands -/

/-- DRAM_READ_REQUEST (R184): on ports 0 to 3 a request of the pipe that serves a chain, which passes over a port that is
not its quadrant's and a layer that is not its turn (R29, R204). -/
def execDramReadRequest (port : Fin 12) (unit : BitVec 29) (chain : Fin 16) (deadline : Word) (s : State) :
    Host.Outcome State Fault Refusal :=
  .next (s.when' .sender fun s =>
    if port.val < 4 then
      match s.pipeAsk port.val unit.toNat chain.val deadline with
      | none => s
      | some (t, w, layer) => t.readRequest port.val unit.toNat chain.val layer w
    else s.readRequest port.val unit.toNat chain.val none (s.deadlineOf port.val deadline))

/-- DRC_ENABLE (R174): TRACK_EN stays. -/
def execDrcEnable (s : State) : Host.Outcome State Fault Refusal :=
  .next (s.when' .sender fun s => s.drcPut (s.rd .sender Reg.DRC_CTRL ||| 1))

/-- DRC_DISABLE (R179): TRACK_EN stays. -/
def execDrcDisable (s : State) : Host.Outcome State Fault Refusal :=
  .next (s.when' .sender fun s => s.drcPut (s.rd .sender Reg.DRC_CTRL &&& 2))

/-- DRAM_ISSUE (R182). -/
def execDramIssue (ch : Fin 8) (ecc : Ecc) (s : State) : Host.Outcome State Fault Refusal :=
  .next (s.when' .sender fun s => State.pipeReads (s.dramIssue ch.val ecc))

/-- TX_FRAME_SENT (R117): nothing is sent while LINK is 0 (R112). -/
def execTxFrameSent (i : Fin 4) (poisoned : Bool) (lag : Word) (s : State) : Host.Outcome State Fault Refusal :=
  .next (s.when' .sender (State.netNext i.val poisoned lag))

/-- DRAM_READ_COMPLETE (R189). -/
def execDramReadComplete (ch : Fin 8) (ecc : Ecc) (s : State) : Host.Outcome State Fault Refusal :=
  .next (s.when' .sender (State.dramReturn ch.val ecc))

/-- COMPOSITION_START (R206). -/
def execCompositionStart (k : Fin 16) (slot : Fin 8) (s : State) : Host.Outcome State Fault Refusal :=
  .next (s.when' .sender fun s =>
    if slot.val < s.slots .sender then evRaise .sender (s.compBegin k.val slot.val) else s)

/-- LAYER_FETCH (R209). -/
def execLayerFetch (k : Fin 16) (d : Fin 64) (row : BitVec 14) (s : State) : Host.Outcome State Fault Refusal :=
  .next (s.when' .sender fun s => evRaise .sender (s.layerFetch k.val d.val row.toNat))

/-- LAYER_UNIT_PARITY (R207). -/
def execLayerUnitParity (p : Fin 17) (u : Fin 16) (s : State) : Host.Outcome State Fault Refusal :=
  .next (s.when' .sender fun s => evRaise .sender (s.unitOff p.val u.val))

/-- PIPE_ECC_ERROR (R207). -/
def execPipeEccError (p : Fin 17) (s : State) : Host.Outcome State Fault Refusal :=
  .next (s.when' .sender fun s => evRaise .sender (s.pipeFail p.val))

/-- PREVIEW_START (R216). -/
def execPreviewStart (sent : Nat) (s : State) : Host.Outcome State Fault Refusal :=
  .next (s.when' .sender fun s => evRaise .sender (s.pvStart sent))

/-- PV_FRAME (R216). -/
def execPvFrame (poisoned : List Nat) (s : State) : Host.Outcome State Fault Refusal :=
  .next (s.when' .sender fun s => evRaise .sender (s.pvDone' poisoned))

/-- RASTER_LINE_START (R243). -/
def execRasterLineStart (levels : List Nat) (s : State) : Host.Outcome State Fault Refusal :=
  .next (s.when' .sender fun s => if s.rasOn then evRaise .sender (s.rasLine levels) else s)

end Sys2Proof.Machine
end

