-- ==== Sys2Proof/Machine/Events.lean ====
section
/-!
DEFINITION. The event logs, the tile's telemetry, routing writes, escalation, the safe-state command, the accession
record's clear, the collector's self-check and the node and fabric faults (R411 to R432), with the meaning of each
command. Raising itself is in `Flags`.
-/

namespace Sys2Proof.Machine

/-! ### The sender's logs (R418) -/

/-- `EVT_LOG_POP` (R418): a pop of an empty log removes nothing. -/
def State.logPop (s : State) : State :=
  let s := s.upd .sender fun c => { c with log := c.log.drop 1 }
  s.setLevel .sender Ev.LOG_READY (!s.sender.log.isEmpty)

/-- `EVT_TLOG_POP` (R418). -/
def State.tlogPop (s : State) : State :=
  let s := s.updSnd fun t => { t with tlog := t.tlog.drop 1 }
  s.setLevel .sender Ev.TLOG_READY (!s.snd.tlog.isEmpty)

/-- A tile's record enters the tile log, or finds it full (R418). -/
def State.tlogPut (src : Word) (r : EvRec) (s : State) : State :=
  if 1024 ≤ s.snd.tlog.length then (s.updSnd fun t => { t with tlogLost := true }).raise .sender Ev.TLOG_OVF
  else
    let r := if s.snd.tlogLost then { r with w0 := putBit r.w0 28 true } else r
    let s := s.updSnd fun t => { t with tlog := t.tlog ++ [(r, src)], tlogLost := false }
    s.setLevel .sender Ev.TLOG_READY true

/-- The records of a TEL payload, four words each. -/
def telRecords : List Word → List EvRec
  | a :: b :: c :: d :: l => ⟨a, b, c, d, 0⟩ :: telRecords l
  | _ => []

/-- The SEQ of a TEL packet is followed for each chain port and position (R418). -/
def State.telTrack (k : Nat) (pkt : Packet) (s : State) : State :=
  let key := 128 * k + Pkt.src pkt
  let seq := fld (Pkt.w pkt 2) 31 24
  let was := AMap.find s.snd.telSeq key
  let s := s.updSnd fun t => { t with telSeq := AMap.put t.telSeq key seq }
  match was with
  | none => s
  | some v => if (v + 1) % 256 = seq then s else s.raise .sender Ev.TEL_SEQ_GAP

/-- The payload words of a TEL packet (R279). -/
def telPayload (pkt : Packet) : List Word := ((Pkt.body pkt).drop 1).take (fld (Pkt.w pkt 2) 23 16)

/-- The source word of a record that a tile sent (R418). -/
def State.tlogSrc (k : Nat) (pkt : Packet) (s : State) : Word :=
  wd (k * 2 ^ 16 + letterBit s.letter * 2 ^ 8 + Pkt.src pkt)

/-! ### The tile's telemetry (R419) -/

/-- A TEL packet of the tile toward a sender (R279, R419): SEQ advances with every packet formed. -/
def State.telForm (l : Letter) (kind tag : Nat) (payload : List Word) (s : State) : State :=
  let pkt := mkPacket tTEL destSender 0 (s.srcOf .tile) (wd (kind * 2 ^ 28 + tag * 2 ^ 8))
    (wd (s.til.telSeq * 2 ^ 24 + payload.length * 2 ^ 16) :: payload)
  (s.updTil fun t => { t with telSeq := (t.telSeq + 1) % 256 }).ownPush (portToward l) pkt

/-- A batch of records is due (R419). -/
def State.telDue (s : State) : Bool :=
  match s.tile.log with
  | [] => false
  | r :: _ =>
    s.fldOf .tile Reg.EVT_CTRL 23 16 ≤ s.tile.log.length
      || s.timedOut .tile r.entered (1000 * s.fldOf .tile Reg.EVT_CTRL 9 0)

/-- A batch goes while the direction toward destination 0 is UP (R419). -/
def State.telBatch (s : State) : State :=
  if s.telDue && s.txActive .tile (portToward s.followed) then
    let rs := s.tile.log.take 16
    let s := s.upd .tile fun c => { c with log := c.log.drop 16 }
    s.telForm s.followed 7 0 (rs.flatMap fun r => [r.w0, r.w1, r.w2, r.w3])
  else s

/-! ### Routing (R415, R417, R430) -/

/-- `EVT_ROUTE[i]` is written; LOG or TEL of LOG_OVF, TLOG_OVF and TEL_DROP stays 0 (R430). -/
def State.routeWrite (p : Part) (i : Nat) (v : Word) (s : State) : State :=
  let mask : Word := match p with
    | .sender => 0xE03F000F
    | .tile => 0xC0000001
  let never := match p with
    | .sender => i = Ev.LOG_OVF || i = Ev.TLOG_OVF
    | .tile => i = Ev.TEL_DROP
  let n := match p with
    | .sender => 0x600
    | .tile => 0x440
  if n ≤ i then s
  else
    let w := v &&& mask
    s.wr p (Reg.EVT_ROUTE i) (if never then putBit w 30 false else w)

/-- `EVT_CTRL` is written: outside either range the write is discarded (R430). -/
def State.evtCtrlWrite (v : Word) (s : State) : State :=
  if 1 ≤ fld v 23 16 && fld v 23 16 ≤ 16 && 1 ≤ fld v 9 0 && fld v 9 0 ≤ 1000 then
    s.wr .tile Reg.EVT_CTRL (v &&& 0x00FF03FF)
  else s

/-- `FLT_GRACE` is written: outside the range the write is discarded (R431). -/
def State.fltGraceWrite (p : Part) (v : Word) (s : State) : State :=
  if 1 ≤ fld v 19 0 && fld v 19 0 ≤ 1000000 then s.wr p Reg.FLT_GRACE (v &&& 0xFFFFF) else s

/-! ### Escalation, safe state and accession record (R421, R423, R426, R428) -/

/-- A slot's due time is reached (R421). -/
def State.slotDue (p : Part) (a : Nat) (s : State) : State :=
  match AMap.find (s.chip p).att a with
  | none => s
  | some t =>
    if s.reachedAt p t.due then
      let s := s.upd p fun c => { c with att := AMap.del c.att a }
      let (s, ev) := s.escalate p t.id
      s.raiseAll p ev
    else s

/-- `FLT_SAFE_CMD` is written (R423). -/
def State.safeCmd (p : Part) (v : Word) (s : State) : State := if v = 0x5AFE then s.enterSafe p 4 0 else s

/-- `FLT_CLR_FIRST` (R426): the record is cleared and a run starts. -/
def State.clrFirst (p : Part) (s : State) : State := s.upd p fun c => { c with acc := Accession.empty }

/-- The collector's check fails (R428): the safe state with CAUSE 3, the fault latched if the record is sound. The fault
raises no event; what the safe state stops raises its own (R302, R424). -/
def State.collFail (p : Part) (recSound : Bool) (s : State) : State :=
  let id := Ev.COLL_CHECK p
  let r : EvRec := ⟨wd (4 * 2 ^ 29 + id), s.wall p, s.rd p Reg.TIME_FRM_NUM, 0, 0⟩
  let pos := s.accPos p
  let s :=
    if !recSound then s
    else s.upd p fun c => { c with acc :=
      if c.acc.valid then { c.acc with ovf := true } else { c.acc with record := r, valid := true, pos := pos } }
  s.enterSafe p 3 id

/-! ### Node and fabric faults (R429) -/

/-- A parity error in a block's control node (R38, R429): the tile's region of 16 blocks goes dark (R36); a sender pipe
fails. -/
def State.nodeBlock (p : Part) (n : Nat) (s : State) : State :=
  let ev : Nat × Word := (Ev.NODE_BLOCK p, wd n)
  match p with
  | .tile => (s.darken (n / 16)).raiseAll .tile [ev]
  | .sender =>
    if n < 17 then
      let (s, evs) := s.pipeFail n
      s.raiseAll .sender (ev :: evs)
    else s.raiseAll .sender [ev]

/-- A port is shut down as `LNK_CTRL.EN` = 0 shuts it (R429). -/
def State.shutPort (k : Nat) (s : State) : State := s.lnkCtrlWrite .sender k (putBit (s.rd .sender (Reg.LNK_CTRL k)) 31 false)

/-- A fabric error within a quadrant shuts down the chain ports and the NET port whose traffic it touched (R429). -/
def State.fabricErr (q : Nat) (chains : Nat) (net : Bool) (s : State) : State :=
  let s := (List.range 4).foldl (fun s m => if chains.testBit m then s.shutPort (4 * q + m) else s) s
  let s := if net then s.netCtrlWrite q (s.rd .sender (Reg.NET_CTRL q) &&& 2) else s
  s.raise .sender (Ev.FABRIC_ERR q)

/-! ### The commands -/

/-- EVT_LOG_POP (R418). -/
def execEvtLogPop (s : State) : Host.Outcome State Fault Refusal := .next (s.when' .sender State.logPop)

/-- EVT_TLOG_POP (R418). -/
def execEvtTlogPop (s : State) : Host.Outcome State Fault Refusal := .next (s.when' .sender State.tlogPop)

/-- EVT_ROUTE_WRITE (R417). -/
def execEvtRouteWrite (p : Part) (i : Nat) (v : Word) (s : State) : Host.Outcome State Fault Refusal :=
  .next (s.when' p (State.routeWrite p i v))

/-- TEL_BATCH_SEND (R419). -/
def execTelBatchSend (s : State) : Host.Outcome State Fault Refusal := .next (s.when' .tile State.telBatch)

/-- TEL_EVENT_RECORDS (R418). -/
def execTelEventRecords (k : Fin 16) (pkt : Packet) (s : State) : Host.Outcome State Fault Refusal :=
  .next (s.arriveSender k.val pkt (Pkt.is pkt tTEL 7) fun s =>
    let src := s.tlogSrc k.val pkt
    (telRecords (telPayload pkt)).foldl (fun s r => s.tlogPut src r) (s.telTrack k.val pkt))

/-- FLT_ESCALATED (R421). -/
def execFltEscalated (p : Part) (a : Fin 16) (s : State) : Host.Outcome State Fault Refusal :=
  .next (s.when' p (State.slotDue p a.val))

/-- FLT_SAFE_CMD (R423). -/
def execFltSafeCmd (p : Part) (v : Word) (s : State) : Host.Outcome State Fault Refusal :=
  .next (s.when' p (State.safeCmd p v))

/-- FLT_CLR_FIRST (R426). -/
def execFltClrFirst (p : Part) (s : State) : Host.Outcome State Fault Refusal := .next (s.when' p (State.clrFirst p))

/-- COLL_CHECK (R428): a check that finds nothing changes nothing. -/
def execCollCheck (p : Part) (fail recSound : Bool) (s : State) : Host.Outcome State Fault Refusal :=
  .next (s.when' p fun s => if fail then s.collFail p recSound else s)

/-- NODE_BLOCK (R429). -/
def execNodeBlock (p : Part) (n : Fin 64) (s : State) : Host.Outcome State Fault Refusal :=
  .next (s.when' p (State.nodeBlock p n.val))

/-- NODE_REGION (R429): FATAL, so the part enters its safe state. -/
def execNodeRegion (p : Part) (r : Fin 4) (s : State) : Host.Outcome State Fault Refusal :=
  .next (s.when' p fun s => s.raise p (Ev.NODE_REGION p) (wd r.val))

/-- FABRIC_ERR (R429). -/
def execFabricErr (q : Fin 4) (chains : BitVec 4) (net : Bool) (s : State) : Host.Outcome State Fault Refusal :=
  .next (s.when' .sender (State.fabricErr q.val chains.toNat net))

/-- FABRIC_CHIP (R429): FATAL. -/
def execFabricChip (s : State) : Host.Outcome State Fault Refusal :=
  .next (s.when' .sender fun s => s.raise .sender Ev.FABRIC_CHIP)

end Sys2Proof.Machine
end

