-- ==== Sys2Proof/Machine/Scan.lean ====
section
/-!
DEFINITION. Decode and correction of a pixel (R330 to R333), the drive word of a lamp (R346), PWM
segmentation (R350), line slots and scans (R352 to R357), the latch point's thermal gain and weights (R333,
R362, R363), with the meanings of SLOT_WINDOW_START and PIXEL_CORRECT.
-/

namespace Sys2Proof.Machine

/-! ### Correction (R330, R331) -/

/-- The 240-bit string of a pixel's correction in a bank (R334). -/
def State.corString (b : Bool) (x y : Nat) (s : State) : Nat :=
  let j := 15 * ((256 * y + x) / 2)
  let pair := natOfWordsBE ((List.range 15).map fun i => s.bankWord b (j + i))
  if x % 2 = 0 then pair / 2 ^ 240 else pair % 2 ^ 240

/-- Field of `w` bits whose first bit is bit `at'` of a 240-bit string, as a number. -/
def corField (str at' w : Nat) : Nat := str / 2 ^ (240 - at' - w) % 2 ^ w

/-- A 12-bit coefficient as a signed number (R331). -/
def corCoef (str at' : Nat) : Int :=
  let n := corField str at' 12
  if 2048 ≤ n then (n : Int) - 4096 else n

/-- D of a 14-bit code (R330). -/
def State.decodeCode (c : Nat) (s : State) : Nat := s.fldOf .tile (Reg.COR_DEC c) 19 0

/-- The sum of R331 for lamp r, scaled: x. -/
def corX (str r : Nat) (w : Nat) (d : List Nat) : Int :=
  let term := fun c : Nat =>
    ((256 - (w : Int)) * corCoef str (12 * (3 * r + c)) + (w : Int) * corCoef str (108 + 12 * (3 * r + c))) *
      (d.getD c 0 : Nat)
  asr (term 0 + term 1 + term 2 + 131072) 18

/-- The lamp value of R331 from x and the black offset. -/
def corL (x : Int) (o sh : Nat) : Nat :=
  if x ≤ 0 then 0 else (min (x + (o * 2 ^ sh : Nat)) 1048575).toNat

/-- L is clamped to full scale: it counts in `COR_CLIP` (R331). -/
def corClips (x : Int) (o sh : Nat) : Bool := 0 < x && 1048575 < x + (o * 2 ^ sh : Nat)

/-! ### The drive word (R346) -/

/-- The bits of a number of `k` bits in reverse order. -/
def bitrev : Nat → Nat → Nat
  | 0, _ => 0
  | k + 1, n => n % 2 * 2 ^ k + bitrev k (n / 2)

/-- G_r (R346). -/
def driveGain (g tg : Nat) : Nat := (g * tg + 16384) / 2 ^ 15

/-- y20 (R346). -/
def driveY (l g : Nat) : Nat := (l * g + 32768) / 2 ^ 16

/-- The range and P of a lamp value after its gain (R346). -/
def driveOf (lrEn dithEn : Bool) (f : Nat) (x y ld : Nat) : Drive :=
  if lrEn && ld < 65536 then ⟨true, ld⟩
  else
    let d := ld % 16
    let p := ld / 16
    let q := (f + 4 * (y % 4) + x % 4) % 16
    ⟨false, min (if dithEn && bitrev 4 q < d then p + 1 else p) 65535⟩

/-- The lamp value of a colour in its drive word, and whether it is clamped; P is 0 while `DRV_CTRL.EN` is 0
(R346, R347). -/
def State.drive (f : Word) (x y r l : Nat) (s : State) : Drive × Bool :=
  let g := driveGain (s.fldOf .tile Reg.DRV_G_USE 16 0) (s.fldOf .tile (Reg.TRIM_GAIN r) 15 0)
  let v := driveY l g
  let d := driveOf (s.bitOf .tile Reg.DRV_CTRL 1) (s.bitOf .tile Reg.DRV_CTRL 0) f.toNat x y (min v 1048575)
  (if s.bitOf .tile Reg.DRV_CTRL 31 then d else ⟨false, 0⟩, decide (1048575 < v))

/-! ### The scan program (R350, R352, R354, R355) -/

/-- S, K = 2^KLOG and DIV of the active `SCAN_CFG`. -/
def State.scanS (s : State) : Nat := s.fldOf .tile Reg.SCAN_CFG 21 16
def State.scanKlog (s : State) : Nat := s.fldOf .tile Reg.SCAN_CFG 11 8
def State.scanK (s : State) : Nat := 2 ^ s.scanKlog
def State.scanDiv (s : State) : Nat := s.fldOf .tile Reg.SCAN_CFG 2 0 + 1

/-- The program in use (R354, R370). -/
def State.scanProg (s : State) : Nat := s.fldOf .tile Reg.SCAN_STAT 30 30

/-- B of a program. -/
def State.scanB (p : Nat) (s : State) : Nat := s.fldOf .tile (Reg.SCAN_BLANK p) 11 0

/-- W_G (R352). -/
def State.scanW (s : State) : Nat := 32768 / s.scanK

/-- Half-GCLK ticks of 1.25 ns × DIV, as ns (R350); GCLK cycles as ns, rounded down. -/
def State.gclkNs (n : Nat) (s : State) : Nat := n * 5 * s.scanDiv / 2

/-- DOFF, PDIS and DON of a program (R352, R370). -/
def State.scanDoff (p : Nat) (s : State) : Nat := s.fldOf .tile (Reg.SCAN_TIMING p) 31 24
def State.scanPdis (p : Nat) (s : State) : Nat := s.fldOf .tile (Reg.SCAN_TIMING p) 23 12
def State.scanDon (p : Nat) (s : State) : Nat := s.fldOf .tile (Reg.SCAN_TIMING p) 7 0

/-- How long the scan of a slot window lasts, in ns (R355, R356). -/
def State.scanNs (p : Nat) (s : State) : Nat := s.gclkNs (s.scanS * (32768 + s.scanK * s.scanB p))

/-- Line ORDER[j] of a program (R352). -/
def State.scanLine (p j : Nat) (s : State) : Nat :=
  s.fldOf .tile (Reg.SCAN_ORDER p (j / 4)) (8 * (j % 4) + 4) (8 * (j % 4))

/-- The tile scans: not in its safe or lehr state, `SCAN_CFG.EN` at 1 (R353). -/
def State.scans (s : State) : Bool :=
  !s.safe .tile && !s.lehr .tile && !s.tapTakes .tile && s.bitOf .tile Reg.SCAN_CFG 31

/-- Ticks of a lamp in subframe i (R350). -/
def ticksOf (klog i p : Nat) : Nat :=
  p / 2 ^ klog + (if bitrev klog i < p % 2 ^ klog then 1 else 0)

/-- The scan program that the applied band names; a change raises SCAN_BAND (R354). -/
def State.chooseProgram (s : State) : State × List (Nat × Word) :=
  let b := (s.bitOf .tile Reg.SCAN_BANDSEL (s.bandUsed .tile)).toNat
  if b = s.scanProg then (s, []) else (s.wrFld .tile Reg.SCAN_STAT 30 30 b, [(Ev.SCAN_BAND, 0)])

/-- The tile's latch point that ends frame f: the scheduled end of the scan of its last slot, with the program in
use (R327, R359). -/
def State.tileLatch (f : Word) (s : State) : Word :=
  s.slotStart f (s.slots .tile - 1) + wd (s.scanNs s.scanProg)

/-! ### Weights and gains at a latch point (R333, R362, R363) -/

/-- W* (R333). -/
def weightTarget (t tc th : Int) : Int :=
  let d := th - tc
  clampI ((512 * (t - tc) + d) / (2 * d)) 0 256

/-- The weight of one region moves (R333); the flag tells that the region enters hold. -/
def State.moveWeight (r : Nat) (s : State) : State × Bool :=
  let a := Reg.COR_W r
  let w := s.rd .tile a
  if s.bitOf .tile Reg.COR_WFORCE 31 then (s.wr .tile a (putFld w 8 0 (s.fldOf .tile Reg.COR_WFORCE 8 0)), false)
  else if !s.bitOf .tile (Reg.THM_REGION r) 31 then (s.wr .tile a (putBit w 31 true), !bit w 31)
  else
    let t := s.tempOf .tile (Reg.THM_REGION r)
    let goal := weightTarget t (sfld (s.rd .tile Reg.COR_TANCH) 15 0) (sfld (s.rd .tile Reg.COR_TANCH) 31 16)
    let step : Int := (s.fldOf .tile Reg.COR_WSTEP 8 0 : Nat)
    let cur : Int := (fld w 8 0 : Nat)
    let nxt := if s.til.pix.wTaken.getD r false then cur + clampI (goal - cur) (-step) step else goal
    let s := s.updPix fun x => { x with wTaken := x.wTaken.set r true }
    (s.wr .tile a (putBit (putFld (putFld w 24 16 goal.toNat) 8 0 nxt.toNat) 31 false), false)

/-- The weights of the four regions move; COR_TEMP_HOLD reports each entry of a region into hold (R333). -/
def State.moveWeights (s : State) : State × List (Nat × Word) :=
  ([0, 1, 2, 3] : List Nat).foldl (fun (x : State × List (Nat × Word)) r =>
    let (s, e) := x.1.moveWeight r
    (s, if e then x.2 ++ [(Ev.COR_TEMP_HOLD, 0)] else x.2)) (s, [])

/-- G_tgt and G_use at a latch point (R362). -/
def State.moveGain (s : State) : State × List (Nat × Word) :=
  let gl := s.fldOf .tile Reg.DRV_G_LOC 16 0
  let gw := s.fldOf .tile Reg.DRV_WALL_GAIN 16 0
  let wall := s.fldOf .tile Reg.DRV_CTRL 5 4 = 1
  let t := s.tempOf .tile Reg.THM_DRV_MAX
  let guard := wall && s.bitOf .tile Reg.THM_DRV_MAX 31 &&
    decide (s.tempOf .tile Reg.DRV_KNEE + (s.fldOf .tile Reg.DRV_GUARD 15 0 : Nat) < t)
  let tgt := if wall && !guard then gw else min gl gw
  let was := s.bitOf .tile Reg.DRV_STAT 30
  let use : Int := (s.fldOf .tile Reg.DRV_G_USE 16 0 : Nat)
  let step : Int := (s.fldOf .tile Reg.DRV_GSTEP 16 0 : Nat)
  let nxt := if s.til.pix.gTaken then use + clampI ((tgt : Int) - use) (-step) step else tgt
  let s := s.updPix fun x => { x with gTaken := true }
  let s := (s.wrBit .tile Reg.DRV_STAT 30 guard).wr .tile Reg.DRV_G_TGT (wd tgt)
  (s.wr .tile Reg.DRV_G_USE (wd nxt.toNat), if guard && !was then [(Ev.DRV_GUARD, 0)] else [])

/-- Reference sinks are shorted (R389). -/
def State.refShort (s : State) : Bool := s.fldOf .tile Reg.DIAG_REF_STAT 1 0 ≠ 0

/-- The trim gain of a colour at a latch point (R363). DEDUCED: after a short between reference sinks, which leaves the trim
gains as they are (R389), only `TRIM_FORCE` moves one. -/
def State.moveTrim (c : Nat) (s : State) : State :=
  let tg : Int := (s.fldOf .tile (Reg.TRIM_GAIN c) 15 0 : Nat)
  if s.bitOf .tile (Reg.TRIM_FORCE c) 31 then
    s.wr .tile (Reg.TRIM_GAIN c) (wd (s.fldOf .tile (Reg.TRIM_FORCE c) 15 0))
  else if !s.refShort && s.bitOf .tile Reg.TRIM_CTRL 28 && s.bitOf .tile Reg.TRIM_CTRL 31 && s.bitOf .tile (Reg.TRIM_TARGET c) 31 then
    let goal : Int := (s.fldOf .tile (Reg.TRIM_TARGET c) 15 0 : Nat)
    let step : Int := (s.fldOf .tile Reg.TRIM_STEP 15 0 : Nat)
    s.wr .tile (Reg.TRIM_GAIN c) (wd (tg + clampI (goal - tg) (-step) step).toNat)
  else s

/-! ### Gates and sinks within a line slot (R348, R352, R353, R357) -/

/-- N_P (R373). -/
def State.probeTicks (s : State) : Nat := (9600 + 125 * s.scanDiv - 1) / (125 * s.scanDiv)

/-- When line slot n of a scan starts, in ns after its START (R357). -/
def State.lineSlotAt (n : Nat) (s : State) : Nat := s.gclkNs (n * (s.scanB s.scanProg + s.scanW))

/-- When the ON window of line slot j of subframe i opens in a slot window that starts at `start` (R357). -/
def State.windowOpens (start : Word) (i j : Nat) (s : State) : Word :=
  start + wd (s.gclkNs ((i * s.scanS + j) * (s.scanB s.scanProg + s.scanW) + s.scanB s.scanProg))

/-- A scan runs: its scheduled end is not reached (R356, R370). -/
def State.scanRuns (s : State) : Bool :=
  match s.til.lmp.scan with
  | none => false
  | some c => !s.reachedAt .tile c.stop

/-- The part of a line slot at a number of GCLK cycles from its start (R352). -/
inductive LinePhase where
  | off | discharge | gap | gateOn | window
  deriving DecidableEq, Repr

/-- The part of a line slot of a program with blanking b (R352). -/
def linePhase (b doff pdis don w n : Nat) : LinePhase :=
  if n < doff then .off
  else if n < doff + pdis then .discharge
  else if n + don < b then .gap
  else if n < b then .gateOn
  else if n < b + w then .window
  else .off

/-- Half-GCLK ticks since the start of a line slot (R350). -/
def State.slotTicks (r : LineRun) (s : State) : Nat := 4 * (timeDiff (s.wall .tile) r.start).toNat / (5 * s.scanDiv)

/-- The part of a line slot that runs now. -/
def State.phaseNow (r : LineRun) (s : State) : LinePhase :=
  let p := s.scanProg
  linePhase (s.scanB p) (s.scanDoff p) (s.scanPdis p) (s.scanDon p) s.scanW (s.slotTicks r / 2)

/-- Scan gate g is on: in its line's part of the line slot, from the probe gap on where a lamp is probed, and in its gate
test (R352, R376, R388). -/
def State.gateIsOn (g : Nat) (s : State) : Bool :=
  match s.til.lmp.run with
  | none => false
  | some r =>
    let n := s.slotTicks r / 2
    (r.test == some g && 2 ≤ n && n ≤ 5) ||
    (s.scans && g % 32 == r.line && (match s.phaseNow r with
      | .gateOn => true
      | .window => true
      | .gap => !r.probed.isEmpty
      | _ => false))

/-- What drives SCAN_G[g]: true for 5 V, false for 0 V, none without VDD_GATE. While VDD_DL is below 80 % of nominal every
output is held at VDD_GATE (R353, R474). DESIGN CHOICE: a VDD_DL that is not within tolerance counts as below 80 %, since
the part shows no other level of it. -/
def State.gatePin (g : Nat) (s : State) : Option Bool :=
  if !s.bitOf .tile Reg.SYS_PWR_STAT 5 then none
  else if !s.bitOf .tile Reg.SYS_PWR_STAT 3 then some true
  else some (s.gateIsOn g != s.bitOf .tile Reg.SCAN_CFG 24)

/-- The current of a range of a colour, in units of 10 µA ÷ 16: I_c is `DRV_ICUR[c]`, and the low range is a sixteenth of it
(R348). -/
def State.sinkCurrent (low : Bool) (c : Nat) (s : State) : Nat :=
  (if low then 1 else 16) * s.fldOf .tile (Reg.DRV_ICUR c) 9 0

/-- V_PD in mV (R352). -/
def State.dischargeMv (s : State) : Nat := 1000 + 200 * s.fldOf .tile Reg.DRV_PDIS 3 0

/-- What a sink pad does: nothing, a pull to V_PD, or a current in units of 10 µA ÷ 16. -/
inductive Sink where
  | off
  | discharge (mv : Nat)
  | current (units : Nat)
  deriving DecidableEq, Repr

/-- What sink pad n does now (R348, R352, R353, R376). -/
def State.sinkPad (n : Nat) (s : State) : Sink :=
  match s.til.lmp.run with
  | none => .off
  | some r =>
    let p := s.scanProg
    let t := s.slotTicks r
    if !s.scans then .off
    else match s.phaseNow r with
      | .discharge => .discharge s.dischargeMv
      | .window =>
        (match AMap.find s.til.lmp.lit n with
        | none => .off
        | some d => if t < 2 * s.scanB p + d.p then .current (s.sinkCurrent d.low (n % 3)) else .off)
      | .gap =>
        if r.probed.contains n && t < 2 * (s.scanDoff p + s.scanPdis p) + s.probeTicks then .current (s.sinkCurrent true (n % 3))
        else .off
      | _ => .off

/-! ### SLOT_WINDOW_START (R324, R356) -/

/-- A scan begins: its slot window, and its scheduled end (R356). -/
def State.scanBegin (f : Word) (slot : Nat) (start : Word) (s : State) : State :=
  let stop := start + wd (s.scanNs s.scanProg)
  let s := s.updLmp fun l => { l with scan := some ⟨f, slot, start, stop, 0⟩, drv := [], lit := [], run := none }
  s.wr .tile Reg.SCAN_STAT (wd (2 ^ 31 + s.scanProg * 2 ^ 30 + slot * 2 ^ 24))

/-- A scan stops: every gate and sink off (R353, R356). -/
def State.scanStop (s : State) : State :=
  (s.updLmp fun l => { l with scan := none, lit := [], run := none, drv := [] }).wrBit .tile Reg.SCAN_STAT 31 false

/-- A running scan is cut by the next slot's start, unless its scheduled end is reached (R356). -/
def State.scanCut (start : Word) (s : State) : State :=
  match s.til.lmp.scan with
  | none => s
  | some c =>
    let s := s.scanStop
    if atOrAfter start c.stop then s else (s.bump .tile Reg.SCAN_CUT 1).raise .tile Ev.SCAN_CUT

/-- A slot window follows the last one the tile used: the same frame, or a later one. -/
def State.windowNew (f : Word) (slot : Nat) (s : State) : Bool :=
  match s.til.pix.win with
  | none => true
  | some w =>
    if w.frame = f then
      (match s.til.pix.lastSlot with
       | some n => n < slot
       | none => true)
    else laterFrame f w.frame

/-- The tile has windows for frame f: an accepted SYNC's, or those of its frame schedule (R324). -/
def State.windowKnown (f : Word) (s : State) : Bool :=
  s.schedOn .tile || (match s.til.pix.sync with
    | some w => w.frame == f
    | none => false)

/-- SLOT_WINDOW_START (R324, R356). -/
def execSlotWindowStart (f : Word) (slot : Fin 8) (s : State) : Host.Outcome State Fault Refusal :=
  .next (s.when' .tile fun s =>
    let start := s.slotStart f slot.val
    if slot.val < s.slots .tile && s.windowKnown f && s.windowNew f slot.val && s.reachedAt .tile start then
      let w := s.windowsOf f
      let s := s.updPix fun x => { x with win := some { w with base := s.baseOf .tile f }, lastSlot := some slot.val }
      let s := s.scanCut start
      if s.scans then s.scanBegin f slot.val start else s
    else s)

/-! ### PIXEL_CORRECT (R324, R329 to R332, R339) -/

/-- The row of the display set that holds a pixel, named for `deadRows`. -/
def rowName (slot x y : Nat) : Nat := 64 * (32 * slot + y % 32) + (16 * (y / 32) + x / 16)

/-- A double-bit error of a pixel-store word (R339): a spare row takes its place and shows 0, or the region goes
dark. -/
def State.pixRowLost (slot x y row : Nat) (s : State) : State :=
  let b := 16 * (y / 32) + x / 16
  let s := s.bump .tile Reg.PIX_ECC_UNCORR 1
  let s := s.wr .tile Reg.PIX_ECC_LAST (wd (b * 2 ^ 16 + row))
  let a := Reg.PIX_SPARE_USED (b / 8)
  let lo := 4 * (b % 8)
  let used := s.fldOf .tile a (lo + 3) lo
  if 8 ≤ used then (s.darken (y / 32)).raise .tile Ev.PIX_NOSPARE
  else
    let s := s.wrFld .tile a (lo + 3) lo (used + 1)
    let n := rowName slot x y
    let s := s.updPix fun u => { u with deadRows := if u.deadRows.contains n then u.deadRows else n :: u.deadRows }
    s.raise .tile Ev.PIX_ECC_UNCORR

/-- A single-bit error of a pixel-store word is corrected in the value read (R339). -/
def State.pixCorrected (s : State) : State :=
  let s := s.bump .tile Reg.PIX_ECC_CORR 1
  if s.msDue .tile s.til.pix.pixEccAt then
    (s.updPix fun x => { x with pixEccAt := some (s.elapsed .tile) }).raise .tile Ev.PIX_ECC_CORR
  else s

/-- The action of the lowest-numbered mismatching region that covers a pixel (R329): none, black, or a wall code. -/
def State.sigAction (slot x y : Nat) (s : State) : Option (Option Nat) :=
  match (List.range 64).find? fun e =>
      s.til.pix.dispMis.contains (8 * e + slot) && (s.sigRegion e).has x y with
  | none => none
  | some e =>
    match s.fldOf .tile (Reg.SIG_ACT e) 1 0 with
    | 2 => some none
    | 3 => some (some (s.fldOf .tile (Reg.SIG_SUBST_RG e) 29 16 * 2 ^ 28 +
        s.fldOf .tile (Reg.SIG_SUBST_RG e) 13 0 * 2 ^ 14 + s.fldOf .tile (Reg.SIG_SUBST_B e) 13 0))
    | _ => none

/-- The wall code a pixel shows; none for lamp value 0 (R324, R326, R329, R309, R339). -/
def State.shownCode (slot x y : Nat) (s : State) : Option Nat :=
  if !s.bitOf .tile Reg.PIX_STAT 29 then none
  else if s.bitOf .tile Reg.LOAN_CTRL 28 && s.til.orphan then none
  else
    match s.sigAction slot x y with
    | some c => c
    | none =>
      if s.til.pix.deadRows.contains (rowName slot x y) then none else pixelOf s.til.pix.pixDisp slot x y

/-- The drive word of a lamp is stored; P = 0 is not listed. -/
def State.putDrive (x y r : Nat) (d : Drive) (s : State) : State :=
  let key := 3 * (256 * y + x) + r
  s.updLmp fun l => { l with drv := if d.p = 0 then AMap.del l.drv key else AMap.put l.drv key d }

/-- A lamp takes a value L (R346, R347). -/
def State.putLamp (f : Word) (x y r l : Nat) (s : State) : State :=
  let (d, clip) := s.drive f x y r l
  let s := s.putDrive x y r d
  if clip then
    let s := s.bump .tile Reg.DRV_CLIP 1
    if s.til.pix.drvClip then s
    else (s.updPix fun u => { u with drvClip := true }).raise .tile Ev.DRV_CLIP
  else s

/-- The corrected value of one lamp of a pixel, its counts and its drive word (R331). -/
def State.correctLamp (f : Word) (x y : Nat) (str w : Nat) (d : List Nat) (r : Nat) (s : State) : State :=
  let v := corX str r w d
  let o := corField str (216 + 8 * r) 8
  let sh := s.fldOf .tile Reg.COR_CTRL 10 8
  let s := if v < 0 then s.bump .tile Reg.COR_FLOOR 1 else s
  let s :=
    if corClips v o sh then
      let s := s.bump .tile Reg.COR_CLIP 1
      if s.til.pix.corClip then s
      else (s.updPix fun u => { u with corClip := true }).raise .tile Ev.COR_CLIP
    else s
  s.putLamp f x y r (corL v o sh)

/-- A pixel's wall code decoded and corrected into its three lamps (R330 to R332). -/
def State.correctPixel (f : Word) (x y code : Nat) (cor : Ecc) (s : State) : State :=
  let d := [s.decodeCode (code / 2 ^ 28 % 2 ^ 14), s.decodeCode (code / 2 ^ 14 % 2 ^ 14), s.decodeCode (code % 2 ^ 14)]
  if !s.bitOf .tile Reg.COR_CTRL 0 then
    ([0, 1, 2] : List Nat).foldl (fun s r => s.putLamp f x y r (d.getD r 0)) s
  else
    let s := s.corEcc cor s.corAct (16 * (y / 32) + x / 16) (y % 32)
    let str := s.corString s.corAct x y
    let w := s.fldOf .tile (Reg.COR_W (y / 32)) 8 0
    ([0, 1, 2] : List Nat).foldl (fun s r => s.correctLamp f x y str w d r) s

/-- A pixel shows lamp value 0 on all three lamps. -/
def State.blackPixel (x y : Nat) (s : State) : State :=
  ((s.putDrive x y 0 ⟨false, 0⟩).putDrive x y 1 ⟨false, 0⟩).putDrive x y 2 ⟨false, 0⟩

/-- PIXEL_CORRECT (R331, R339): a pixel of the slot that is scanned. Lines at S or above are not shown (R24, R332);
a double-bit error shows the word's two pixels at 0. -/
def execPixelCorrect (x : BitVec 8) (y : BitVec 7) (pix : Ecc) (row : BitVec 9) (cor : Ecc) (s : State) :
    Host.Outcome State Fault Refusal :=
  .next (s.when' .tile fun s =>
    let x := x.toNat
    let y := y.toNat
    match s.til.lmp.scan with
    | none => s
    | some c =>
      if s.scanS ≤ y % 32 || s.dark (y / 32) then s
      else
        match pix with
        | .double =>
          ((s.pixRowLost c.slot x y row.toNat).blackPixel (x / 2 * 2) y).blackPixel (x / 2 * 2 + 1) y
        | _ =>
          let s := match pix with
            | .corrected => s.pixCorrected
            | _ => s
          match s.shownCode c.slot x y with
          | none => s.blackPixel x y
          | some code => s.correctPixel c.frame x y code cor)

end Sys2Proof.Machine
end

