-- ==== Sys2Proof/Machine/Diag.lean ====
section
/-!
DEFINITION. Lamp diagnostics, signal groups and cell repair (R373 to R394): readings and lamp states, probes,
trials and remaps, drive read-back, gate tests, and the line slot in which they happen (R352), with the meaning
of each command.
-/

namespace Sys2Proof.Machine

/-! ### Lamps, blocks and remaps (R21, R378, R393) -/

/-- The block of a pad (R21). -/
def padBlock (n : Nat) : Nat := n / 48

/-- Where a lamp stands in the map. -/
def lampKey (line pad : Nat) : Nat := 3072 * line + pad

/-- A lamp (R375). -/
def State.lamp (line pad : Nat) (s : State) : Lamp := SMap.get (fun _ => Lamp.reset) s.til.lmp.lamps (lampKey line pad)

/-- A lamp stored. -/
def State.setLamp (line pad : Nat) (v : Lamp) (s : State) : State :=
  s.updLmp fun l => { l with lamps := SMap.set (fun _ => Lamp.reset) l.lamps (lampKey line pad) v }

/-- CONFIRM (R375). -/
def State.confirm (s : State) : Nat := s.fldOf .tile Reg.DIAG_CTRL 3 0

/-- The pad that a spare of a block drives, if any (R378). -/
def State.sparePad (b spare : Nat) (s : State) : Option Nat :=
  let a := Reg.DIAG_REMAP_HW b
  if spare = 48 then (if s.bitOf .tile a 31 then some (s.fldOf .tile a 21 16) else none)
  else if s.bitOf .tile a 15 then some (s.fldOf .tile a 5 0) else none

/-- A spare is marked failed (R393). -/
def State.spareFailed (b spare : Nat) (s : State) : Bool :=
  s.bitOf .tile (Reg.DIAG_REMAP_HW b) (if spare = 48 then 30 else 14)

/-- A spare is on trial (R393). -/
def State.spareTrial (b spare : Nat) (s : State) : Bool :=
  s.bitOf .tile (Reg.DIAG_REMAP_HW b) (if spare = 48 then 29 else 13)

/-- The lower-numbered free spare of a block (R378, R380). -/
def State.freeSpare (b : Nat) (s : State) : Option Nat :=
  ([48, 49] : List Nat).find? fun x => (s.sparePad b x).isNone && !s.spareFailed b x

/-- The spare that drives a pad of a block, if one does. -/
def State.spareOf (b pad : Nat) (s : State) : Option Nat :=
  ([48, 49] : List Nat).find? fun x => s.sparePad b x == some pad

/-- A spare takes a pad, or none, and its trial bit (R393). -/
def State.setSpare (b spare : Nat) (pad : Option Nat) (trial : Bool) (s : State) : State :=
  let w := s.rd .tile (Reg.DIAG_REMAP_HW b)
  let v := pad.isSome
  let n := pad.getD 0
  let w :=
    if spare = 48 then putBit (putFld (putBit w 31 v) 21 16 n) 29 trial
    else putBit (putFld (putBit w 15 v) 5 0 n) 13 trial
  s.wr .tile (Reg.DIAG_REMAP_HW b) w

/-- A cell of a block is marked failed until reset (R378). -/
def State.failCell (b cell : Nat) (s : State) : State :=
  let s := s.updLmp fun l => { l with failed := if l.failed.contains (64 * b + cell) then l.failed else (64 * b + cell) :: l.failed }
  if cell = 48 then s.wrBit .tile (Reg.DIAG_REMAP_HW b) 30 true
  else if cell = 49 then s.wrBit .tile (Reg.DIAG_REMAP_HW b) 14 true
  else s

/-- A cell is marked failed. -/
def State.cellFailed (b cell : Nat) (s : State) : Bool := s.til.lmp.failed.contains (64 * b + cell)

/-- The cell that drives pad c of a block: a spare, its own cell, or none when that has failed (R23, R378). -/
def State.driver (b c : Nat) (s : State) : Option Nat :=
  match s.spareOf b c with
  | some x => some x
  | none => if s.cellFailed b c then none else some c

/-- A remap of a pad is no longer one made while a DIAG commit is pending. -/
def State.dropMap (b c : Nat) (s : State) : State :=
  s.updLmp fun l => { l with newMaps := l.newMaps.filter fun m => !(m.1 == b && m.2.1 == c) }

/-- A remap made by the hardware is remembered while a DIAG commit is pending, with the line of the lamp on trial (R390). -/
def State.noteMap (b c : Nat) (trial : Option Nat) (s : State) : State :=
  if s.shadowLocked .tile 14 then (s.dropMap b c).updLmp fun l => { l with newMaps := (b, c, trial) :: l.newMaps } else s

/-- Frames in which the lamps of a line and block have counted (R375). -/
def State.framesOf (line pad : Nat) (s : State) : Nat :=
  SMap.get (fun _ => 0) s.til.lmp.lineFrames (64 * line + padBlock pad)

/-- A lamp goes to UNMEASURED with counts at 0, its frames without a reading among them (R375). -/
def State.resetLamp (line pad : Nat) (s : State) : State :=
  s.setLamp line pad { s.lamp line pad with st := .unmeasured, count := 0, good := false, readAt := s.framesOf line pad }

/-- Every lamp of a pad goes to UNMEASURED. -/
def State.resetPad (pad : Nat) (s : State) : State :=
  (List.range s.scanS).foldl (fun s l => s.resetLamp l pad) s

/-! ### Signal groups (R384 to R386) -/

/-- The group of a block, if that group is enabled (R384). -/
def State.groupOf (b : Nat) (s : State) : Option Nat :=
  let g := s.fldOf .tile (Reg.DIAG_SG_MAP (b / 8)) (4 * (b % 8) + 3) (4 * (b % 8))
  if s.bitOf .tile Reg.DIAG_SG_EN g then some g else none

/-- A block's group is off (R384). -/
def State.blockOff (b : Nat) (s : State) : Bool :=
  match s.groupOf b with
  | none => false
  | some g => s.bitOf .tile Reg.DIAG_SG_OFF g

/-- The group of a block turns off (R384). -/
def State.groupOff (b : Nat) (s : State) : State × List (Nat × Word) :=
  match s.groupOf b with
  | none => (s, [])
  | some g =>
    if s.bitOf .tile Reg.DIAG_SG_OFF g then (s, [])
    else (s.wrBit .tile Reg.DIAG_SG_OFF g true, [(Ev.GROUP_OFF g, 0)])

/-- Entries of the fault list (R393). -/
def State.flistN (s : State) : Nat := s.fldOf .tile Reg.DIAG_STAT 6 0

/-- An entry of the fault list (R393). -/
def flistWord (kind line pad : Nat) : Word := wd (2 ^ 31 + kind * 2 ^ 28 + line * 2 ^ 20 + pad)

/-- A declaration enters the fault list, or finds it full (R383). -/
def State.flistAdd (kind line pad : Nat) (s : State) : State × List (Nat × Word) :=
  let n := s.flistN
  if 64 ≤ n then
    if s.bitOf .tile Reg.DIAG_STAT 31 then (s, []) else (s.wrBit .tile Reg.DIAG_STAT 31 true, [(Ev.FLIST_OVF, 0)])
  else
    ((s.wr .tile (Reg.DIAG_FLIST n) (flistWord kind line pad)).wrFld .tile Reg.DIAG_STAT 6 0 (n + 1), [])

/-- The fault list set to some entries. -/
def State.flistPut (l : List Word) (s : State) : State :=
  let s := (List.range 64).foldl (fun s i => s.wr .tile (Reg.DIAG_FLIST i) (l.getD i 0)) s
  s.wrFld .tile Reg.DIAG_STAT 6 0 l.length

/-- The fault list's entries. -/
def State.flist (s : State) : List Word := (List.range s.flistN).map fun i => s.rd .tile (Reg.DIAG_FLIST i)

/-- A lamp is declared with a kind of the fault list (R382). -/
def State.declare (kind line pad : Nat) (s : State) : State × List (Nat × Word) :=
  let v := s.lamp line pad
  let s := s.setLamp line pad { v with st := if v.short then .shortFault else .openFault }
  let entry := if s.flistN < 64 then flistWord kind line pad else 0
  let (s, e1) := s.flistAdd kind line pad
  let (s, e2) := s.groupOff (padBlock pad)
  (s, (Ev.LAMP_FAULT (padBlock pad), entry) :: e1 ++ e2)

/-- A declared lamp (R375). -/
def Lamp.declared (v : Lamp) : Bool :=
  match v.st with
  | .openFault => true
  | .shortFault => true
  | _ => false

/-- Kind of a lamp's readings in the fault list: 1 OPEN, 2 SHORT (R393). -/
def Lamp.listKind (v : Lamp) : Nat := if v.short then 2 else 1

/-- A pad whose cell has failed with no free spare: each of its lamps is declared with that kind (R382). -/
def State.declarePad (kind pad : Nat) (s : State) : State × List (Nat × Word) :=
  (List.range s.scanS).foldl (fun (x : State × List (Nat × Word)) l =>
    if (x.1.lamp l pad).declared then x
    else
      let (s, e) := x.1.declare kind l pad
      (s, x.2 ++ e)) (s, [])

/-! ### Readings (R373 to R376, R380, R381) -/

/-- A reading (R373). -/
inductive Reading where
  | good | open_ | short
  deriving DecidableEq, Repr

/-- The sample of a pad voltage in mV (R373). -/
def State.sortSample (v : Nat) (s : State) : Reading :=
  if v < 50 * s.fldOf .tile Reg.DIAG_THR 2 0 then .open_
  else if 100 * s.fldOf .tile Reg.DIAG_THR 15 8 < v then .short
  else .good

/-- A lamp's pad goes to the lower free spare for a trial; with no spare free the lamp is declared (R380). -/
def State.trialStart (line pad : Nat) (s : State) : State × List (Nat × Word) :=
  let b := padBlock pad
  let c := pad % 48
  let v := s.lamp line pad
  match s.freeSpare b with
  | some x =>
    let s := ((s.resetPad pad).setSpare b x (some c) true).noteMap b c (some line)
    (s.setLamp line pad { v with st := .trial, count := 0, good := false }, [])
  | none =>
    let (s, e) := s.declare v.listKind line pad
    (s, (Ev.NOSPARE b, 0) :: e)

/-- A lamp reaches count CONFIRM in SUSPECT (R380). -/
def State.suspectFull (line pad : Nat) (s : State) : State × List (Nat × Word) :=
  if (s.spareOf (padBlock pad) (pad % 48)).isSome || !s.bitOf .tile Reg.DIAG_CTRL 27 then
    s.declare (s.lamp line pad).listKind line pad
  else s.trialStart line pad

/-- A lamp in TRIAL reaches CONFIRM readings in a row (R381). -/
def State.trialFull (line pad : Nat) (good : Bool) (s : State) : State × List (Nat × Word) :=
  let b := padBlock pad
  let c := pad % 48
  let x := (s.spareOf b c).getD 48
  if good then
    let s := ((s.failCell b c).setSpare b x (some c) false).noteMap b c none
    (s.setLamp line pad { s.lamp line pad with st := .good, count := 0, good := false }, [(Ev.CELL_FAIL b, 0)])
  else
    let s := (s.setSpare b x none false).dropMap b c
    s.declare (s.lamp line pad).listKind line pad

/-- The faulty count of a lamp after a faulty reading: another kind restarts it (R375, R381). -/
def Lamp.faulty (v : Lamp) (short : Bool) : Lamp :=
  if v.short = short && !v.good then { v with count := v.count + 1 }
  else { v with short := short, count := 1, good := false }

/-- A lamp takes the reading of its frame (R374, R375, R381). -/
def State.takeReading (line pad : Nat) (r : Reading) (s : State) : State × List (Nat × Word) :=
  let v := s.lamp line pad
  let n := s.confirm
  let v := { v with readAt := s.framesOf line pad, readFrame := some s.til.lmp.diagFrame }
  match v.st with
  | .openFault => (s.setLamp line pad v, [])
  | .shortFault => (s.setLamp line pad v, [])
  | .trial =>
    match r with
    | .good =>
      let v := if v.good then { v with count := v.count + 1 } else { v with good := true, count := 1 }
      let s := s.setLamp line pad v
      if n ≤ v.count then s.trialFull line pad true else (s, [])
    | f =>
      let v := v.faulty (f = .short)
      let s := s.setLamp line pad v
      if n ≤ v.count then s.trialFull line pad false else (s, [])
  | st =>
    match r with
    | .good => (s.setLamp line pad { v with st := .good, count := 0 }, [])
    | f =>
      let v := if st = .suspect then v.faulty (f = .short) else { v with short := f = .short, count := 1, good := false }
      let v := { v with st := .suspect }
      let s := s.setLamp line pad v
      if n ≤ v.count then s.suspectFull line pad else (s, [])

/-- The lamps of a pad are measured: EN, its region not dark, its group not off (R37, R375, R384, R387). -/
def State.measures (pad : Nat) (s : State) : Bool :=
  s.bitOf .tile Reg.DIAG_CTRL 31 && !s.dark (pad / 768) && !s.blockOff (padBlock pad)

/-- A lamp has had its reading of this frame (R374). -/
def State.readDone (line pad : Nat) (s : State) : Bool := (s.lamp line pad).readFrame == some s.til.lmp.diagFrame

/-- The voltage sensed at a pad; none for one that lies between the thresholds. -/
def padVolt (l : List (Nat × Nat)) (pad : Nat) : Option Nat := AMap.find l pad

/-- The reading of a pad. -/
def State.readPad (l : List (Nat × Nat)) (pad : Nat) (s : State) : Reading :=
  match padVolt l pad with
  | none => .good
  | some v => s.sortSample v

/-- A lamp is due for a probe (R376, R381). -/
def State.probeDue (line pad : Nat) (s : State) : Bool :=
  let v := s.lamp line pad
  (match v.st with
   | .unmeasured => true
   | .suspect => true
   | .trial => true
   | _ => false) &&
  (match v.probedAt with
   | none => true
   | some f => decide (f + 64 ≤ s.til.lmp.diagFrame))

/-- Readings of a line, one lamp after the other, with the events they raise. -/
def State.readLine (line : Nat) (volts : List (Nat × Nat)) : List Nat → State → State × List (Nat × Word)
  | [], s => (s, [])
  | pad :: t, s =>
    if s.readDone line pad then State.readLine line volts t s
    else
      let (s, e) := s.takeReading line pad (s.readPad volts pad)
      let (s, e') := State.readLine line volts t s
      (s, e ++ e')

/-- The pads of a line that are probed in this line slot (R376). -/
def State.probed (line : Nat) (s : State) : List Nat :=
  (List.range 3072).filter fun pad =>
    s.measures pad && (s.driver (padBlock pad) (pad % 48)).isSome && s.probeDue line pad

/-- The probes of a line slot (R376): they count, and give the frame's readings (R377) if the slot reaches their samples. -/
def State.probeLine (line : Nat) (volts : List (Nat × Nat)) (seen : Bool) (s : State) : State × List (Nat × Word) :=
  let pads := s.probed line
  let s := s.bump .tile Reg.DIAG_PROBES pads.length
  let s := pads.foldl (fun s pad =>
    s.setLamp line pad { s.lamp line pad with probedAt := some s.til.lmp.diagFrame }) s
  if seen then State.readLine line volts pads s else (s, [])

/-! ### Read-back and gate tests (R379, R388) -/

/-- A cell of a block is found failed by read-back (R379, R382). -/
def State.cellFault (b cell kind : Nat) (s : State) : State × List (Nat × Word) :=
  let pad := if cell < 48 then (if (s.spareOf b cell).isNone then some cell else none) else s.sparePad b cell
  let s := s.failCell b cell
  match pad with
  | none => (s, [])
  | some c =>
    let s := if cell < 48 then s else s.setSpare b cell none false
    match s.freeSpare b with
    | some x => ((s.setSpare b x (some c) false).noteMap b c none, [(Ev.CELL_FAIL b, 0)])
    | none =>
      let (s, e) := s.declarePad kind (48 * b + c)
      (s, (Ev.NOSPARE b, 0) :: e)

/-- The pad of a failed own cell is driven by none, and lamps of it have been returned to service: its fault is to be found
again (R386). -/
def State.padOpen (b cell : Nat) (s : State) : Bool :=
  decide (cell < 48) && s.cellFailed b cell && (s.spareOf b cell).isNone &&
    (List.range s.scanS).any fun l => !(s.lamp l (48 * b + cell)).declared

/-- One cell's result in the check of its block: 0 none, 3 STUCK_ON, 4 STUCK_OFF (R379). In a dark region no repair starts
(R37). -/
def State.readBackCell (b cell kind : Nat) (s : State) : State × List (Nat × Word) :=
  let key := 64 * b + cell
  if kind = 0 then (s.updLmp fun l => { l with rbRun := AMap.del l.rbRun key }, [])
  else
    let s := s.bump .tile Reg.DIAG_RB_ERR 1
    let n := match AMap.find s.til.lmp.rbRun key with
      | some (k, m) => if k = kind then m + 1 else 1
      | none => 1
    if n < s.confirm || s.dark (b / 16) || (s.cellFailed b cell && !s.padOpen b cell) then
      (s.updLmp fun l => { l with rbRun := AMap.put l.rbRun key (kind, n) }, [])
    else (s.updLmp fun l => { l with rbRun := AMap.del l.rbRun key }).cellFault b cell kind

/-- The pad of a block that a cell is commanded to drive for at least N_P ticks in a line slot. -/
def cellOn (lit : List (Nat × Drive)) (np b : Nat) (drv : Nat → Option Nat) (cell : Nat) : Option Nat :=
  (List.range 48).find? fun c =>
    drv c == some cell && (match AMap.find lit (48 * b + c) with
      | some d => decide (np ≤ d.p)
      | none => false)

/-- Drive read-back of one block (R379), with the drivers of the line slot's start (R378). DEDUCED: a failed cell whose pad
none drives gives the pad no current, so the check finds STUCK_OFF again wherever the pad is to be driven (R386). -/
def State.readBack (b : Nat) (obs : LineObs) (lit : List (Nat × Drive)) (drv : Nat → Option Nat) (s : State) :
    State × List (Nat × Word) :=
  let np := s.probeTicks
  let on := fun cell => cellOn lit np b drv cell
  let wanted := fun cell : Nat => match AMap.find lit (48 * b + cell) with
    | some d => decide (np ≤ d.p)
    | none => false
  let kind := fun cell : Fin 50 =>
    if obs.leaks.contains cell then 3
    else
      match on cell.val with
      | some c => if obs.dead.contains cell && s.readPad obs.volts (48 * b + c) = .good then 4 else 0
      | none => if decide (cell.val < 48) && drv cell.val == none && wanted cell.val then 4 else 0
  let res := (List.finRange 50).map fun c => (c.val, kind c)
  res.foldl (fun (x : State × List (Nat × Word)) r =>
    let (s, e) := x.1.readBackCell b r.1 r.2
    (s, x.2 ++ e)) (s, [])

/-- What a gate test finds: KIND and gate of each fault (R388). -/
def gateFaults (g : Nat) (on : List (Fin 128)) : List (Nat × Nat) :=
  let has := fun h : Nat => on.any fun x => x.val == h
  (if has g then [] else [(2, g)]) ++
  ((List.range 128).filter fun h => has h && h ≠ g && h ≠ g + 1 && h + 1 ≠ g).map (fun h => (2, h)) ++
  (if has (g + 1) then [(1, g)] else []) ++
  (if 0 < g && has (g - 1) then [(1, g - 1)] else [])

/-- A gate fault is declared (R388). -/
def State.gateDeclare (kind g : Nat) (s : State) : State × List (Nat × Word) :=
  let s := s.wr .tile Reg.DIAG_GATE_STAT (wd (2 ^ 31 + kind * 2 ^ 28 + g))
  let r := g / 32
  if kind = 1 && (g + 1) / 32 ≠ r then ((s.darken r).darken (r + 1), [(Ev.GATE_CHIP, 0)])
  else (s.darken r, [(if kind = 1 then Ev.GATE_SHORT r else Ev.GATE_STUCK r, 0)])

/-- A confirmed gate fault is declared: when it is confirmed first, and again once a region that it darkened is back in
service (R388, R339). -/
def State.gateNew (kind g : Nat) (s : State) : Bool :=
  !s.til.lmp.gateTold.contains (kind, g) || !s.dark (g / 32) || (kind = 1 && (g + 1) / 32 ≠ g / 32 && !s.dark (g / 32 + 1))

/-- The gate test of a line slot (R388): gates 0 to 127 in rotation. -/
def State.gateTest (on : List (Fin 128)) (s : State) : State × List (Nat × Word) :=
  if !s.bitOf .tile Reg.DIAG_CTRL 28 then (s, [])
  else
    let g := s.til.lmp.gateNext
    let res := gateFaults g on
    let n := match AMap.find s.til.lmp.gateRun g with
      | some (r, m) => if r = res then min 15 (m + 1) else 1
      | none => 1
    let s := s.updLmp fun l =>
      { l with gateNext := (g + 1) % 128,
               gateRun := if res.isEmpty then AMap.del l.gateRun g else AMap.put l.gateRun g (res, n) }
    let s := s.updLmp fun l =>
      { l with gateTold := l.gateTold.filter fun f => l.gateRun.any fun e => e.2.1.contains f }
    if res.isEmpty || n < s.confirm then (s, [])
    else
      res.foldl (fun (x : State × List (Nat × Word)) f =>
        if x.1.gateNew f.1 f.2 then
          let (s, e) := x.1.gateDeclare f.1 f.2
          (s.updLmp fun l => { l with gateTold := if l.gateTold.contains f then l.gateTold else f :: l.gateTold }, x.2 ++ e)
        else x) (s, [])

/-! ### The line slot (R352) -/

/-- The drive of each pad of a line in subframe i: only pads that conduct, of lit regions and groups (R350, R352,
R384), whether a cell drives them or not. -/
def State.padDrives (line i : Nat) (s : State) : List (Nat × Drive) :=
  (List.range 3072).filterMap fun pad =>
    let r := pad / 768
    let c := pad % 48
    let x := 16 * (pad / 48 % 16) + c / 3
    match AMap.find s.til.lmp.drv (3 * (256 * (32 * r + line) + x) + c % 3) with
    | none => none
    | some d =>
      let t := ticksOf s.scanKlog i d.p
      if t = 0 || s.dark r || s.blockOff (padBlock pad) then none else some (pad, ⟨d.low, t⟩)

/-- The pads that a cell drives. -/
def State.litPads (line i : Nat) (s : State) : List (Nat × Drive) :=
  (s.padDrives line i).filter fun e => (s.driver (padBlock e.1) (e.1 % 48)).isSome

/-- How many ns after the start of a line slot the next slot window starts, as far as the tile knows its windows (R324,
R356). -/
def State.cutIn (c : Scan) (start : Word) (s : State) : Option Nat :=
  let next := (if c.slot + 1 < s.slots .tile then [s.slotStart c.frame (c.slot + 1)] else []) ++
    (if s.windowKnown (c.frame + 1) then [s.slotStart (c.frame + 1) 0] else [])
  ((next.map fun w => (timeDiff w start).toNat).foldl (fun m d => some (match m with
    | none => d
    | some x => min x d)) none)

/-- The next slot window does not cut the line slot off before a number of GCLK cycles and ticks of it (R356, R377). -/
def State.slotReaches (cut : Option Nat) (gclk ticks : Nat) (s : State) : Bool :=
  match cut with
  | none => true
  | some d => s.gclkNs gclk + 5 * s.scanDiv * ticks / 4 < d

/-- A line slot of the running scan (R352 to R354, R373, R376, R379, R388). Remaps and groups that it changes act from the
next line slot on (R378, R384). -/
def State.runLineSlot (c : Scan) (obs : LineObs) (s : State) : State :=
  let n := c.done
  let i := n / s.scanS
  let j := n % s.scanS
  let p := s.scanProg
  let line := s.scanLine p j
  let start := c.start + wd (s.lineSlotAt n)
  let cut := s.cutIn c start
  let np := s.probeTicks
  let test := if s.bitOf .tile Reg.DIAG_CTRL 28 then some s.til.lmp.gateNext else none
  let (s, e0) := if s.slotReaches cut 5 0 then s.gateTest obs.gates else (s, [])
  let wants := s.padDrives line i
  let lit := s.litPads line i
  let drv := fun c : Nat => s.driver (n % 64) c
  let meas := (lit.filter fun e => decide (np ≤ e.2.p) && s.measures e.1).map Prod.fst
  let first := i = 0 && s.bitOf .tile Reg.DIAG_CTRL 30 && s.til.lmp.probeSlot == some c.slot
    && s.slotReaches cut (s.scanDoff p + s.scanPdis p) 0
  let probed := if first then s.probed line else []
  let (s, e1) := if first then s.probeLine line obs.probeVolts (s.slotReaches cut (s.scanDoff p + s.scanPdis p) np) else (s, [])
  let seen := s.slotReaches cut (s.scanB p) np
  let (s, e2) := if seen then State.readLine line obs.volts meas s else (s, [])
  let (s, e3) := if seen && s.bitOf .tile Reg.DIAG_CTRL 29 then s.readBack (n % 64) obs wants drv else (s, [])
  let s := s.updLmp fun l =>
    { l with lit := lit, run := some ⟨line, start, test, probed⟩, scanned := l.scanned ||| 2 ^ line,
             scan := some { c with done := n + 1 } }
  let s := s.wr .tile Reg.SCAN_STAT (wd (2 ^ 31 + p * 2 ^ 30 + c.slot * 2 ^ 24 + i * 2 ^ 16 + j))
  s.raiseAll .tile (e0 ++ e1 ++ e2 ++ e3)

/-- LINE_SLOT (R352): the running scan's next line slot, from its start on. In the safe state and in the lehr
state, where nothing is scanned, the gate test runs on (R405, R424). -/
def execLineSlot (obs : LineObs) (s : State) : Host.Outcome State Fault Refusal :=
  .next (s.when' .tile fun s =>
    match s.til.lmp.scan with
    | some c =>
      if c.done < s.scanK * s.scanS && s.reachedAt .tile (c.start + wd (s.lineSlotAt c.done)) then s.runLineSlot c obs else s
    | none =>
      if (s.safe .tile || s.lehr .tile) && s.bitOf .tile Reg.SCAN_CFG 31 then
        let (s, e) := s.gateTest obs.gates
        s.raiseAll .tile e
      else s)

/-! ### Frames of the diagnostics (R374, R375) -/

/-- The first slot named in `DIAG_PROBE.SLOTM` (R376). -/
def State.firstProbeSlot (s : State) : Option Nat :=
  (List.range (s.slots .tile)).find? fun k => s.bitOf .tile Reg.DIAG_PROBE k

/-- The lines scanned in the frame that ends at the tile's latch point count for their lamps, under the values that were in
force in it (R374, R375). -/
def State.diagCount (s : State) : State :=
  let m := s.til.lmp.scanned
  let keys := (List.range 2048).filter fun k => m.testBit (k / 64) && s.measures (48 * (k % 64)) && s.bitOf .tile Reg.SCAN_CFG 31
  s.updLmp fun l =>
    { l with lineFrames := keys.foldl (fun f k => SMap.set (fun _ => 0) f k (SMap.get (fun _ => 0) f k + 1)) l.lineFrames }

/-- The slot whose window carries probes is chosen (R376). -/
def State.probeChoose (s : State) : State :=
  let ps := s.firstProbeSlot
  s.updLmp fun l => { l with probeSlot := ps }

/-- The next frame of the diagnostics begins at the tile's latch point (R374). -/
def State.diagLatch (s : State) : State :=
  let s := (s.updLmp fun l => { l with scanned := 0, diagFrame := l.diagFrame + 1, unmEv := [] }).probeChoose
  s.updPix fun x => { x with corClip := false, drvClip := false }

/-- LAMP_UNMEASURED (R375): 256 counted frames without a reading. -/
def execLampUnmeasured (line : Fin 32) (pad : Fin 3072) (s : State) : Host.Outcome State Fault Refusal :=
  .next (s.when' .tile fun s =>
    let l := line.val
    let n := pad.val
    let v := s.lamp l n
    let live := match v.st with
      | .good => true
      | .suspect => true
      | _ => false
    if live && s.measures n && v.readAt + 256 ≤ s.framesOf l n then
      let b := padBlock n
      let s := s.resetLamp l n
      if s.til.lmp.unmEv.contains b then s
      else (s.updLmp fun u => { u with unmEv := b :: u.unmEv }).raise .tile (Ev.UNMEASURED b)
    else s)

/-! ### Groups and the fault list returned to service (R383, R386) -/

/-- Lamps of the blocks of a mask of groups, whether enabled or not (R386). -/
def State.inGroups (m : Nat) (pad : Nat) (s : State) : Bool :=
  let b := padBlock pad
  m.testBit (s.fldOf .tile (Reg.DIAG_SG_MAP (b / 8)) (4 * (b % 8) + 3) (4 * (b % 8)))

/-- A write of `DIAG_SG_OFF` returns groups to service: their declared lamps go to UNMEASURED and leave the fault
list (R386). -/
def State.sgOffWrite (v : Nat) (s : State) : State :=
  let s := s.wr .tile Reg.DIAG_SG_OFF (s.rd .tile Reg.DIAG_SG_OFF &&& ~~~(wd (v % 65536)))
  let keys := (s.til.lmp.lamps.filter fun e => e.2.declared && s.inGroups v (e.1 % 3072)).map Prod.fst
  let keep := s.flist.filter fun w => !s.inGroups v (fld w 11 0)
  let s := keys.foldl (fun s k => s.resetLamp (k / 3072) (k % 3072)) s
  s.flistPut keep

/-- DIAG_SG_OFF_WRITE (R386). -/
def execDiagSgOffWrite (v : BitVec 16) (s : State) : Host.Outcome State Fault Refusal :=
  .next (s.when' .tile (State.sgOffWrite v.toNat))

/-- `DIAG_FLIST_CLR` empties the list and clears FLIST_OVF (R383). -/
def State.flistClear (s : State) : State := (s.flistPut []).wr .tile Reg.DIAG_STAT 0

/-- DIAG_FLIST_CLR (R383). -/
def execDiagFlistClr (s : State) : Host.Outcome State Fault Refusal := .next (s.when' .tile State.flistClear)

/-! ### A commit of DIAG (R385, R390) -/

/-- The pad that the SET of a block names for a spare. -/
def State.setNames (b x : Nat) (s : State) : Option Nat :=
  let set := s.rd .tile (Reg.DIAG_REMAP_SET b)
  if x = 48 then (if bit set 31 then some (fld set 21 16) else none)
  else if bit set 15 then some (fld set 5 0) else none

/-- The pad that the SET of a block gives a spare. A spare that has failed since the commit was validated never drives a pad
again (R378). -/
def State.setPad (b x : Nat) (s : State) : Option Nat := if s.spareFailed b x then none else s.setNames b x

/-- Step 1 of R390 for one block: its table becomes the SET; a pad that loses its spare goes back to its own cell,
and a remap naming a spare that holds a trial ends the trial. -/
def State.remapSet (b : Nat) (s : State) : State × List (Nat × Word) :=
  let new : Nat → Option Nat := fun x => s.setPad b x
  let old48 := s.sparePad b 48
  let old49 := s.sparePad b 49
  let lost := ([old48, old49].filterMap id).filter fun c => new 48 ≠ some c && new 49 ≠ some c
  let trials := ([48, 49] : List Nat).filterMap fun x => if s.spareTrial b x then s.sparePad b x else none
  let s := (s.setSpare b 48 (new 48) false).setSpare b 49 (new 49) false
  let s := lost.foldl (fun s c => s.resetPad (48 * b + c)) s
  let s := trials.foldl (fun s c =>
    (List.range s.scanS).foldl (fun s l =>
      if (s.lamp l (48 * b + c)).st = .trial then s.resetLamp l (48 * b + c) else s) s) s
  (s, if lost.isEmpty then [] else [(Ev.REMAP_DROP b, 0)])

/-- Step 2 of R390: a hardware remap made since validation began and not in the SET is made again, as R379 makes it, or as
R380 makes that of a lamp on trial. -/
def State.remapAgain (b c : Nat) (trial : Option Nat) (s : State) : State × List (Nat × Word) :=
  if (s.spareOf b c).isSome then (s, [])
  else
    match trial, s.freeSpare b with
    | some line, _ => s.trialStart line (48 * b + c)
    | none, some x => (s.setSpare b x (some c) false, [])
    | none, none =>
      let (s, e) := s.declarePad 4 (48 * b + c)
      (s, (Ev.NOSPARE b, 0) :: e)

/-- Pads that the SET of a block names for a spare which has failed since, and whose own cell has failed too: the other spare
takes them, as it does in R379. -/
def State.setLost (b : Nat) (s : State) : List Nat :=
  ([48, 49] : List Nat).filterMap fun x =>
    match s.setNames b x with
    | some c => if s.spareFailed b x && (s.driver b c).isNone then some c else none
    | none => none

/-- Every enabled group that holds a block with a declared lamp turns off (R385). -/
def State.groupsOff (s : State) : State × List (Nat × Word) :=
  (List.range 64).foldl (fun (x : State × List (Nat × Word)) b =>
    if x.1.til.lmp.lamps.any fun e => e.2.declared && padBlock (e.1 % 3072) == b then
      let (s, e) := x.1.groupOff b
      (s, x.2 ++ e)
    else x) (s, [])

/-- What a commit naming DIAG does as it lands (R385, R390). -/
def State.diagCommit (s : State) : State × List (Nat × Word) :=
  let maps := s.til.lmp.newMaps.reverse
  let (s, e1) := (List.range 64).foldl (fun (x : State × List (Nat × Word)) b =>
    let (s, e) := x.1.remapSet b
    (s.setLost b).foldl (fun (x : State × List (Nat × Word)) c =>
      let (s, e) := x.1.remapAgain b c none
      (s, x.2 ++ e)) (s, x.2 ++ e)) (s, [])
  let (s, e2) := maps.foldl (fun (x : State × List (Nat × Word)) m =>
    let (s, e) := x.1.remapAgain m.1 m.2.1 m.2.2
    (s, x.2 ++ e)) (s, [])
  let s := s.updLmp fun l => { l with newMaps := [] }
  let (s, e3) := s.groupsOff
  (s, e1 ++ e2 ++ e3)

/-! ### Status reads (R393) -/

/-- `DIAG_LAMP_STAT` of the lamp that `DIAG_LAMP_SEL` names (R393). -/
def State.lampStat (s : State) : Word :=
  let line := s.fldOf .tile Reg.DIAG_LAMP_SEL 20 16
  let pad := s.fldOf .tile Reg.DIAG_LAMP_SEL 11 0
  if s.scanS ≤ line || 3072 ≤ pad then wd (2 * 2 ^ 29)
  else
    let v := s.lamp line pad
    let st := match v.st with
      | .good => 0
      | .suspect => 1
      | .unmeasured => 2
      | .trial => 3
      | .openFault => 4
      | .shortFault => 5
    let probed := match v.probedAt with
      | none => false
      | some f => decide (s.til.lmp.diagFrame < f + 64)
    wd (st * 2 ^ 29 + v.short.toNat * 2 ^ 28 + v.count * 2 ^ 24 + probed.toNat * 2 ^ 16 +
      min 256 (s.framesOf line pad - v.readAt))

/-- `DIAG_BLK_STAT[b]` (R393). -/
def State.blkStat (b : Nat) (s : State) : Word :=
  let here := s.til.lmp.lamps.filter fun e => padBlock (e.1 % 3072) == b && decide (e.1 / 3072 < s.scanS)
  let not_ := (here.filter fun e => e.2.st ≠ .unmeasured).length
  wd ((s.blockOff b).toNat * 2 ^ 31 + (48 * s.scanS - not_) * 2 ^ 16 + (here.filter fun e => e.2.declared).length)

end Sys2Proof.Machine
end

