-- ==== Sys2Proof/Machine/Trim.lean ====
section
/-!
DEFINITION. The colour-trim loop (R363 to R367) and the test of the reference sinks (R389), with the meaning of
each command.
-/

namespace Sys2Proof.Machine

/-- WRLEN, RDLEN, NAVG of the active registers (R371). -/
def State.trimWrlen (s : State) : Nat := s.fldOf .tile Reg.TRIM_I2C_CFG 7 4
def State.trimRdlen (s : State) : Nat := s.fldOf .tile Reg.TRIM_I2C_CFG 3 0
def State.trimNavg (s : State) : Nat := s.fldOf .tile Reg.TRIM_CTRL 3 0 + 1

/-- The wait of step 1 before what a cycle awaits, and the wait INTEG of step 3, in ns (R365). -/
def TrimCycle.settleNs (t : TrimCycle) : Nat := if t.settle then 1000000 else 0
def State.trimInteg (s : State) : Nat := s.fldOf .tile Reg.TRIM_I2C_TIM 31 16 * 100000

/-- The step of a cycle (R371): 1 SETTLE, 2 START, 3 INTEG, 4 READ, 5 RECOVER. -/
def State.trimStep (t : TrimCycle) (s : State) : Nat :=
  if t.recover then 5
  else if !s.timedOut .tile t.since t.settleNs then 1
  else if !t.reading then 2
  else if t.again || s.timedOut .tile t.since (t.settleNs + s.trimInteg) then 4
  else 3

/-- A transfer of the cycle runs. -/
def State.trimSends (t : TrimCycle) (s : State) : Bool := s.trimStep t == 2 || s.trimStep t == 4

/-- `TRIM_STAT` (R371): BUSY, step and colour. -/
def State.trimStat (s : State) : Word :=
  match s.til.lmp.trim with
  | none => 0
  | some t => wd (2 ^ 31 + s.trimStep t * 2 ^ 28 + t.colour * 2 ^ 24)

/-- What reference sink c is driven with, in units of 10 µA and of 1 ÷ 65,536 of the PWM period: the sink of the colour that
is measured at P, the other two off; all three at AGE_P between cycles; none while the loop does not run (R349, R353,
R365). -/
def State.refSink (c : Nat) (s : State) : Option (Nat × Nat) :=
  if s.safe .tile || s.lehr .tile || s.tapTakes .tile || !s.bitOf .tile Reg.TRIM_CTRL 31 then none
  else
    let cur := s.fldOf .tile Reg.TRIM_REF 25 16
    match s.til.lmp.trim with
    | none => some (cur, s.fldOf .tile Reg.TRIM_AGE 15 0)
    | some t => if t.colour = c then some (cur, s.fldOf .tile Reg.TRIM_REF 15 0) else none

/-- The clock of the I²C bus, in kHz (R364, R371). -/
def State.i2cKhz (s : State) : Nat :=
  match s.fldOf .tile Reg.TRIM_I2C_CFG 25 24 with
  | 0 => 1000
  | 1 => 400
  | _ => 100

/-- The cycle waits for something new. -/
def State.setTrim (t : TrimCycle) (s : State) : State := s.updLmp fun l => { l with trim := some t }

/-- The cycle goes over to a colour, with the 1 ms of step 1: a write comes first if WRLEN is above 0 (R365). -/
def State.trimColour (c : Nat) (t : TrimCycle) (s : State) : State :=
  s.setTrim { t with colour := c, readings := [], reading := s.trimWrlen = 0, again := false, recover := false,
                     since := s.elapsed .tile, settle := true }

/-- The next colour from `c` on whose sink is not open; with none left the cycle completes (R365, R389). The events
of the command are raised. -/
def State.trimNext (c : Nat) (t : TrimCycle) (evs : List (Nat × Word)) (s : State) : State :=
  match ([0, 1, 2] : List Nat).find? fun d => c ≤ d && !t.opens.contains d with
  | some d => (s.trimColour d t).raiseAll .tile evs
  | none =>
    let s := s.updLmp fun l => { l with trim := none }
    (s.wr .tile Reg.TRIM_LAST_WT (s.wall .tile)).raiseAll .tile (evs ++ [(Ev.TRIM_DONE, 0)])

/-- T_R of R366: the mean of the valid driver-die sensors; a free value where none is valid. -/
def State.trimTemp (s : State) : Int × State :=
  if s.bitOf .tile Reg.THM_DRV_MEAN 31 then (s.tempOf .tile Reg.THM_DRV_MEAN, s)
  else
    let (w, s) := s.free 10
    (sfld w 15 0, s)

/-- TGT_T of R366. -/
def trimGoal (tgt : Nat) (tco t tcal : Int) : Int := tgt + asr ((tgt : Int) * tco * (t - tcal) + 32768) 16

/-- TG* of R366 before its clamp. -/
def trimRaw (m : Nat) (goal : Int) : Int := (32768 * goal + (m / 2 : Nat)) / (m : Int)

/-- The mean of a colour's readings, rounded half up (R365). -/
def trimMean (l : List Nat) : Nat := (2 * l.foldl (· + ·) 0 + l.length) / (2 * l.length)

/-- A colour has its NAVG readings: M, and TG* by R366. -/
def State.trimFinish (t : TrimCycle) (rs : List Nat) (s : State) : State :=
  let c := t.colour
  let m := trimMean rs
  let s := s.wr .tile (Reg.TRIM_MEAS c) (wd m)
  let (temp, s) := s.trimTemp
  let goal := trimGoal (s.fldOf .tile (Reg.TRIM_TGT c) 15 0) (s.tempOf .tile (Reg.TRIM_TCO c)) temp (s.tempOf .tile Reg.TRIM_TCAL)
  if m = 0 || goal ≤ 0 then s.trimNext (c + 1) t [(Ev.TRIM_RANGE, 0)]
  else
    let lo : Int := (s.fldOf .tile Reg.TRIM_LIMIT 15 0 : Nat)
    let hi : Int := (s.fldOf .tile Reg.TRIM_LIMIT 31 16 : Nat)
    let raw := trimRaw m goal
    let g := clampI raw lo hi
    let s := s.wr .tile (Reg.TRIM_TARGET c) (wd (2 ^ 31 + g.toNat))
    s.trimNext (c + 1) t (if g = raw then [] else [(Ev.TRIM_RANGE, 0)])

/-- The bytes of `TRIM_I2C_WR` that a write sends (R371). -/
def State.trimWriteBytes (s : State) : List Byte :=
  (bytesLE [s.rd .tile (Reg.TRIM_I2C_WR 0), s.rd .tile (Reg.TRIM_I2C_WR 1)]).take s.trimWrlen

/-- The I²C address byte with its direction bit. -/
def State.trimAddr (read : Bool) (s : State) : Byte :=
  BitVec.ofNat 8 (2 * s.fldOf .tile Reg.TRIM_I2C_CFG 22 16 + read.toNat)

/-- A reading: word WORD of the bytes read, in the byte order BE (R365). -/
def trimReading (bs : List Byte) (word : Nat) (be : Bool) : Nat :=
  let a := (bs.getD (2 * word) 0).toNat
  let b := (bs.getD (2 * word + 1) 0).toNat
  if be then 256 * a + b else 256 * b + a

/-- `TRIM_RAW` takes the bytes read (R371). -/
def State.trimRawBytes (bs : List Byte) (s : State) : State :=
  let pad := bs ++ List.replicate (12 - bs.length) 0
  (((wordsLE (pad.take 12)).zipIdx).foldl (fun s x => s.wr .tile (Reg.TRIM_RAW x.2) x.1) s)

/-- A transfer of the cycle completes (R365). -/
def State.trimTransfer (bs : List Byte) (t : TrimCycle) (s : State) : State :=
  let after := { t with again := false, since := s.elapsed .tile, settle := false }
  if t.reading then
    let bs := bs.take s.trimRdlen
    let s := s.emit (.i2c s.i2cKhz [s.trimAddr false, BitVec.ofNat 8 (s.fldOf .tile Reg.TRIM_I2C_CFG 15 8), s.trimAddr true])
    let s := s.trimRawBytes bs
    let ch := s.rd .tile (Reg.TRIM_CH t.colour)
    let rs := t.readings ++ [trimReading bs (fld ch 2 0) (bit ch 4)]
    if s.trimNavg ≤ rs.length then s.trimFinish t rs
    else s.setTrim { after with readings := rs, reading := s.trimWrlen = 0 }
  else (s.emit (.i2c s.i2cKhz (s.trimAddr false :: s.trimWriteBytes))).setTrim { after with reading := true }

/-- A cycle is abandoned, and leaves `TRIM_TARGET` as it found it (R367). -/
def State.trimAbandon (t : TrimCycle) (s : State) : State :=
  let s := ([0, 1, 2] : List Nat).foldl (fun s c => s.wr .tile (Reg.TRIM_TARGET c) (t.before.getD c 0)) s
  s.updLmp fun l => { l with trim := none }

/-- A commit naming TRIM lands; `was` is EN before. A running cycle is abandoned, with STOP after the byte in progress, and
the next one starts 1 s later; so does the first one after EN becomes 1 (R365, R367). -/
def State.landTrim (was : Bool) (s : State) : State :=
  let now := s.elapsed .tile
  let again := fun l : LampUnit => { l with trimEn := now, trimLast := none }
  match s.til.lmp.trim with
  | some t => ((if s.trimSends t then s.emit .i2cStop else s).trimAbandon t).updLmp again
  | none => if was then s else s.updLmp again

/-- A cycle is due: 1 s after EN became 1, and then every INT seconds from the start of the previous one (R365). -/
def State.trimDue (s : State) : Bool :=
  s.bitOf .tile Reg.TRIM_CTRL 31 && s.til.lmp.trim.isNone &&
    match s.til.lmp.trimLast with
    | none => s.timedOut .tile s.til.lmp.trimEn 1000000000
    | some a => s.timedOut .tile a (s.fldOf .tile Reg.TRIM_INT 15 0 * 1000000000)

/-- Reference sinks c and c + 1 are shorted: one carries current while the other is driven alone (R389). -/
def refShorted (near : BitVec 4) (c : Nat) : Bool := near.getLsbD (2 * c) || near.getLsbD (2 * c + 1)

/-- Reference sinks that carry no current with the pad below V_OPEN are open (R389). `mv` holds the pad voltages in mV. -/
def State.refOpens (own : BitVec 3) (mv : List Nat) (s : State) : List Nat :=
  ([0, 1, 2] : List Nat).filter fun c => !own.getLsbD c && s.sortSample (mv.getD c 0) = .open_

/-- TRIM_CYCLE_START (R365, R389): the reference sinks are tested first. A short between neighbours skips this and
every later cycle; a cycle due in the safe or the lehr state is skipped. -/
def execTrimCycleStart (own : BitVec 3) (near : BitVec 4) (mv : List Nat) (s : State) :
    Host.Outcome State Fault Refusal :=
  .next (s.when' .tile fun s =>
    if !s.trimDue then s
    else
      let now := s.elapsed .tile
      let s := s.updLmp fun l => { l with trimLast := some now }
      if s.safe .tile || s.lehr .tile || s.tapTakes .tile || s.refShort then s
      else
        let short := refShorted near 0 || refShorted near 1
        let opens := s.refOpens own mv
        let w := putBit (putBit (s.rd .tile Reg.DIAG_REF_STAT) 0 (refShorted near 0)) 1 (refShorted near 1)
        let s := s.wr .tile Reg.DIAG_REF_STAT (opens.foldl (fun w c => putBit w (4 + c) true) w)
        let evs := (if short then [(Ev.REF_SHORT, 0)] else []) ++ opens.map fun _ => (Ev.REF_OPEN, (0 : Word))
        let before := ([0, 1, 2] : List Nat).map fun c => s.rd .tile (Reg.TRIM_TARGET c)
        if short then s.raiseAll .tile evs
        else s.trimNext 0 { colour := 0, readings := [], reading := false, again := false, recover := false, since := now,
                            settle := true, opens := opens, before := before } evs)

/-- TRIM_I2C_TRANSFER (R365): the transfer of step 2 or step 4 completes. -/
def execTrimI2cTransfer (bs : List Byte) (s : State) : Host.Outcome State Fault Refusal :=
  .next (s.when' .tile fun s =>
    match s.til.lmp.trim with
    | none => s
    | some t => if s.trimSends t then s.trimTransfer bs t else s)

/-- TRIM_I2C_ERR (R367): the transfer ends, the bus is cleared, and the transfer is tried once more; a second failure
abandons the cycle. -/
def execTrimI2cErr (s : State) : Host.Outcome State Fault Refusal :=
  .next (s.when' .tile fun s =>
    match s.til.lmp.trim with
    | none => s
    | some t =>
      if !s.trimSends t then s
      else
        let s := (s.emit .i2cClear).bump .tile Reg.TRIM_I2C_ERRS 1
        let s := if t.again then s.trimAbandon t else s.setTrim { t with recover := true, since := s.elapsed .tile }
        s.raise .tile Ev.TRIM_I2C_ERR)

/-- TRIM_I2C_RETRY (R367): 10 ms after a failure the transfer is tried again. -/
def execTrimI2cRetry (s : State) : Host.Outcome State Fault Refusal :=
  .next (s.when' .tile fun s =>
    match s.til.lmp.trim with
    | none => s
    | some t =>
      if t.recover && s.timedOut .tile t.since 10000000 then
        s.setTrim { t with recover := false, again := true, since := s.elapsed .tile, settle := false }
      else s)

end Sys2Proof.Machine
end

