-- ==== Sys2Proof/Machine/Porval.lean ====
section
/-!
DEFINITION. The Porval pair (R287 to R294): the sender's master on each chain port and the tile's Porval domain
(R290, R427, R437, R477), with the meaning of each command.
-/

namespace Sys2Proof.Machine

/-! ### Frames (R288) -/

/-- The preamble and the delimiter of a frame (R288). -/
def pvLead : List Byte := [0xAA, 0xAA, 0xAB]

/-- The frame of the bytes from CMD to the end of the payload: preamble, delimiter, those bytes and their CRC (R288). -/
def pvSeal (b : List Byte) : List Byte := pvLead ++ b ++ bytesOfNatBE 2 (crc16 b)

/-- A frame from its CMD to its CRC. -/
def pvBody (f : List Byte) : List Byte := f.drop 3

/-- The lead of a frame, and its LEN and CRC, are good (R288). -/
def pvSound (f : List Byte) : Bool :=
  let b := pvBody f
  f.take 3 == pvLead && b.length == 12 + (b.getD 9 0).toNat && (b.getD 9 0).toNat ≤ 64
    && crc16 (b.dropLast.dropLast) == natBE (b.drop (b.length - 2))

/-- CMD of a frame, which is its first byte after the delimiter. -/
def pvCmd (b : List Byte) : Nat := (b.getD 0 0).toNat

/-- ADDR of a frame, from its CMD on. -/
def pvAddr (b : List Byte) : Nat := natBE ((b.drop 1).take 8)

/-- The payload of a frame, from its CMD on. -/
def pvPayload (b : List Byte) : List Byte := (b.drop 10).take (b.getD 9 0).toNat

/-- The broadcast address (R288). -/
def pvAll : Nat := 2 ^ 64 - 1

/-! ### The accession record over Porval (R427) -/

/-- The eight words of a part's accession record (R427). -/
def Accession.words (a : Accession) : List Word :=
  let w4 := wd (a.valid.toNat * 2 ^ 31 + a.ovf.toNat * 2 ^ 30 + a.safe.toNat * 2 ^ 29 + a.lehr.toNat * 2 ^ 28 + a.pos)
  let ws := [a.record.w0, a.record.w1, a.record.w2, a.record.w3, w4, wd a.resets]
  ws ++ [crc32c (bytesBE ws), 0]

/-! ### The sender's master (R289, R294) -/

/-- Word j of the transmit frame. -/
def State.pvTxWord (k j : Nat) (s : State) : Word := s.rd .sender (Reg.LNK_PV_TX k j)

/-- The request of `LNK_PV_TX`, `LNK_PV_TXLEN` bytes of it (R292). -/
def State.pvRequest (k : Nat) (s : State) : List Byte :=
  (bytesLE ((List.range 19).map fun j => s.pvTxWord k j)).take (s.fldOf .sender (Reg.LNK_PV_TXLEN k) 6 0)

/-- A transaction runs (R292). -/
def State.pvBusy (k : Nat) (s : State) : Bool := s.bitOf .sender (Reg.LNK_PV_STAT k) 31

/-- Where a chain port's transaction stands. -/
def State.pvPhase (k : Nat) (s : State) : PvPhase := (s.port .sender k).pv

/-- A transaction's phase set. -/
def State.setPv (k : Nat) (v : PvPhase) (s : State) : State := s.updPort .sender k fun q => { q with pv := v }

/-- A transaction ends with a RESULT; PV_DONE, and PV_COLLISION for COLLISION, are raised (R289, R294). -/
def State.pvDone (k res bytes : Nat) (s : State) : State :=
  let w := putFld (putFld (putBit (s.rd .sender (Reg.LNK_PV_STAT k)) 31 false) 30 28 res) 22 16 bytes
  let s := (s.setPv k .idle).wr .sender (Reg.LNK_PV_STAT k) w
  s.raiseAll .sender ((Ev.PV_DONE k, 0) :: (if res = 5 then [(Ev.PV_COLLISION k, 0)] else []))

/-- The port's pair is in use: the cross-link's pair is not (R287). -/
def State.pvPair (k : Nat) (s : State) : Bool := s.fldOf .sender (Reg.CHN_CTRL k) 31 30 != 2

/-- The sender holds the pair of a chain port at 3.3 V: with BIAS_EN, but not in its low-power state, and never the
cross-link's pair (R287). -/
def State.pvBiased (k : Nat) (s : State) : Bool :=
  s.alive .sender && s.bitOf .sender (Reg.LNK_PV_CTRL k) 31 && s.pvPair k

/-- The pair has been seen high: this sender biases it, or BIAS_SEEN holds since then. DEDUCED: BIAS_SEEN is set by a
transaction that finds the pair biased. -/
def State.pvHigh (k : Nat) (s : State) : Bool := s.pvBiased k || (s.pvPair k && s.bitOf .sender (Reg.LNK_PV_STAT k) 8)

/-- GO (R294): a transaction starts with its first attempt. -/
def State.pvGo (k : Nat) (s : State) : State :=
  if s.pvBusy k then s
  else
    let seen := s.pvHigh k
    let s := s.updPort .sender k fun q => { q with pv := .sending, pvTx := s.pvRequest k }
    s.wr .sender (Reg.LNK_PV_STAT k) (wd (2 ^ 31 + seen.toNat * 2 ^ 8 + 1))

/-- ABORT (R294). -/
def State.pvAbort (k : Nat) (s : State) : State := if s.pvBusy k then s.pvDone k 3 0 else s

/-- A write of `LNK_PV_CMD` (R292). -/
def State.pvCmdWrite (k : Nat) (v : Word) (s : State) : State :=
  let s := if bit v 1 then s.pvAbort k else s
  if bit v 0 then s.pvGo k else s

/-- PV_GO (R292, R294). -/
def execPvGo (k : Fin 16) (s : State) : Host.Outcome State Fault Refusal := .next (s.when' .sender (State.pvGo k.val))

/-- PV_ABORT (R292, R294). -/
def execPvAbort (k : Fin 16) (s : State) : Host.Outcome State Fault Refusal :=
  .next (s.when' .sender (State.pvAbort k.val))

/-- PV_REQUEST_END (R289): the frame has gone out; a PING waits for its sample, a broadcast ends as SENT. No frame goes
out on the cross-link's pair, which is not used and never high (R287). -/
def execPvRequestEnd (k : Fin 16) (s : State) : Host.Outcome State Fault Refusal :=
  .next (s.when' .sender fun s =>
    let k := k.val
    if s.pvPhase k = .sending && s.pvPair k then
      let b := (s.port .sender k).pvTx
      let s := s.emit (.porval k (pvSeal b))
      if pvCmd b = 2 then s.setPv k .sample
      else if pvAddr b = pvAll then s.pvDone k 6 0
      else s.setPv k .await
    else s)

/-- PORVAL_COLLISION_SEEN (R289): after 8 attempts the sender gives up. -/
def execPorvalCollisionSeen (k : Fin 16) (s : State) : Host.Outcome State Fault Refusal :=
  .next (s.when' .sender fun s =>
    let k := k.val
    if s.pvPhase k = .sending then
      if 8 ≤ s.fldOf .sender (Reg.LNK_PV_STAT k) 3 0 then s.pvDone k 5 0 else s.setPv k .backoff
    else s)

/-- PV_RETRY (R289). -/
def execPvRetry (k : Fin 16) (s : State) : Host.Outcome State Fault Refusal :=
  .next (s.when' .sender fun s =>
    let k := k.val
    if s.pvPhase k = .backoff then
      (s.setPv k .sending).wrFld .sender (Reg.LNK_PV_STAT k) 3 0 (s.fldOf .sender (Reg.LNK_PV_STAT k) 3 0 + 1)
    else s)

/-- The response registers take a frame, CMD to the end of its payload (R292). -/
def State.pvRx (k : Nat) (b : List Byte) (s : State) : State :=
  let ws := wordsLE (b ++ List.replicate (76 - b.length) 0)
  (List.range 19).foldl (fun s j => s.wr .sender (Reg.LNK_PV_RX k j) (ws.getD j 0)) s

/-- PV_RESPONSE (R289, R292): `b` holds the response, from its preamble on. -/
def execPvResponse (k : Fin 16) (b : List Byte) (s : State) : Host.Outcome State Fault Refusal :=
  .next (s.when' .sender fun s =>
    let k := k.val
    if s.pvPhase k = .await then
      if pvSound b then (s.pvRx k (pvBody b).dropLast.dropLast).pvDone k 0 (b.length - 5) else s.pvDone k 4 0
    else s)

/-- PV_NO_ANSWER (R289). -/
def execPvNoAnswer (k : Fin 16) (s : State) : Host.Outcome State Fault Refusal :=
  .next (s.when' .sender fun s => if s.pvPhase k.val = .await then s.pvDone k.val 3 0 else s)

/-- PING_PRESENCE_SAMPLE (R290). -/
def execPingPresenceSample (k : Fin 16) (low : Bool) (s : State) : Host.Outcome State Fault Refusal :=
  .next (s.when' .sender fun s =>
    if s.pvPhase k.val = .sample then s.pvDone k.val (if low then 1 else 2) 0 else s)

/-- PV_BIAS (R294): the pair, which has been high, drops below 2.0 V for 10 ms while idle. -/
def execPvBias (k : Fin 16) (s : State) : Host.Outcome State Fault Refusal :=
  .next (s.when' .sender fun s =>
    if s.pvPhase k.val = .idle && s.pvHigh k.val then
      (s.wrBit .sender (Reg.LNK_PV_STAT k.val) 8 false).raise .sender (Ev.PV_BIAS k.val)
    else s)

/-! ### The tile's Porval domain (R290, R437, R475) -/

/-- What the Porval domain holds, changed. -/
def State.updPv (f : PvDomain → PvDomain) (s : State) : State := { s with pvd := f s.pvd }

/-- The tile's identifier (R434). -/
def tileId : Nat := (Config.devId .tile).toNat

/-- The logic die is powered: VDD_IO and VDD_LC are within tolerance (R475, R487). -/
def State.logicOn (s : State) : Bool := s.bitOf .tile Reg.SYS_PWR_STAT 0 && s.bitOf .tile Reg.SYS_PWR_STAT 1

/-- A frame reaches the domain: it is powered, the frame is sound, its CMD and addressing are as the command has
them (R289, R290). -/
def State.pvHears (f : List Byte) (cmd : Nat) (ok : Nat → Bool) (s : State) : Bool :=
  s.pvd.powered && pvSound f && pvCmd (pvBody f) == cmd && ok (pvAddr (pvBody f))

/-- The tile's response (R288, R290). -/
def State.pvAnswer (cmd : Nat) (payload : List Byte) (s : State) : State :=
  let b := BitVec.ofNat 8 (cmd + 128) :: bytesOfNatBE 8 tileId ++ BitVec.ofNat 8 payload.length :: payload
  s.emit (.porvalResp (pvSeal b))

/-- The leading `n` bits of two identifiers agree (R290). -/
def prefixSame (n a b : Nat) : Bool := a / 2 ^ (64 - n) == b / 2 ^ (64 - n)

/-- ROLL_RESET (R290). -/
def execRollReset (b : List Byte) (s : State) : Host.Outcome State Fault Refusal :=
  .next (if s.pvHears b 1 (· == pvAll) then s.updPv fun v => { v with noted := false } else s)

/-- PING (R290): a presence pulse of a tile that is not noted and whose leading bits are the prefix's. -/
def execPing (b : List Byte) (s : State) : Host.Outcome State Fault Refusal :=
  .next (
    let n := ((pvPayload (pvBody b)).getD 0 0).toNat
    if s.pvHears b 2 (fun a => n ≤ 64 && prefixSame n a tileId) && !s.pvd.noted then s.emit .presence else s)

/-- NOTE (R290). -/
def execNote (b : List Byte) (s : State) : Host.Outcome State Fault Refusal :=
  .next (if s.pvHears b 3 (· == tileId) then (s.updPv fun v => { v with noted := true }).pvAnswer 3 [0] else s)

/-- IDENT (R290). -/
def execIdent (b : List Byte) (s : State) : Host.Outcome State Fault Refusal :=
  .next (
    if s.pvHears b 4 (· == tileId) then
      let dom := s.logicOn.toNat + s.tile.acc.valid.toNat * 2 + s.pvd.noted.toNat * 4
      s.pvAnswer 4 [0, 0x31, 0xA2, BitVec.ofNat 8 dom, s.pvd.lastPos.setWidth 8]
    else s)

/-- ACC_READ (R290, R427): up to 32 bytes of the record from the offset. -/
def execAccRead (b : List Byte) (s : State) : Host.Outcome State Fault Refusal :=
  .next (
    if s.pvHears b 5 (· == tileId) then
      let off := ((pvPayload (pvBody b)).getD 0 0).toNat
      s.pvAnswer 5 (0 :: ((bytesBE s.tile.acc.words).drop off).take 32)
    else s)

/-- The signing engine is busy, for the folio path or the Porval path (R436). -/
def State.chalBusy (s : State) : Bool := s.pvd.busy || s.bitOf .tile Reg.IDN_CHAL_STAT 31

/-- CHALLENGE (R290, R436, R437): STATUS 1 and the work starts, or STATUS 2 while the engine is busy. -/
def execChallenge (b : List Byte) (s : State) : Host.Outcome State Fault Refusal :=
  .next (
    if s.pvHears b 6 (· == tileId) then
      if s.chalBusy then
        let s := if s.logicOn then s.wrBit .tile Reg.IDN_CHAL_STAT 29 true else s
        (s.updPv fun v => { v with refused := true }).pvAnswer 6 [2]
      else
        let s := s.updPv fun v =>
          { v with nonce := (pvPayload (pvBody b)).take 32, busy := true, refused := false, part := false, result := [] }
        let s := if s.logicOn then s.wr .tile Reg.IDN_CHAL_STAT 0x80000001 else s
        s.pvAnswer 6 [1]
    else s)

/-- FETCH (R437): STATUS 1 while the work runs; then r and s in turn; STATUS 2 with no result to give. -/
def execFetch (b : List Byte) (s : State) : Host.Outcome State Fault Refusal :=
  .next (
    if s.pvHears b 7 (· == tileId) then
      if s.pvd.busy then s.pvAnswer 7 [1]
      else if s.pvd.refused || s.pvd.result.isEmpty then s.pvAnswer 7 [2]
      else
        let p := s.pvd.part
        let half := if p then s.pvd.result.drop 32 else s.pvd.result.take 32
        (s.updPv fun v => { v with part := !p }).pvAnswer 7 (0 :: BitVec.ofNat 8 p.toNat :: half)
    else s)

/-- WAKE (R290, R477): WAKE_OUT_N goes low for 10 ms; a powered logic die raises PV_WAKE. -/
def execWake (b : List Byte) (s : State) : Host.Outcome State Fault Refusal :=
  .next (
    if s.pvHears b 8 (fun a => a == tileId || a == pvAll) then
      let s := s.updPv fun v => { v with wakePulse := true }
      let s := if s.alive .tile && s.logicOn then s.raise .tile Ev.PV_WAKE else s
      if pvAddr (pvBody b) = tileId then s.pvAnswer 8 [0] else s
    else s)

end Sys2Proof.Machine
end

