-- ==== Sys2Proof/Machine/Identity.lean ====
section
/-!
DEFINITION. Identity and catalogue digests (R433 to R446): the signing and the verify engine, the catalogue digest
and its recomputation, the DIGEST packets, with the meaning of each command.
-/

namespace Sys2Proof.Machine

/-! ### The signing engine (R435 to R437) -/

/-- The message M of R435. -/
def chalMessage (dev n : List Byte) (ch : Byte) : List Byte := asciiBytes "SKDG-ID1" ++ dev ++ n ++ [ch]

/-- `n` words of the random source, as one number. -/
def State.drawBits : Nat → State → Nat × State
  | 0, s => (0, s)
  | n + 1, s =>
    let (x, s) := State.drawBits n s
    let (w, s) := s.draw
    (x * 2 ^ 32 + w.toNat, s)

/-- The signature r ‖ s of a nonce on a channel, with a fresh secret (R435). -/
def State.sign (p : Part) (n : List Byte) (ch : Byte) (s : State) : List Byte × State :=
  let (x, s) := s.drawBits 10
  (ecdsaSign (privKey p) (scalarOf x) (natBE (sha256 (chalMessage (devIdBytes p) n ch))), s)

/-- Byte string held in `n` IDN registers from `a` on (R433). -/
def State.idnBytes (p : Part) (a n : Nat) (s : State) : List Byte :=
  bytesBE ((List.range n).map fun j => s.rd p (a + 4 * j))

/-- IDN registers from `a` on set to words. -/
def State.idnPut (p : Part) (a : Nat) : List Word → State → State
  | [], s => s
  | w :: ws, s => State.idnPut p (a + 4) ws (s.wr p a w)

/-- The signing engine of a part is busy (R436, R437). -/
def State.signBusy (p : Part) (s : State) : Bool :=
  match p with
  | .sender => s.bitOf .sender Reg.IDN_CHAL_STAT 31
  | .tile => s.chalBusy

/-- GO (R436): refused while the engine is busy; each new challenge clears DONE and REFUSED. -/
def State.chalGo (p : Part) (s : State) : State :=
  if s.signBusy p then s.wrBit p Reg.IDN_CHAL_STAT 29 true else s.wr p Reg.IDN_CHAL_STAT 0x80000000

/-- A write of `IDN_NONCE[j]` (R436): refused while BUSY is 1. -/
def State.nonceWrite (p : Part) (a : Nat) (v : Word) (s : State) : State :=
  if s.bitOf p Reg.IDN_CHAL_STAT 31 then s.wrBit p Reg.IDN_CHAL_STAT 29 true else s.wr p a v

/-- The folio challenge completes (R436). -/
def State.chalFolioDone (p : Part) (s : State) : State :=
  let (sig, s) := s.sign p (s.idnBytes p (Reg.IDN_NONCE 0) 8) 0
  let s := s.idnPut p (Reg.IDN_SIG 0) (wordsBE sig)
  let r := s.rd p Reg.IDN_CHAL_STAT
  (s.wr p Reg.IDN_CHAL_STAT (putBit (putBit r 31 false) 30 true)).raise p (Ev.CHAL_DONE p)

/-- The Porval challenge completes (R437); the logic die shows it where the work has stayed in it. -/
def State.chalPorvalDone (s : State) : State :=
  let (sig, s) := s.sign .tile s.pvd.nonce 1
  let s := s.updPv fun v => { v with busy := false, result := sig, part := false }
  if s.alive .tile && s.bitOf .tile Reg.IDN_CHAL_STAT 31 then
    let r := s.rd .tile Reg.IDN_CHAL_STAT
    (s.wr .tile Reg.IDN_CHAL_STAT (putBit (putBit r 31 false) 30 true)).raise .tile (Ev.CHAL_DONE .tile)
  else s

/-! ### The verify engine (R438) -/

/-- OP 1 or OP 2 is written, with the hash to check: ignored while BUSY is 1 (R438). -/
def State.vfyGo (p : Part) (h : Nat) (s : State) : State :=
  if s.bitOf p Reg.IDN_VFY_STAT 31 then s
  else
    let ok := ecdsaOk (s.idnBytes p (Reg.IDN_VFY_KEY 0) 16) h (s.idnBytes p (Reg.IDN_VFY_SIG 0) 16)
    (s.upd p fun c => { c with vfy := some ok }).wr p Reg.IDN_VFY_STAT 0x80000000

/-- The hash of OP 1. -/
def State.vfyHash (p : Part) (s : State) : Nat := natBE (s.idnBytes p (Reg.IDN_VFY_HASH 0) 8)

/-- The hash of OP 2, SHA-256(M) with the DEVID and the nonce loaded (R438). -/
def State.vfyChal (p : Part) (ch : Bool) (s : State) : Nat :=
  let dev := bytesBE [s.rd p Reg.IDN_VFY_DEVID_HI, s.rd p Reg.IDN_VFY_DEVID_LO]
  natBE (sha256 (chalMessage dev (s.idnBytes p (Reg.IDN_NONCE 0) 8) (if ch then 1 else 0)))

/-- A write of `IDN_VFY_CMD` (R445). -/
def State.vfyCmdWrite (p : Part) (v : Word) (s : State) : State :=
  match fld v 1 0 with
  | 1 => s.vfyGo p (s.vfyHash p)
  | 2 => s.vfyGo p (s.vfyChal p (bit v 8))
  | _ => s

/-! ### The catalogue digest (R441, R442) -/

/-- A number put into an ascending list. -/
def insNat (n : Nat) : List Nat → List Nat
  | [] => [n]
  | x :: xs => if n ≤ x then n :: x :: xs else x :: insNat n xs

/-- The addresses of the SH registers of a 64 KiB window, ascending. -/
def shAddrs (p : Part) (w : Nat) : List Nat :=
  ((regRows p w).filter fun r => decide (r.acc = .sh)).foldl (fun l r => (rowAddrs r).foldl (fun l a => insNat a l) l) []

/-- FH (R441). -/
def State.folioHash (p : Part) (s : State) : List Word :=
  sha256w (bytesBE ((List.range 15).flatMap fun b => (commitWindows p b).flatMap fun w =>
    (shAddrs p w).map fun a => s.rd p a))

/-- BH (R441): the active correction bank as it became active; 32 zero bytes in the sender. -/
def State.bankHash (p : Part) (s : State) : List Word :=
  match p with
  | .sender => List.replicate 8 0
  | .tile => sha256w (bytesBE ((List.range bankWords).map fun j => SMap.get identityWord s.til.bankHashed j))

/-- C (R441). -/
def State.catalogue (p : Part) (s : State) : List Word :=
  (sha256w (asciiBytes "SKDG-CAT" ++ bytesBE [s.rd p Reg.IDN_GEN] ++ bytesBE (s.folioHash p)
    ++ s.idnBytes p (Reg.IDN_IMG_HASH 0) 8 ++ bytesBE (s.bankHash p))).take 4

/-- A recomputation starts, or starts again (R442). -/
def State.catStart (p : Part) (s : State) : State := s.wrBit p Reg.IDN_CAT_STAT 30 true

/-- The last completed C (R442, R444). -/
def State.lastCat (p : Part) (s : State) : List Word := (List.range 4).map fun j => s.rd p (Reg.IDN_CAT j)

/-- A write of `IDN_GEN` (R442). -/
def State.genWrite (p : Part) (v : Word) (s : State) : State := (s.wr p Reg.IDN_GEN v).catStart p

/-- The tile answers a DIGEST REQUEST on a port (R443). -/
def State.catAnswer (i : Nat) (s : State) : State :=
  s.ownPush i (mkPacket tDIGEST destSender 0 (s.srcOf .tile) (wd (1 * 2 ^ 28)) (s.rd .tile Reg.IDN_GEN :: s.lastCat .tile))

/-- The recomputation ends (R442), and the requests that wait for it are answered (R443). -/
def State.catDone (p : Part) (s : State) : State :=
  let c := s.catalogue p
  let s := s.idnPut p (Reg.IDN_FOLIO_HASH 0) (s.folioHash p)
  let s := match p with
    | .sender => s
    | .tile => s.idnPut .tile (Reg.IDN_BANK_HASH 0) (s.bankHash .tile)
  let s := s.idnPut p (Reg.IDN_CAT 0) c
  let s := (s.wr p Reg.IDN_CAT_STAT 0x80000000).wr p Reg.IDN_CAT_FRAME (s.rd p Reg.TIME_FRM_NUM)
  let s := s.raise p (Ev.CAT_READY p)
  match p with
  | .sender => s
  | .tile =>
    let due := s.til.digestDue
    due.foldl (fun s i => s.catAnswer i) (s.updTil fun t => { t with digestDue := [] })

/-! ### A bank exchange (R440, R441) -/

/-- The checks at a bank exchange: CAL_OK, or CAL_FOREIGN (R440); the bank that became active is what BH covers
(R441). -/
def State.bankActive (s : State) : State × List (Nat × Word) :=
  let s := s.updTil fun t => { t with bankHashed := s.bank s.corAct }
  let id := (s.rd .tile Reg.IDN_CAL_ID_HI).toNat * 2 ^ 32 + (s.rd .tile Reg.IDN_CAL_ID_LO).toNat
  if id = (Config.devId .tile).toNat then (s.wrBit .tile Reg.IDN_CAL_STAT 0 true, [])
  else (s.wrBit .tile Reg.IDN_CAL_STAT 0 false, [(Ev.CAL_FOREIGN, 0)])

/-! ### DIGEST packets (R443, R444) -/

/-- The chains of a mask that are configured as chains. -/
def State.namedChains (m : Nat) (s : State) : List Nat := (List.range 16).filter fun k => m.testBit k && s.isChain k

/-- CHAIN (R443). -/
def State.digChain (m : Nat) (s : State) : State :=
  (s.namedChains m).foldl (fun s k =>
    s.sendOpen k (mkPacket tDIGEST destAll 0 0x7E (wd (2 * 2 ^ 28)) (s.rd .sender Reg.IDN_GEN :: s.lastCat .sender))) s

/-- REQUEST (R443). -/
def State.digRequest (m : Nat) (s : State) : State :=
  (s.namedChains m).foldl (fun s k =>
    let s := (s.wr .sender (Reg.IDN_CATRX_MAP_LO k) 0).wr .sender (Reg.IDN_CATRX_MAP_HI k) 0
    s.sendOpen k (mkPacket tDIGEST destAll 0 0x7E 0 [0, 0, 0, 0, 0])) s

/-- A write of `IDN_DIG_CMD` (R445). -/
def State.digCmdWrite (v : Word) (s : State) : State :=
  let s := if bit v 30 then s.digRequest (fld v 15 0) else s
  if bit v 31 then s.digChain (fld v 15 0) else s

/-- The tile folds its C into a chain digest and re-originates it on the other port; it drops it where that
direction is not UP (R444). -/
def State.chainFold (i : Nat) (k : Packet) (s : State) : State :=
  let o := otherPort i
  if s.txActive .tile o then
    let d := ((Pkt.body k).drop 1).take 4
    let d' := (sha256w (asciiBytes "SKDG-CHN" ++ bytesBE d ++ bytesBE (s.lastCat .tile))).take 4
    s.ownPush o (mkPacket tDIGEST (Pkt.dest k) 0 (s.srcOf .tile) (wd (2 * 2 ^ 28)) (Pkt.w k 2 :: d'))
  else s

/-- The sender at the far end stores a chain digest (R444). -/
def State.chainRx (k : Nat) (pkt : Packet) (s : State) : State :=
  let s := s.idnPut .sender (Reg.IDN_CHAIN_RX k 0) (((Pkt.body pkt).drop 1).take 4)
  let s := s.wr .sender (Reg.IDN_CHAIN_GEN k) (Pkt.w pkt 2)
  (s.wr .sender (Reg.IDN_CHAIN_STAT k) (wd (2 ^ 31 + Pkt.src pkt))).raise .sender Ev.CHAIN_RX

/-- The sender stores a position's catalogue digest (R444); one from a tile without a position has no place. -/
def State.catRx (k : Nat) (pkt : Packet) (s : State) : State :=
  let p := Pkt.src pkt
  if 64 ≤ p then s
  else
    let s := s.idnPut .sender (Reg.IDN_CATRX k p 0) (((Pkt.body pkt).drop 1).take 4)
    let s := s.wr .sender (Reg.IDN_CATRX_GEN k p) (Pkt.w pkt 2)
    let a := if p < 32 then Reg.IDN_CATRX_MAP_LO k else Reg.IDN_CATRX_MAP_HI k
    (s.wrBit .sender a (p % 32) true).raise .sender Ev.CATRX

/-! ### The meanings -/

/-- IDN_CHAL_GO (R436). -/
def execIdnChalGo (p : Part) (s : State) : Host.Outcome State Fault Refusal := .next (s.when' p (State.chalGo p))

/-- CHAL_DONE (R436, R437): the Porval domain's challenge ends whether or not the logic die is powered. -/
def execChalDone (p : Part) (s : State) : Host.Outcome State Fault Refusal :=
  .next (
    if p = .tile && s.pvd.powered && s.pvd.busy then s.chalPorvalDone
    else if s.alive p && s.bitOf p Reg.IDN_CHAL_STAT 31 then s.chalFolioDone p
    else s)

/-- IDN_VFY_HASH (R438). -/
def execIdnVfyHash (p : Part) (s : State) : Host.Outcome State Fault Refusal :=
  .next (s.when' p fun s => s.vfyGo p (s.vfyHash p))

/-- IDN_VFY_CHALLENGE (R438). -/
def execIdnVfyChallenge (p : Part) (ch : Bool) (s : State) : Host.Outcome State Fault Refusal :=
  .next (s.when' p fun s => s.vfyGo p (s.vfyChal p ch))

/-- VFY_DONE (R438). -/
def execVfyDone (p : Part) (s : State) : Host.Outcome State Fault Refusal :=
  .next (s.when' p fun s =>
    match (s.chip p).vfy with
    | none => s
    | some ok =>
      let s := s.upd p fun c => { c with vfy := none }
      (s.wr p Reg.IDN_VFY_STAT (if ok then 0x60000000 else 0x40000000)).raise p (Ev.VFY_DONE p))

/-- IDN_RAND_READ (R438). -/
def execIdnRandRead (p : Part) (s : State) : Host.Outcome State Fault Refusal :=
  .next (s.when' p fun s =>
    let (w, s) := s.draw
    s.emit (.value w))

/-- IDN_GEN_WRITE (R442). -/
def execIdnGenWrite (p : Part) (v : Word) (s : State) : Host.Outcome State Fault Refusal :=
  .next (s.when' p (State.genWrite p v))

/-- CAT_READY (R442). -/
def execCatReady (p : Part) (s : State) : Host.Outcome State Fault Refusal :=
  .next (s.when' p fun s => if s.bitOf p Reg.IDN_CAT_STAT 30 then s.catDone p else s)

/-- IDN_DIG_CHAIN (R443). -/
def execIdnDigChain (m : BitVec 16) (s : State) : Host.Outcome State Fault Refusal :=
  .next (s.when' .sender (State.digChain m.toNat))

/-- IDN_DIG_REQUEST (R443). -/
def execIdnDigRequest (m : BitVec 16) (s : State) : Host.Outcome State Fault Refusal :=
  .next (s.when' .sender (State.digRequest m.toNat))

/-- DIGEST_REQUEST (R443): a request while BUSY is 1 is answered when the recomputation ends. -/
def execDigestRequest (port : LnkPort) (pkt : Packet) (s : State) : Host.Outcome State Fault Refusal :=
  .next (match port.part with
    | .sender => s
    | .tile =>
      s.arriveTile port.idx pkt (Pkt.is pkt tDIGEST 0) fun s =>
        if s.bitOf .tile Reg.IDN_CAT_STAT 30 then s.updTil fun t => { t with digestDue := t.digestDue ++ [port.idx] }
        else s.catAnswer port.idx)

/-- DIGEST_CHAIN (R444). -/
def execDigestChain (port : LnkPort) (pkt : Packet) (s : State) : Host.Outcome State Fault Refusal :=
  .next (match port.part with
    | .sender => s.arriveSender port.idx pkt (Pkt.is pkt tDIGEST 2) (State.chainRx port.idx pkt)
    | .tile => s.arriveTile port.idx pkt (Pkt.is pkt tDIGEST 2) (State.chainFold port.idx pkt))

/-- DIGEST_CATALOGUE (R444). -/
def execDigestCatalogue (k : Fin 16) (pkt : Packet) (s : State) : Host.Outcome State Fault Refusal :=
  .next (s.arriveSender k.val pkt (Pkt.is pkt tDIGEST 1) (State.catRx k.val pkt))

end Sys2Proof.Machine
end

