-- ==== Sys2Proof/Machine/Update.lean ====
section
/-!
DEFINITION. Firmware images and field update (R447 to R471): the flash, the boot journal, the checks of an image, the
update stages, the punty loader, confirmation, the sender's transmit engine and the folio flash writes, with the
meaning of each command. The boot itself stands in `Boot`.
-/

namespace Sys2Proof.Machine

/-! ### The flash (R454, R455) -/

/-- A byte of a part's flash. -/
def State.flashAt (p : Part) (a : Nat) (s : State) : Byte := SMap.get flashByte (s.chip p).flash a

/-- Bytes of a part's flash. -/
def State.flashBytes (p : Part) (a n : Nat) (s : State) : List Byte := Mem.readBytes flashByte (s.chip p).flash a n

/-- A little-endian number of `n` bytes of a part's flash (R447). -/
def State.flashLE (p : Part) (a : Nat) : Nat → State → Nat
  | 0, _ => 0
  | n + 1, s => (s.flashAt p a).toNat + 256 * State.flashLE p (a + 1) n s

/-- Bytes of a part's flash erased. -/
def State.flashErase (p : Part) (a n : Nat) (s : State) : State :=
  s.upd p fun c => { c with flash := c.flash.filter fun e => decide (e.1 < a ∨ a + n ≤ e.1) }

/-- Bytes of a part's flash written. -/
def State.flashPut (p : Part) (a : Nat) (b : List Byte) (s : State) : State :=
  s.upd p fun c => { c with flash := Mem.writeBytes flashByte c.flash a b }

/-- An operation that failed leaves `n` bytes of flash open. -/
def State.flashOpen (p : Part) (a n : Nat) (s : State) : State :=
  let d := s.draws
  { s with draws := d + 1 }.flashPut p a ((List.range n).map fun i => Config.flashLeft d (a + i))

/-- The active and the staging program slot and their size (R454, R455). -/
def activeSlot : Part → Nat
  | _ => 0x20000
/-- The staging program slot (R454, R455). -/
def stagingSlot : Part → Nat
  | .sender => 0x220000
  | .tile => 0x60000
/-- The size of a program slot (R454, R455). -/
def slotSize : Part → Nat
  | .sender => 0x200000
  | .tile => 0x40000
/-- A correction copy: false A, true B (R455). -/
def corCopy (b : Bool) : Nat := if b then 0x200000 else 0x100000
/-- The size of a correction copy (R455). -/
def corCopySize : Nat := 0x100000
/-- The blocks in which the punty loader copies (R463). -/
def puntyBlock : Nat := 0x10000

/-! ### The boot journal (R456) -/

/-- A boot record (R456). -/
structure BootRec where
  seq : Word
  /-- 0 IDLE, 1 ACTIVATING, 2 TRIAL, 3 RECOVERY -/
  state : Nat
  boots : Nat
  progress : Nat
  corSel : Bool
  floor : Word
  nblk : Nat
  stgH : List Byte
  deriving DecidableEq, Repr

/-- The CHK of the record in a sector (R456). -/
def State.recSound (p : Part) (a : Nat) (s : State) : Bool :=
  crc32c (s.flashBytes p a 60) == wd (s.flashLE p (a + 60) 4 )

/-- The record in a sector (R456). -/
def State.recAt (p : Part) (a : Nat) (s : State) : BootRec :=
  { seq := wd (s.flashLE p a 4), state := s.flashLE p (a + 4) 1, boots := s.flashLE p (a + 5) 1,
    progress := s.flashLE p (a + 6) 1, corSel := s.flashLE p (a + 7) 1 == 1, floor := wd (s.flashLE p (a + 8) 4),
    nblk := s.flashLE p (a + 12) 4, stgH := s.flashBytes p (a + 16) 32 }

/-- The sector of the current record, if a record is valid (R456). -/
def State.curSector (p : Part) (s : State) : Option Nat :=
  match s.recSound p 0, s.recSound p 0x1000 with
  | false, false => none
  | true, false => some 0
  | false, true => some 0x1000
  | true, true => if 0 < ((s.recAt p 0x1000).seq - (s.recAt p 0).seq).toInt then some 0x1000 else some 0

/-- The current record; with none the part acts as if it held STATE IDLE, FLOOR 0 and COR_SEL 0 (R456). -/
def State.bootRec (p : Part) (s : State) : BootRec :=
  match s.curSector p with
  | some a => s.recAt p a
  | none => { seq := 0, state := 0, boots := 0, progress := 0, corSel := false, floor := 0, nblk := 0,
              stgH := List.replicate 32 0 }

/-- The 64 bytes of a record (R456). -/
def BootRec.bytes (r : BootRec) : List Byte :=
  let b := bytesLE [r.seq, wd (r.state + r.boots * 2 ^ 8 + r.progress * 2 ^ 16 + r.corSel.toNat * 2 ^ 24), r.floor, wd r.nblk]
    ++ r.stgH ++ List.replicate 12 0
  b ++ bytesLE [crc32c b]

/-- A new record is written: SEQ + 1, in the sector that does not hold the current one, erased first (R456). -/
def State.putRec (p : Part) (r : BootRec) (s : State) : State :=
  let a := match s.curSector p with
    | some 0 => 0x1000
    | _ => 0
  let (q, s) := match s.curSector p with
    | some _ => ((s.bootRec p).seq + 1, s)
    | none => s.free 20
  (s.flashErase p a 0x1000).flashPut p a { r with seq := q }.bytes

/-! ### Images (R447 to R449, R462) -/

/-- The size of the header. -/
def hdrLen : Nat := 512

/-- Bytes of an image are all 0. -/
def State.imgZero (p : Part) (a n : Nat) (s : State) : Bool := (s.flashBytes p a n).all (· == 0)

/-- TOTLEN of the image at a flash address. -/
def State.imgTot (p : Part) (a : Nat) (s : State) : Nat := s.flashLE p (a + 0x1C) 4
/-- KIND of an image. -/
def State.imgKind (p : Part) (a : Nat) (s : State) : Nat := s.flashLE p (a + 9) 1
/-- VERSION of an image. -/
def State.imgVersion (p : Part) (a : Nat) (s : State) : Nat := s.flashLE p (a + 0xC) 4
/-- EPOCH of an image. -/
def State.imgEpoch (p : Part) (a : Nat) (s : State) : Nat := s.flashLE p (a + 0x14) 1
/-- OWNER_KEY of an image. -/
def State.imgOwner (p : Part) (a : Nat) (s : State) : List Byte := s.flashBytes p (a + 0x40) 64
/-- The image hash H (R449). -/
def State.imgHash (p : Part) (a : Nat) (s : State) : List Byte := sha256 (s.flashBytes p a (s.imgTot p a - 64))

/-- A section entry (R448). -/
structure Section where
  type : Nat
  cores : Nat
  dest : Nat
  off : Nat
  len : Nat
  deriving DecidableEq, Repr

/-- Section entry e of an image (R448). -/
def State.imgSection (p : Part) (a e : Nat) (s : State) : Section :=
  let w := a + 0xC0 + 16 * e
  let t := wd (s.flashLE p w 4)
  { type := fld t 7 0, cores := fld t 11 8, dest := s.flashLE p (w + 4) 4, off := s.flashLE p (w + 8) 4,
    len := s.flashLE p (w + 12) 4 }

/-- The sections in use. -/
def State.imgSections (p : Part) (a : Nat) (s : State) : List Section :=
  (List.range (s.flashLE p (a + 0x15) 1)).map fun e => s.imgSection p a e

/-- A section of a program as R448 requires it. -/
def sectionOk (p : Part) (tot : Nat) (x : Section) : Bool :=
  let size := if x.type = 1 then imemSize p else dmemSize p
  (x.type == 1 || x.type == 2) && x.dest % 4 == 0 && hdrLen ≤ x.off && x.off % 4 == 0 && x.len % 4 == 0 &&
    x.off + x.len + 64 ≤ tot && x.dest + x.len ≤ size

/-- The sections of an image are as R448 requires. -/
def State.sectionsOk (p : Part) (a : Nat) (s : State) : Bool :=
  let n := s.flashLE p (a + 0x15) 1
  let tot := s.imgTot p a
  1 ≤ n && n ≤ 16 && s.imgZero p (a + 0xC0 + 16 * n) (16 * (16 - n)) &&
    (if s.imgKind p a = 0 then (s.imgSections p a).all (sectionOk p tot)
     else
       let x := s.imgSection p a 0
       n == 1 && x.type == 3 && x.dest == 0 && x.off == hdrLen && x.len == 4 * bankWords && x.off + x.len + 64 ≤ tot)

/-- `UPD_OWNER` (R450). -/
def State.ownerHash (p : Part) (s : State) : List Byte := bytesBE ((List.range 8).map fun j => s.rd p (Reg.UPD_OWNER j))

/-- `UPD_OWNER` is not fused (R450). -/
def State.ownerBlank (p : Part) (s : State) : Bool := (s.ownerHash p).all (· == 0)

/-- The checks of R462 on the image at a flash address, for a program or a correction target: the ERR of the first
that fails. `len` says which TOTLEN is right. -/
def State.imgErr (p : Part) (a : Nat) (cor : Bool) (len : Nat → Bool) (s : State) : Option Nat :=
  if !(s.flashBytes p a 8 == asciiBytes "SKDG-IMG" && s.flashLE p (a + 0xA) 2 == hdrLen && s.flashAt p (a + 8) == partCode p)
  then some 0x01
  else if s.imgKind p a ≠ cor.toNat then some 0x02
  else if !(len (s.imgTot p a) && s.imgZero p (a + 0x1A) 2 && s.imgZero p (a + 0x28) 24 && s.imgZero p (a + 0x1C0) 64)
  then some 0x03
  else if !s.sectionsOk p a then some 0x04
  else if s.flashLE p (a + 0x18) 2 < s.flashLE p (a + 0x16) 2 then some 0x05
  else if !ecdsaOk rootKey (natBE (sha256 (asciiBytes "SKDG-OWN" ++ s.imgOwner p a))) (s.flashBytes p (a + 0x80) 64)
  then some 0x06
  else if !(s.ownerBlank p || s.ownerHash p == sha256 (s.imgOwner p a)) then some 0x07
  else if !ecdsaOk (s.imgOwner p a) (natBE (s.imgHash p a)) (s.flashBytes p (a + s.imgTot p a - 64) 64) then some 0x08
  else if !(s.imgEpoch p a ≤ 64 && s.fldOf p Reg.UPD_EPOCH 6 0 ≤ s.imgEpoch p a) then some 0x09
  else if s.imgKind p a = 0 && s.imgVersion p a < (s.bootRec p).floor.toNat then some 0x0A
  else none

/-! ### Stages (R458) -/

/-- What the UPD block holds, changed. -/
def State.updUpd (p : Part) (f : Upd → Upd) (s : State) : State := s.upd p fun c => { c with upd := f c.upd }

/-- `UPD_STAT.STAGE`: 0 IDLE, 1 DOWNLOAD, 2 VERIFIED, 3 ACTIVATE, 4 TRIAL, 5 RECOVERY. -/
def State.stage (p : Part) (s : State) : Nat := s.fldOf p Reg.UPD_STAT 31 29

/-- The stage set; a change gives UPD_STAGE (R458). A stage other than DOWNLOAD has no open session. -/
def State.setStage (p : Part) (v : Nat) (s : State) : State × List (Nat × Word) :=
  let was := s.stage p
  let s := s.wrFld p Reg.UPD_STAT 31 29 v
  let s := if v = 1 then s else s.updUpd p fun u => { u with session := none, waiting := [] }
  (s, if was = v then [] else [(Ev.UPD_STAGE p, 0)])

/-- `UPD_STAT.BUSY`. -/
def State.updBusy (p : Part) (s : State) : Bool := s.bitOf p Reg.UPD_STAT 28

/-- A job starts, and with it BUSY. -/
def State.updStart (p : Part) (j : UpdJob) (a : Option (Letter × Word)) (s : State) : State :=
  (s.wrBit p Reg.UPD_STAT 28 true).updUpd p fun u => { u with job := j, answer := a }

/-- The job ends, and with it BUSY. -/
def State.updEnd (p : Part) (s : State) : State :=
  (s.wrBit p Reg.UPD_STAT 28 false).updUpd p fun u => { u with job := .none, answer := none }

/-- ERR of `UPD_STAT`. -/
def State.setErr (p : Part) (e : Nat) (s : State) : State := s.wrFld p Reg.UPD_STAT 23 16 e

/-- The tile's ACK to a sender, with a STATUS and `UPD_STAT` (R460). -/
def State.updAck (l : Letter) (session : Word) (status : Nat) (s : State) : State :=
  s.ownPush (portToward l) (mkPacket tUPD destSender 0 (s.srcOf .tile) (wd (2 ^ 28 + session.toNat * 2 ^ 8))
    [s.rd .tile Reg.UPD_DL_NEXT, wd (status * 2 ^ 16 + 1), s.rd .tile Reg.UPD_STAT])

/-- A CONTROL packet's answer, if one is asked for. -/
def State.updAckTo (a : Option (Letter × Word)) (status : Nat) (s : State) : State :=
  match a with
  | none => s
  | some (l, x) => s.updAck l x status

/-- Who waits for the answer of an update command: the sender and the SESSION of its packet. -/
def updFrom : UpdSrc → Option (Letter × Word)
  | .core _ => none
  | .packet port pkt => some (letterOfPort port.idx, wd (Pkt.tag pkt))

/-- An update command is refused (R458): STATUS STATE for a packet, ERR 0x10 for a core. -/
def State.updRefuse (src : UpdSrc) (s : State) : State :=
  match src with
  | .core p => s.setErr p 0x10
  | .packet _ _ => s.updAckTo (updFrom src) 3

/-- The tile takes UPD packets from the senders that R54 allows for CMD WRITE (R460). -/
def State.fromHolder (l : Letter) (s : State) : Bool :=
  match s.holder with
  | none => true
  | some h => h == l

/-- An update command (R458, R460): STATUS BUSY while BUSY is set, refused in a stage that does not allow it. A
packet must be the CONTROL of the command's OP. -/
def State.updGate (src : UpdSrc) (op : Nat) (ok : Nat → Bool) (f : State → State) (s : State) : State :=
  match src with
  | .core p => s.when' p fun s => if s.updBusy p || !ok (s.stage p) then s.setErr p 0x10 else f s
  | .packet port pkt =>
    match port.part with
    | .sender => s
    | .tile =>
      s.arriveTile port.idx pkt (Pkt.is pkt tUPD 2 && fld (Pkt.w pkt 3) 31 16 == op) fun s =>
        if !s.fromHolder (letterOfPort port.idx) then s
        else if s.updBusy .tile then s.updAckTo (updFrom src) 1
        else if !ok (s.stage .tile) then s.updRefuse src
        else f s

/-! ### Download (R459, R460) -/

/-- The target of the download: the staging slot, or the correction copy that is not active (R458). -/
def State.updTarget (p : Part) (s : State) : Nat × Nat :=
  if s.bitOf p Reg.UPD_STAT 27 then (corCopy !(s.bootRec p).corSel, corCopySize) else (stagingSlot p, slotSize p)

/-- LEN of an OPEN (R459, R460). -/
def State.openLen (src : UpdSrc) (s : State) : Nat :=
  match src with
  | .core p => (s.rd p Reg.UPD_DL_LEN).toNat
  | .packet _ pkt => (Pkt.w pkt 5).toNat

/-- OPEN in a stage that allows it (R459). -/
def State.updOpen (src : UpdSrc) (target : Bool) (s : State) : State :=
  let p := src.part
  let cor := target && p == .tile
  let len := s.openLen src
  let size := if cor then corCopySize else slotSize p
  if len % 4 ≠ 0 || len < 640 || size < len then
    let s := s.setErr p 0x11
    match src with
    | .core _ => s
    | .packet _ _ => s.updAckTo (updFrom src) 3
  else
    let session := (updFrom src).map fun a => a.2
    let (s, ev) := s.setStage p 1
    let s := s.updUpd p fun u => { u with len := len, session := session, waiting := [] }
    let s := (s.wrBit p Reg.UPD_STAT 27 cor).wr p Reg.UPD_DL_NEXT 0
    let s := match session with
      | none => s
      | some x => s.wr .tile Reg.UPD_SESSION x
    (s.updStart p .erase (updFrom src)).raiseAll p ev

/-- A flash error ends the download in IDLE (R460). -/
def State.flashFail (p : Part) (s : State) : State :=
  let (s, ev) := (s.updEnd p).setStage p 0
  s.raiseAll p (ev ++ [(Ev.UPD_FLASH_ERR p, 0)])

/-- The erase of OPEN ends: whole 64 KiB blocks that cover LEN bytes (R459). -/
def State.eraseDone (p : Part) (ok : Bool) (s : State) : State :=
  let a := (s.chip p).upd.answer
  let n := ((s.chip p).upd.len + puntyBlock - 1) / puntyBlock * puntyBlock
  let t := (s.updTarget p).1
  if ok then ((s.flashErase p t n).updEnd p).updAckTo a 0
  else ((s.flashOpen p t n).flashFail p).updAckTo a 5

/-- Bytes of the download reach the flash, within the TARGET range. -/
def State.putTarget (p : Part) (off : Nat) (b : List Byte) (s : State) : State :=
  let (t, n) := s.updTarget p
  s.flashPut p (t + off) (b.take (n - off))

/-- LOAD of the sender (R459). -/
def State.updLoad (s : State) : State :=
  s.updStart .sender (.load (s.rd .sender Reg.UPD_DL_NEXT).toNat (16 * (s.rd .sender Reg.UPD_DL_SRC).toNat)
    (s.rd .sender Reg.UPD_DL_LEN).toNat) none

/-- The copy of LOAD ends; it reads frame memory through port XFER (R180, R459). -/
def State.loadDone (ok : Bool) (s : State) : State :=
  match s.sender.upd.job with
  | .load off src len =>
    let s := s.portUse 10 (unitSpan src len)
    if ok then ((s.putTarget .sender off (s.fmBytes src len)).wr .sender Reg.UPD_DL_NEXT (wd (off + len))).updEnd .sender
    else s.flashFail .sender
  | _ => s

/-- A DATA packet, by the rows of R460. -/
def State.updData (i : Nat) (k : Packet) (s : State) : State :=
  let l := letterOfPort i
  let x := wd (Pkt.tag k)
  let u := s.tile.upd
  if !s.fromHolder l then s
  else if s.stage .tile ≠ 1 || u.session ≠ some x then s.updAck l x 3
  else if Pkt.w k 2 ≠ s.rd .tile Reg.UPD_DL_NEXT then s.updAck l x 2
  else if 4 ≤ u.waiting.length then s.updAck l x 1
  else
    let ws := (Pkt.body k).drop 2
    let s := s.updUpd .tile fun u => { u with waiting := u.waiting ++ [⟨(Pkt.w k 2).toNat, ws, l, x⟩] }
    (s.wr .tile Reg.UPD_DL_NEXT (Pkt.w k 2 + wd (4 * ws.length))).updAck l x 0

/-- The oldest DATA packet that waits is programmed (R460). -/
def State.dataProgrammed (ok : Bool) (s : State) : State :=
  match s.tile.upd.waiting with
  | [] => s
  | d :: rest =>
    if s.tile.upd.job ≠ .none then s
    else
      let s := s.updUpd .tile fun u => { u with waiting := rest }
      if ok then s.putTarget .tile d.off (bytesLE d.words)
      else
        let (t, n) := s.updTarget .tile
        let s := s.flashOpen .tile (t + d.off) (min (4 * d.words.length) (n - d.off))
        (s.flashFail .tile).updAck d.sender d.session 5

/-- A flash address lies in a program slot that is being erased or programmed: the active slot under the punty loader, the
staging slot under a download (R463). -/
def State.slotBusy (p : Part) (a : Nat) (s : State) : Bool :=
  let lies := fun (lo : Nat) => decide (lo ≤ a ∧ a < lo + slotSize p)
  let u := (s.chip p).upd
  let down := !u.waiting.isEmpty || (match u.job with
    | .erase => true
    | .load _ _ _ => true
    | _ => false)
  (s.stage p == 3 && lies (activeSlot p)) || (down && !s.bitOf p Reg.UPD_STAT 27 && lies (stagingSlot p))

/-! ### Verify and activation (R462, R463, R466) -/

/-- The checks of VERIFY end (R462). -/
def State.verifyDone (p : Part) (s : State) : State :=
  let u := (s.chip p).upd
  let (t, _) := s.updTarget p
  match s.imgErr p t (s.bitOf p Reg.UPD_STAT 27) (· == u.len) with
  | some e =>
    let (s, ev) := ((s.updEnd p).setErr p e).setStage p 0
    (s.raiseAll p (ev ++ [(Ev.UPD_VERIFY_FAIL p, 0)])).updAckTo u.answer 4
  | none =>
    let (s, ev) := ((s.updEnd p).wr p Reg.UPD_STG_VER (wd (s.imgVersion p t))).setStage p 2
    (s.raiseAll p ev).updAckTo u.answer 0

/-- The flash address of the active correction copy's bank data (R455). -/
def State.corBase (s : State) : Word := wd (corCopy (s.bootRec .tile).corSel + hdrLen)

/-- ACTIVATE of a VERIFIED image: a program goes to the punty loader (R463), a correction copy is switched
(R466). -/
def State.activate (src : UpdSrc) (s : State) : State :=
  let p := src.part
  let r := s.bootRec p
  if s.bitOf p Reg.UPD_STAT 27 then
    let s := s.putRec p { r with corSel := !r.corSel }
    let (s, ev) := (s.wr .tile Reg.UPD_COR_BASE s.corBase).setStage p 0
    (s.raiseAll p (ev ++ [(Ev.UPD_COR_SWITCH, 0)])).updAckTo (updFrom src) 0
  else
    let t := stagingSlot p
    let n := (s.imgTot p t + puntyBlock - 1) / puntyBlock
    let s := s.putRec p { r with state := 1, boots := 0, progress := 0, nblk := n, stgH := s.imgHash p t }
    let (s, ev) := s.setStage p 3
    (s.updUpd p fun u => { u with again := false, answer := (updFrom src) }).raiseAll p ev

/-- The next block is copied and journalled (R463). -/
def State.puntyCopy (p : Part) (s : State) : State :=
  let r := s.bootRec p
  let b := puntyBlock * r.progress
  let data := s.flashBytes p (stagingSlot p + b) puntyBlock
  let s := (s.flashErase p (activeSlot p + b) puntyBlock).flashPut p (activeSlot p + b) data
  s.putRec p { r with progress := r.progress + 1 }

/-- The part has no core that runs, and is reloading them (R457, R478). A tile in its safe state keeps its core
halted until the next full boot (R463). A restart while a boot is under way starts that boot again, and a full boot
stays one. -/
def State.coreRestart (p : Part) (src : Nat) (seen : Nat) (s : State) : State :=
  if ((s.chip p).phase ≠ .up && (s.chip p).phase ≠ .booting) || (p == .tile && s.safe .tile) then s
  else
    let s := s.wr p Reg.SYS_RST_CAUSE (wd (5 * 2 ^ 28 + src * 2 ^ 8 + seen))
    let n := s.fldOf p Reg.SYS_RST_COUNT 31 16
    let s := s.wrFld p Reg.SYS_RST_COUNT 31 16 (min 0xFFFF (n + 1))
    let s := s.updUpd p fun u => { u with confLeft := none }
    s.upd p fun c => { c with phase := .booting, fullBoot := c.phase = .booting && c.fullBoot, cores := c.cores.map fun k => { k with held := true } }

/-- The hash of the active slot is compared with STG_H (R463): TRIAL and a core restart, the copy again once, or ROM
recovery. -/
def State.puntyCheck (p : Part) (s : State) : State :=
  let r := s.bootRec p
  if s.imgHash p (activeSlot p) = r.stgH then
    let s := s.putRec p { r with state := 2, boots := 0 }
    let a := (s.chip p).upd.answer
    let s := s.updUpd p fun u => { u with answer := none }
    if p == .tile && s.safe .tile then evRaise p ((s.updAckTo a 0).setStage p 4) else (s.coreRestart p 2 16).updAckTo a 0
  else if (s.chip p).upd.again then (s.putRec p { r with state := 3 }).coreRestart p 2 16
  else (s.putRec p { r with progress := 0 }).updUpd p fun u => { u with again := true }

/-! ### Confirmation (R464) -/

/-- EPOCH and VERSION of the program in TRIAL (R463, R464): the program that runs, or, while a safe state holds back the
core restart, the one in the active slot. -/
def State.trialProgram (p : Part) (s : State) : Nat × Word :=
  if (s.chip p).upd.running = .trial then ((s.chip p).upd.epoch, s.rd p Reg.UPD_ACT_VER)
  else (s.imgEpoch p (activeSlot p), wd (s.imgVersion p (activeSlot p)))

/-- CONFIRM (R464): epoch fuses up to the program's EPOCH, the record, UPD_CONFIRMED. -/
def State.updConfirm (src : UpdSrc) (s : State) : State :=
  let p := src.part
  let (e, v) := s.trialProgram p
  let s := if s.fldOf p Reg.UPD_EPOCH 6 0 < e then s.wr p Reg.UPD_EPOCH (wd e) else s
  let s := s.putRec p { s.bootRec p with state := 0, boots := 0, floor := v }
  let s := (s.wr p Reg.UPD_FLOOR v).wrFld p Reg.UPD_STAT 3 0 0
  let s := s.updUpd p fun u => { u with running := .confirmed, confLeft := none }
  let (s, ev) := s.setStage p 0
  (s.raiseAll p (ev ++ [(Ev.UPD_CONFIRMED p, 0)])).updAckTo (updFrom src) 0

/-- ABORT (R458). -/
def State.updAbort (src : UpdSrc) (s : State) : State := (evRaise src.part (s.setStage src.part 0)).updAckTo (updFrom src) 0

/-- The confirmation timer in `UPD_CONF_LEFT`, in seconds; the TIMEC cycle is 2 ns (R470). -/
def State.confSeconds (p : Part) (s : State) : Word :=
  match (s.chip p).upd.confLeft with
  | none => 0
  | some n => wdi (openDiv 6 n 500000000)

/-- A write of `UPD_CONF_TO` outside 1 to 3,600 is discarded (R470). -/
def State.confToWrite (p : Part) (v : Word) (s : State) : State :=
  let n := fld v 11 0
  if 1 ≤ n && n ≤ 3600 then s.wr p Reg.UPD_CONF_TO (wd n) else s

/-- A write of `UPD_OWNER_CMD` (R450). -/
def State.ownerFuse (p : Part) (v : Word) (s : State) : State :=
  let u := (s.chip p).upd
  if v = 0x5A5A && s.ownerBlank p && u.running = .confirmed then s.idnPut p (Reg.UPD_OWNER 0) (sha256w u.ownerKey) else s

/-- A write of `UPD_SET_CMD` (R468). -/
def State.setCmdWrite (p : Part) (v : Word) (s : State) : State :=
  if bit v 0 then s.wrBit p Reg.UPD_SET_STAT 30 false else s

/-! ### Folio flash writes (R469) -/

/-- Folio writes may reach these bytes (R469). -/
def fwAllowed (p : Part) (a n : Nat) : Bool :=
  let in' := fun lo hi : Nat => decide (lo ≤ a ∧ a + n ≤ hi)
  match p with
  | .sender => in' 0x10000 0x20000 || in' 0x420000 0x4000000
  | .tile => in' 0x10000 0x20000 || in' 0xA0000 0xC0000 || in' 0x300000 0x1000000

/-- A write of R469 starts, or is denied; ignored while BUSY is 1. -/
def State.fwStart (p : Part) (ok : Bool) (j : FwJob) (s : State) : State :=
  if s.bitOf p Reg.UPD_FW_STAT 31 then s
  else if ok then (s.wr p Reg.UPD_FW_STAT 0x80000000).updUpd p fun u => { u with fw := some j }
  else s.wr p Reg.UPD_FW_STAT 0x40000000

/-- ERASE of the 4 KiB sector at ADDR (R469). -/
def State.fwErase (p : Part) (s : State) : State :=
  let a := (s.rd p Reg.UPD_FW_ADDR).toNat / 4096 * 4096
  s.fwStart p (fwAllowed p a 4096) (.erase a)

/-- PROGRAM of NW words from ADDR (R469). -/
def State.fwProgram (p : Part) (nw : Nat) (s : State) : State :=
  let a := (s.rd p Reg.UPD_FW_ADDR).toNat / 4 * 4
  s.fwStart p (fwAllowed p a (4 * nw)) (.program a ((List.range nw).map fun j => s.rd p (Reg.UPD_FW_DATA j)))

/-- A write of `UPD_FW_CMD` (R470). -/
def State.fwCmdWrite (p : Part) (v : Word) (s : State) : State :=
  match fld v 31 28 with
  | 1 => s.fwErase p
  | 2 => s.fwProgram p (fld v 6 0)
  | _ => s

/-- What a write of R469 leaves in the flash. NW from 1 to 64 within a 256-byte page are written; of any other
PROGRAM the manual promises nothing (R4), and its pages are left open. -/
def State.fwApply (p : Part) (ok : Bool) (j : FwJob) (s : State) : State :=
  match j with
  | .erase a => if ok then s.flashErase p a 4096 else s.flashOpen p a 4096
  | .program a ws =>
    let fits := 1 ≤ ws.length && ws.length ≤ 64 && a / 256 == (a + 4 * ws.length - 1) / 256
    if ok && fits then s.flashPut p a (bytesLE ws)
    else s.flashOpen p (a / 256 * 256) ((a + 4 * ws.length + 255) / 256 * 256 - a / 256 * 256)

/-- The ERASE or PROGRAM ends (R469). -/
def State.fwDone (p : Part) (ok : Bool) (s : State) : State :=
  match (s.chip p).upd.fw with
  | none => s
  | some j =>
    let s := (s.fwApply p ok j).updUpd p fun u => { u with fw := none }
    let s := s.wr p Reg.UPD_FW_STAT (if ok then 0 else 0x20000000)
    s.raiseAll p ((if ok then [] else [(Ev.UPD_FLASH_ERR p, 0)]) ++ [(Ev.UPD_FW_DONE p, 0)])

/-! ### The sender's transmit engine (R461) -/

/-- The addressed positions of chain k: DEST, or 0 to L − 1 for 0x7F (R461). -/
def State.txPositions (dest k : Nat) (s : State) : List Nat :=
  if dest = destAll then List.range (s.chainLen k) else if dest < 64 then [dest] else []

/-- The addressed positions of a run that are not FAILED, with their next (R461). -/
def State.txOpen (r : UpdTx) (s : State) : List Nat :=
  (List.range 16).flatMap fun k =>
    if r.chains.testBit k then
      ((s.txPositions r.dest k).filter fun p => !s.bitOf .sender (Reg.UPD_TX_ACK k p) 31).map fun p =>
        s.fldOf .sender (Reg.UPD_TX_ACK k p) 23 0
    else []

/-- The lowest next over the addressed positions (R461). -/
def State.txLow (r : UpdTx) (s : State) : Nat := (s.txOpen r).foldl min (2 ^ 24)

/-- The run ends when every addressed position is at LEN or FAILED (R461). -/
def State.txCheck (s : State) : State :=
  match s.snd.updTx with
  | none => s
  | some r =>
    if (s.txOpen r).all (fun n => r.len ≤ n) then
      let s := s.updSnd fun t => { t with updTx := none }
      (s.wr .sender Reg.UPD_TX_STAT (putFld (s.rd .sender Reg.UPD_TX_STAT) 31 30 1)).raise .sender Ev.UPD_TX_DONE
    else s

/-- The chains that `UPD_TX_CHN` names (R461). -/
def State.txChains (s : State) : Nat := s.fldOf .sender Reg.UPD_TX_CHN 15 0 &&& s.chainMask

/-- OP DATA (R461): a run starts; ignored while BUSY is 1. -/
def State.txStart (s : State) : State :=
  if s.bitOf .sender Reg.UPD_TX_STAT 31 then s
  else
    let d := s.rd .sender Reg.UPD_TX_DEST
    let r : UpdTx :=
      { off := 0, src := 16 * (s.rd .sender Reg.UPD_TX_SRC).toNat, len := (s.rd .sender Reg.UPD_TX_LEN).toNat,
        dest := fld d 6 0, session := wd (fld d 31 16), chains := s.txChains,
        since := s.elapsed .sender, moved := [] }
    let s := (List.range 16).foldl (fun s k =>
      if r.chains.testBit k then
        (s.txPositions r.dest k).foldl (fun s p => s.wrBit .sender (Reg.UPD_TX_ACK k p) 31 false) s
      else s) s
    let s := (s.wr .sender Reg.UPD_TX_STAT 0x80000000).updSnd fun t => { t with updTx := some r }
    s.txCheck

/-- A packet to the addresses of the engine (R461). -/
def State.txEach (chains : Nat) (pkt : Packet) (s : State) : State :=
  (List.range 16).foldl (fun s k => if chains.testBit k then s.sendOpen k pkt else s) s

/-- The engine sends its next DATA packet, while its offset lies within the window (R461). -/
def State.txNext (s : State) : State :=
  match s.snd.updTx with
  | none => s
  | some r =>
    if r.off < r.len && r.off < s.txLow r + 1024 && !s.safe .sender then
      let n := min 64 ((r.len - r.off + 3) / 4)
      let ws := (List.range n).map fun i => s.fmWord (r.src + r.off + 4 * i)
      let s := s.txEach r.chains (mkPacket tUPD r.dest 0 0x7E (wd (r.session.toNat * 2 ^ 8)) (wd r.off :: wd n :: ws))
      s.updSnd fun t => { t with updTx := some { r with off := r.off + 4 * n } }
    else s

/-- OP CONTROL (R461): one CONTROL packet with OP and `UPD_TX_ARG`. -/
def State.txControl (op : Nat) (s : State) : State :=
  if s.bitOf .sender Reg.UPD_TX_STAT 31 then s
  else
    let d := s.rd .sender Reg.UPD_TX_DEST
    let pkt := mkPacket tUPD (fld d 6 0) 0 0x7E (wd (2 * 2 ^ 28 + fld d 31 16 * 2 ^ 8))
      [0, wd (op * 2 ^ 16 + 2), s.rd .sender (Reg.UPD_TX_ARG 0), s.rd .sender (Reg.UPD_TX_ARG 1)]
    (s.txEach s.txChains pkt).raise .sender Ev.UPD_TX_DONE

/-- A write of `UPD_TX_CMD` (R470). -/
def State.txCmdWrite (v : Word) (s : State) : State :=
  match fld v 31 28 with
  | 1 => s.txStart
  | 2 => s.txControl (fld v 27 24)
  | _ => s

/-- An ACK is recorded; on STATUS OFFSET a run goes back to the lowest next (R461). -/
def State.txAck (k : Nat) (pkt : Packet) (s : State) : State :=
  let p := Pkt.src pkt
  if 64 ≤ p then s
  else
    let status := fld (Pkt.w pkt 3) 31 16
    let a := Reg.UPD_TX_ACK k p
    let was := s.fldOf .sender a 23 0
    let s := s.wr .sender a (putFld (putFld (s.rd .sender a) 30 28 status) 23 0 (fld (Pkt.w pkt 2) 23 0))
    match s.snd.updTx with
    | none => s
    | some r =>
      if r.chains.testBit k && (s.txPositions r.dest k).contains p then
        let r := if was < s.fldOf .sender a 23 0 then { r with moved := AMap.put r.moved (64 * k + p) (s.elapsed .sender) } else r
        let s := s.updSnd fun t => { t with updTx := some r }
        let s := if status = 2 then
            let s := s.updSnd fun t => { t with updTx := some { r with off := s.txLow r } }
            s.wrFld .sender Reg.UPD_TX_STAT 15 0 (s.fldOf .sender Reg.UPD_TX_STAT 15 0 + 1)
          else s
        s.txCheck
      else s

/-- A position without progress for `UPD_TX_TO` ms is marked FAILED (R461). -/
def State.txTimeout (k p : Nat) (s : State) : State :=
  match s.snd.updTx with
  | none => s
  | some r =>
    if r.chains.testBit k && (s.txPositions r.dest k).contains p && s.fldOf .sender (Reg.UPD_TX_ACK k p) 23 0 < r.len
        && s.timedOut .sender ((AMap.find r.moved (64 * k + p)).getD r.since) (s.fldOf .sender Reg.UPD_TX_TO 15 0 * 1000000) then
      (s.wrBit .sender (Reg.UPD_TX_ACK k p) 31 true).txCheck
    else s

/-- A write of `UPD_CMD` by a core (R470). -/
def State.updCmdWrite (p : Part) (v : Word) (s : State) : State :=
  let src := UpdSrc.core p
  match fld v 31 28 with
  | 1 => s.updGate src 1 (fun g => g ≤ 2 || g = 5) (State.updOpen src (bit v 0))
  | 2 => s.updGate src 2 (· == 1) (State.updStart p .verify (updFrom src))
  | 3 => s.updGate src 3 (· == 2) (State.activate src)
  | 4 => s.updGate src 4 (· == 4) (State.updConfirm src)
  | 5 => s.updGate src 5 (fun g => g = 1 || g = 2) (State.updAbort src)
  | 7 => match p with
    | .sender => s.updGate src 7 (· == 1) State.updLoad
    | .tile => s
  | _ => s

/-! ### The meanings -/

/-- UPD_OPEN (R459). -/
def execUpdOpen (src : UpdSrc) (target : Bool) (s : State) : Host.Outcome State Fault Refusal :=
  .next (
    let t := match src with
      | .core _ => target
      | .packet _ pkt => bit (Pkt.w pkt 4) 0
    s.updGate src 1 (fun g => g ≤ 2 || g = 5) (State.updOpen src t))

/-- UPD_ERASE_DONE (R459, R460). -/
def execUpdEraseDone (p : Part) (ok : Bool) (s : State) : Host.Outcome State Fault Refusal :=
  .next (s.when' p fun s => if (s.chip p).upd.job = .erase then s.eraseDone p ok else s)

/-- UPD_LOAD (R459). -/
def execUpdLoad (s : State) : Host.Outcome State Fault Refusal :=
  .next (s.updGate (.core .sender) 7 (· == 1) State.updLoad)

/-- UPD_LOAD_DONE (R459). -/
def execUpdLoadDone (ok : Bool) (s : State) : Host.Outcome State Fault Refusal :=
  .next (s.when' .sender (State.loadDone ok))

/-- UPD_DATA (R460). -/
def execUpdData (port : LnkPort) (pkt : Packet) (s : State) : Host.Outcome State Fault Refusal :=
  .next (match port.part with
    | .sender => s.arriveSender port.idx pkt (Pkt.is pkt tUPD 0) id
    | .tile => s.arriveTile port.idx pkt (Pkt.is pkt tUPD 0) (State.updData port.idx pkt))

/-- UPD_DATA_PROGRAMMED (R460). -/
def execUpdDataProgrammed (ok : Bool) (s : State) : Host.Outcome State Fault Refusal :=
  .next (s.when' .tile (State.dataProgrammed ok))

/-- UPD_QUERY (R460): answered at once, in every stage and while BUSY is set. -/
def execUpdQuery (port : LnkPort) (pkt : Packet) (s : State) : Host.Outcome State Fault Refusal :=
  .next (match port.part with
    | .sender => s
    | .tile =>
      s.arriveTile port.idx pkt (Pkt.is pkt tUPD 2 && fld (Pkt.w pkt 3) 31 16 == 6) fun s =>
        if s.fromHolder (letterOfPort port.idx) then s.updAck (letterOfPort port.idx) (wd (Pkt.tag pkt)) 0 else s)

/-- UPD_VERIFY (R462). -/
def execUpdVerify (src : UpdSrc) (s : State) : Host.Outcome State Fault Refusal :=
  .next (s.updGate src 2 (· == 1) (State.updStart src.part .verify (updFrom src)))

/-- UPD_VERIFY_DONE (R462): the checks run once every packet taken has been programmed. -/
def execUpdVerifyDone (p : Part) (s : State) : Host.Outcome State Fault Refusal :=
  .next (s.when' p fun s =>
    if (s.chip p).upd.job = .verify then
      let s := s.updUpd p fun u => { u with job := .none }
      let s := (s.chip p).upd.waiting.foldl (fun s _ => s.dataProgrammed true) s
      s.verifyDone p
    else s)

/-- UPD_ACTIVATE (R463, R466). -/
def execUpdActivate (src : UpdSrc) (s : State) : Host.Outcome State Fault Refusal :=
  .next (s.updGate src 3 (· == 2) (State.activate src))

/-- PUNTY_BLOCK_COPIED (R463). -/
def execPuntyBlockCopied (p : Part) (s : State) : Host.Outcome State Fault Refusal :=
  .next (s.when' p fun s =>
    let r := s.bootRec p
    if s.stage p = 3 && r.state = 1 && r.progress < r.nblk then s.puntyCopy p else s)

/-- PUNTY_COPY_DONE (R463). -/
def execPuntyCopyDone (p : Part) (s : State) : Host.Outcome State Fault Refusal :=
  .next (s.when' p fun s =>
    let r := s.bootRec p
    if s.stage p = 3 && r.state = 1 && r.nblk ≤ r.progress then s.puntyCheck p else s)

/-- UPD_CONFIRM (R464). -/
def execUpdConfirm (src : UpdSrc) (s : State) : Host.Outcome State Fault Refusal :=
  .next (s.updGate src 4 (· == 4) (State.updConfirm src))

/-- UPD_ABORT (R458). -/
def execUpdAbort (src : UpdSrc) (s : State) : Host.Outcome State Fault Refusal :=
  .next (s.updGate src 5 (fun g => g = 1 || g = 2) (State.updAbort src))

/-- CONFIRM_TIMEOUT (R464): a core restart, once the timer has counted down; the timer does not run in the safe state. -/
def execConfirmTimeout (p : Part) (s : State) : Host.Outcome State Fault Refusal :=
  .next (s.when' p fun s =>
    if s.stage p = 4 && (s.chip p).upd.confLeft = some 0 && !s.safe p then s.coreRestart p 3 16 else s)

/-- UPD_ACK (R461). -/
def execUpdAck (k : Fin 16) (pkt : Packet) (s : State) : Host.Outcome State Fault Refusal :=
  .next (s.arriveSender k.val pkt (Pkt.is pkt tUPD 1) (State.txAck k.val pkt))

/-- UPD_TX_DATA (R461). -/
def execUpdTxData (start : Bool) (s : State) : Host.Outcome State Fault Refusal :=
  .next (s.when' .sender fun s => if start then s.txStart else s.txNext)

/-- UPD_TX_CONTROL (R461). -/
def execUpdTxControl (op : BitVec 4) (s : State) : Host.Outcome State Fault Refusal :=
  .next (s.when' .sender (State.txControl op.toNat))

/-- UPD_TX_TIMEOUT (R461). -/
def execUpdTxTimeout (k : Fin 16) (pos : Fin 64) (s : State) : Host.Outcome State Fault Refusal :=
  .next (s.when' .sender (State.txTimeout k.val pos.val))

/-- UPD_OWNER_FUSE (R450). -/
def execUpdOwnerFuse (p : Part) (v : Word) (s : State) : Host.Outcome State Fault Refusal :=
  .next (s.when' p (State.ownerFuse p v))

/-- UPD_SET_ACCEPT (R468). -/
def execUpdSetAccept (p : Part) (s : State) : Host.Outcome State Fault Refusal := .next (s.when' p (State.setCmdWrite p 1))

/-- UPD_FW_ERASE (R469). -/
def execUpdFwErase (p : Part) (s : State) : Host.Outcome State Fault Refusal := .next (s.when' p (State.fwErase p))

/-- UPD_FW_PROGRAM (R469). -/
def execUpdFwProgram (p : Part) (nw : BitVec 7) (s : State) : Host.Outcome State Fault Refusal :=
  .next (s.when' p (State.fwProgram p nw.toNat))

/-- UPD_FW_DONE (R469). -/
def execUpdFwDone (p : Part) (ok : Bool) (s : State) : Host.Outcome State Fault Refusal :=
  .next (s.when' p (State.fwDone p ok))

end Sys2Proof.Machine
end

