-- ==== Sys2Proof/Machine/Power.lean ====
section
/-!
DEFINITION. Power, reset and the TAP (R472 to R488, R509): the kinds of reset and what each keeps, the release of
internal reset, the sender's low-power state and its wake patterns (R123), rails, the Porval domain's supply, with the
meaning of each command. A received Ethernet frame stands here, since it wakes a sender in its low-power state.
-/

namespace Sys2Proof.Machine

/-! ### Resets (R478, R479) -/

/-- The code of a kind of reset (R478). -/
def resetCode : ResetKind → Nat
  | .por => 1 | .pin => 2 | .brownout => 3 | .soft => 4 | .core => 5 | .wake => 6

/-- The order in which the kind of a cycle is taken (R479). -/
def resetOrder : List ResetKind := [.por, .brownout, .pin, .wake, .soft, .core]

/-- SEEN: every cause of the cycle (R487). -/
def resetSeen (l : List ResetKind) : Nat :=
  resetOrder.foldl (fun n k => if l.contains k then n + 2 ^ (resetCode k - 1) else n) 0

/-- What a full reset leaves of the accession record (R426, R478): a sender's power-on reset clears it; every other
full reset keeps it and counts in RESETS. -/
def accAfter (p : Part) (k : ResetKind) (a : Accession) : Accession :=
  if p = .sender && k = .por then Accession.empty
  else if a.valid then { a with resets := min 255 (a.resets + 1) } else a

/-- Registers that OTP holds, and live ones, as they stand after a full reset (R478, R450, R452, R487). -/
def State.keepReg (p : Part) (old : State) (a : Nat) (s : State) : State := s.wr p a (old.rd p a)

/-- What only one part holds, after its full reset. Training leaves frame memory undefined again (R176); the host
interface is the sender's. -/
def State.resetUnits (p : Part) (s : State) : State :=
  match p with
  | .sender =>
    let e := s.snd.dram.epoch + 1
    { s with snd := { SenderUnit.reset with dram := { Dram.reset with epoch := e } }, host := HostIf.reset }
  | .tile => { s with til := TileUnit.reset }

/-- A full reset of a part (R478): internal reset is held. -/
def State.fullReset (p : Part) (k : ResetKind) (seen : Nat) (s : State) : State :=
  let c := s.chip p
  let n := s.fldOf p Reg.SYS_RST_COUNT 15 0
  let t := s.resetUnits p
  let t := t.upd p fun _ =>
    { Chip.reset p with flash := c.flash, tap := if k = .por then .idcode else c.tap, acc := accAfter p k c.acc }
  let t := t.wr p Reg.SYS_RST_CAUSE (wd (resetCode k * 2 ^ 28 + seen))
  let t := if k = .por then t else t.wr p Reg.SYS_RST_COUNT (wd (fld (s.rd p Reg.SYS_RST_COUNT) 31 16 * 2 ^ 16 + min 0xFFFF (n + 1)))
  let t := State.keepReg p s Reg.SYS_PWR_STAT (State.keepReg p s Reg.UPD_EPOCH t)
  (List.range 8).foldl (fun t j => State.keepReg p s (Reg.UPD_OWNER j) t) t

/-- A cause of reset can arise in a part: SOFT and CORE by a write while its logic runs, WAKE in the low-power state. -/
def State.resetArises (p : Part) (k : ResetKind) (s : State) : Bool :=
  match k with
  | .soft => s.alive p
  | .core => s.alive p
  | .wake => p = .sender && (s.chip p).phase = .low
  | _ => true

/-- The causes of one cycle (R479). -/
def State.resets (p : Part) (l : List ResetKind) (s : State) : State :=
  let l := l.filter fun k => s.resetArises p k
  match resetOrder.find? fun k => l.contains k with
  | none => s
  | some .core => s.coreRestart p 1 (resetSeen l)
  | some k => s.fullReset p k (resetSeen l)

/-- A write of `SYS_RST_CMD` (R478): other values are ignored. -/
def State.rstCmdWrite (p : Part) (v : Word) (s : State) : State :=
  if v = 0xA5F1 then s.resets p [.soft] else if v = 0xA5C0 then s.resets p [.core] else s

/-- Every monitored rail is within tolerance (R478). -/
def State.railsGood (p : Part) (s : State) : Bool :=
  match p with
  | .sender => s.fldOf .sender Reg.SYS_PWR_STAT 6 0 == 0x7F
  | .tile => s.fldOf .tile Reg.SYS_PWR_STAT 5 0 == 0x3F

/-- After a wake the frame memory is trained as if EN had been written 1 (R173), and the cycle of the wake is over. -/
def State.afterWake (p : Part) (s : State) : State :=
  match p with
  | .tile => s
  | .sender =>
    let s := s.updSnd fun t => { t with wakeFrom := none }
    if s.fldOf .sender Reg.SYS_RST_CAUSE 31 28 = resetCode .wake then s.drcPut (s.rd .sender Reg.DRC_CTRL ||| 1) else s

/-- Internal reset is released: straps are sampled (R482), enabled ports go to DETECT (R480), the correction banks are
filled (R338), the catalogue digest is computed (R442), and after a wake the frame memory is trained (R173). -/
def State.release (p : Part) (straps : Word) (s : State) : State :=
  let s := s.upd p fun c => { c with phase := .booting, fullBoot := true }
  let s := match p with
    | .sender => (s.wr .sender Reg.SYS_STRAP (straps &&& 0xF)).wr .sender Reg.LNK_ROLE (straps &&& 3)
    | .tile => (s.wr .tile Reg.SYS_STRAP (straps &&& 0xF4)).wrBit .tile Reg.COR_BSTAT 29 true
  let s := s.catStart p
  let s := s.afterWake p
  (List.range (lnkPorts p)).foldl (fun s i => if s.bitOf p (Reg.LNK_CTRL i) 31 then s.toDetect p i else s) s

/-! ### The low-power state (R476) -/

/-- A WAKE reset, of a sender in its low-power state (R476). -/
def State.wakeUp (others : List ResetKind) (s : State) : State := s.resets .sender (.wake :: others)

/-- Entry into the low-power state (R476): an ACTIVE sender releases its loans; WAKE_N already low ends it at once. -/
def State.lowPower (wakeN : Bool) (s : State) : State :=
  if s.stage .sender = 3 then s
  else
    let s := if s.loanSt = 1 then
        (List.range 16).foldl (fun s k =>
          if s.isChain k then ((s.sendRelease k 0).sendRelease k 0).sendRelease k 0 else s) s
      else s
    let s := s.rasStop.upd .sender fun c => { c with phase := .low }
    if wakeN && s.bitOf .sender Reg.SYS_WAKE_CFG 0 then s.wakeUp [] else s

/-- A write of `SYS_PWR_CMD` (R476): other values are ignored. -/
def State.pwrCmdWrite (v : Word) (s : State) : State := if v = 0xA5D0 then s.lowPower false else s

/-- A frame matches wake pattern k of a port (R123). DESIGN CHOICE: an enabled byte beyond the frame's last before the
FCS is compared with 0. -/
def State.wakeMatch (i : Nat) (fr : List Byte) (k : Nat) (s : State) : Bool :=
  let len := fr.length + 4
  s.bitOf .sender (Reg.NET_WCFG i k) 31 && s.fldOf .sender (Reg.NET_WCFG i k) 13 0 ≤ len && len ≤ s.maxLen i &&
    (List.range 64).all fun b =>
      let m := if b < 32 then s.rd .sender (Reg.NET_WMASK_LO i k) else s.rd .sender (Reg.NET_WMASK_HI i k)
      !bit m (b % 32) || fr.getD b 0 == byteOf (s.rd .sender (Reg.NET_WPAT i k (b / 4))) (b % 4)

/-- The patterns of a port whose link is up that a frame matches (R112, R123). -/
def State.wakeHits (i : Nat) (fr : List Byte) (s : State) : List Nat :=
  if s.netUp i then (List.range 8).filter fun k => s.wakeMatch i fr k else []

/-- Patterns' bits of `NET_WAKE_STAT` are set. -/
def State.wakeMark (i : Nat) (ks : List Nat) (s : State) : State :=
  ks.foldl (fun s k => s.wrBit .sender (Reg.NET_WAKE_STAT i) k true) s

/-- A frame in the low-power state (R123): a match wakes the sender, and `NET_WAKE_STAT` shows after the wake the
patterns that matched. -/
def State.wakeFrame (i : Nat) (fr : List Byte) (s : State) : State :=
  match s.wakeHits i fr with
  | [] => s
  | ks => ((s.wakeUp []).updSnd fun t => { t with wakeFrom := some s.sender.folio }).wakeMark i ks

/-- A frame that ends on a port in the cycle in which another woke the sender sets its patterns' bits too (R123). -/
def State.wakeAlso (i : Nat) (fr : List Byte) (s : State) : State :=
  match s.snd.wakeFrom with
  | none => s
  | some old => s.wakeMark i ((s.upd .sender fun c => { c with folio := old }).wakeHits i fr)

/-! ### The TAP (R509) -/

/-- The identification code (R509). -/
def idCode : Part → Word
  | .sender => wd (0xB * 2 ^ 28 + 0x1610 * 2 ^ 12 + 0x2D3 * 2 + 1)
  | .tile => wd (0xA * 2 ^ 28 + 0x3072 * 2 ^ 12 + 0x2D3 * 2 + 1)

/-- A link failure on a port (R273, R509). -/
def State.portLost (p : Part) (i : Nat) (s : State) : State :=
  if s.lnkSt p i = 5 then (s.toDetect p i).raise p (Ev.LNK_FAIL p i)
  else if s.lnkSt p i = 0 then s
  else s.toDetect p i

/-- The TAP takes an instruction: while the boundary takes the balls every sink is off; leaving it, the part goes on as
after a link failure on each port (R509). -/
def State.setTap (p : Part) (t : Tap) (s : State) : State :=
  let was := s.tapTakes p
  let s := s.upd p fun c => { c with tap := t }
  if s.tapTakes p then
    match p with
    | .sender => s
    | .tile => s.scanOff
  else if was then (List.range (lnkPorts p)).foldl (fun s i => s.portLost p i) s
  else s

/-! ### The meanings -/

/-- POR (R478). -/
def execPor (p : Part) (others : List ResetKind) (s : State) : Host.Outcome State Fault Refusal :=
  .next (s.resets p (.por :: others))

/-- PIN_RESET (R478). -/
def execPinReset (p : Part) (others : List ResetKind) (s : State) : Host.Outcome State Fault Refusal :=
  .next (s.resets p (.pin :: others))

/-- BROWNOUT (R478). -/
def execBrownout (p : Part) (others : List ResetKind) (s : State) : Host.Outcome State Fault Refusal :=
  .next (s.resets p (.brownout :: others))

/-- SOFT_RESET (R478). -/
def execSoftReset (p : Part) (others : List ResetKind) (s : State) : Host.Outcome State Fault Refusal :=
  .next (s.resets p (.soft :: others))

/-- CORE_RESTART (R478). -/
def execCoreRestart (p : Part) (others : List ResetKind) (s : State) : Host.Outcome State Fault Refusal :=
  .next (s.resets p (.core :: others))

/-- INTERNAL_RESET_RELEASE (R478, R480, R482): once every monitored rail has been in tolerance. -/
def execInternalResetRelease (p : Part) (straps : BitVec 8) (s : State) : Host.Outcome State Fault Refusal :=
  .next (if (s.chip p).phase = .held && s.railsGood p then s.release p (straps.setWidth 32) else s)

/-- LOW_POWER_ENTRY (R476). -/
def execLowPowerEntry (wakeN : Bool) (s : State) : Host.Outcome State Fault Refusal :=
  .next (s.when' .sender (State.lowPower wakeN))

/-- WAKE_N (R476): while `SYS_WAKE_CFG.EN` is 1. -/
def execWakeN (others : List ResetKind) (s : State) : Host.Outcome State Fault Refusal :=
  .next (if s.sender.phase = .low && s.bitOf .sender Reg.SYS_WAKE_CFG 0 then s.wakeUp others else s)

/-- HOST_PERST (R478, R476): a fall resets the PCIe controller, the MSI-X table and PBA, and `HOST_DMA_SEL`; a rise
wakes a sender in its low-power state. -/
def execHostPerst (rising : Bool) (s : State) : Host.Outcome State Fault Refusal :=
  .next (
    if rising then (if s.sender.phase = .low then s.wakeUp [] else s)
    else s.when' .sender fun s =>
      if s.pcie then { s with host := { s.host with dmaSel := 0, msix := [], pba := [] } }.raise .sender Ev.HOST_PERST else s)

/-- RAIL_WARN (R488): at most once per millisecond. -/
def execRailWarn (p : Part) (s : State) : Host.Outcome State Fault Refusal :=
  .next (s.when' p fun s =>
    if s.msDue p (s.chip p).railAt then
      (s.upd p fun c => { c with railAt := some (s.elapsed p) }).raise p Ev.RAIL_WARN
    else s)

/-- RAIL_TOLERANCE_CHANGE (R487): a rail of the part's table, or the tile's Porval feed; without VDD_IO and without the
pair the Porval domain has no supply (R475). -/
def execRailToleranceChange (p : Part) (n : Fin 32) (ok : Bool) (s : State) : Host.Outcome State Fault Refusal :=
  .next (
    let known := match p with
      | .sender => decide (n.val < 7)
      | .tile => decide (n.val < 6) || n.val == 31
    if !known then s
    else
      let s := s.wrBit p Reg.SYS_PWR_STAT n.val ok
      let fed := s.bitOf .tile Reg.SYS_PWR_STAT 0 || s.bitOf .tile Reg.SYS_PWR_STAT 31
      if p = .tile && !ok && (n.val = 0 || n.val = 31) && !fed then s.updPv fun v => { v with powered := false } else s)

/-- U_REF_FIRST_EDGE (R484): the clocks start, and the reference is present (R262). -/
def execURefFirstEdge (s : State) : Host.Outcome State Fault Refusal :=
  .next (s.when' .tile fun s =>
    if s.til.refSeen then s
    else
      let s := (s.updTil fun t => { t with refSeen := true }).wr .tile Reg.LNK_REF 1
      (s.wrBit .tile (Reg.LNK_STAT 0) 20 true).wrBit .tile (Reg.LNK_STAT 1) 20 true)

/-- PORVAL_DOMAIN_POR (R475): what the domain holds is reset, and nothing outside it. -/
def execPorvalDomainPor (s : State) : Host.Outcome State Fault Refusal :=
  .next ({ s with pvd := PvDomain.reset }.upd .tile fun c => { c with acc := Accession.empty })

/-- WAKE_OUT_PULSE_END (R477). -/
def execWakeOutPulseEnd (s : State) : Host.Outcome State Fault Refusal :=
  .next (s.updPv fun v => { v with wakePulse := false })

/-- NET_RX_FRAME (R112 to R115, R123): none is received while LINK is 0. -/
def execNetRxFrame (i : Fin 4) (bytes : List Byte) (fcsOk : Bool) (lag : Word) (s : State) :
    Host.Outcome State Fault Refusal :=
  .next (
    if s.sender.phase = .low then (if fcsOk then s.wakeFrame i.val bytes else s)
    else if s.sender.phase = .held then (if fcsOk then s.wakeAlso i.val bytes else s)
    else s.when' .sender fun s => if s.netUp i.val then s.netRx i.val bytes fcsOk lag else s)

/-- BYPASS (R509): one bit, 0, lies between TDI and TDO. -/
def execBypass (p : Part) (s : State) : Host.Outcome State Fault Refusal := .next ((s.setTap p .bypass).emit (.tdo p 0))

/-- SAMPLE_PRELOAD (R509): the balls keep their functions. -/
def execSamplePreload (p : Part) (s : State) : Host.Outcome State Fault Refusal := .next (s.setTap p .sample)

/-- EXTEST (R509). -/
def execExtest (p : Part) (s : State) : Host.Outcome State Fault Refusal := .next (s.setTap p .extest)

/-- IDCODE (R509). -/
def execIdcode (p : Part) (s : State) : Host.Outcome State Fault Refusal :=
  .next ((s.setTap p .idcode).emit (.tdo p (idCode p)))

/-- CLAMP (R509). -/
def execClamp (p : Part) (s : State) : Host.Outcome State Fault Refusal := .next (s.setTap p .clamp)

/-- HIGHZ (R509). -/
def execHighz (p : Part) (s : State) : Host.Outcome State Fault Refusal := .next (s.setTap p .highz)

/-- TAP_RESET (R509): the TAP holds IDCODE. -/
def execTapReset (p : Part) (s : State) : Host.Outcome State Fault Refusal := .next (s.setTap p .idcode)

end Sys2Proof.Machine
end

