-- ==== Sys2Proof/Machine/FolioBus.lean ====
section
/-!
DEFINITION. Folio space as FRD and FWR reach it (R7, R8, R43 to R45): which addresses are mapped, what a read returns
and does, what a write does. The mailbox registers of R66 and R67 stand here, since folio writes move them.
-/

namespace Sys2Proof.Machine

/-! ### The map (R43) -/

/-- The 64 KiB windows of the blocks that both parts have (R43). -/
def commonWindow (w : Nat) : Bool :=
  (1 ≤ w && w ≤ 5) || (0x20 ≤ w && w ≤ 0x24) || w == 0x28 || w == 0x30 || w == 0x31

/-- A folio address lies in a block that the part has (R43). -/
def folioMapped (p : Part) (a : Nat) : Bool :=
  let w := a / 0x10000
  commonWindow w || (match p with
    | .sender => (8 ≤ w && w ≤ 0xA) || (0x10 ≤ w && w ≤ 0x1D)
    | .tile => (0x60 ≤ w && w ≤ 0x77) || (0x80 ≤ w && w ≤ 0xFF))

/-- The commit bit of the block that holds a 64 KiB window, if the block has one (R43). -/
def commitBitOf (p : Part) (w : Nat) : Option Nat := (List.range 15).find? fun b => (commitWindows p b).contains w

/-- The LNK port of a folio address (R45). -/
def lnkAt (a : Nat) : Nat := (a - 0x200000) / 0x2000

/-- The chain of a CHN address (R45). -/
def chnAt (a : Nat) : Nat := 8 * ((a - 0x1C0000) / 0x10000) + (a % 0x10000) / 0x1000

/-- The NET port of a folio address (R45). -/
def netAt (a : Nat) : Nat := (a - 0x80000) / 0x4000

/-! ### The mailbox (R66, R67) -/

/-- BUSY of the inbound mailbox. -/
def State.mbxBusy (s : State) : Bool := bit s.host.mbxIn 31

/-- ACK of an inbound message; ignored with BUSY at 0 (R66). -/
def State.mbxInAck (s : State) : State :=
  if s.mbxBusy then
    let s := { s with host := { s.host with mbxIn := putBit s.host.mbxIn 31 false } }
    (s.setLevel .sender Ev.MBX_IN false).msixSend 1
  else s

/-- SEND of an outbound message; ignored with FULL at 1 (R67). -/
def State.mbxSend (s : State) : State :=
  if s.bitOf .sender Reg.SYS_MBX_OUT_CTRL 31 then s
  else (s.wrBit .sender Reg.SYS_MBX_OUT_CTRL 31 true).msixSend 0

/-- A write of `SYS_MBX_OUT_CTRL` (R67). -/
def State.mbxOutWrite (v : Word) (s : State) : State :=
  let s := s.wrFld .sender Reg.SYS_MBX_OUT_CTRL 6 0 (fld v 6 0)
  if bit v 16 then s.mbxSend else s

/-! ### Reads (R7) -/

/-- Word j of a record. -/
def EvRec.word (r : EvRec) (j : Nat) : Word := [r.w0, r.w1, r.w2, r.w3].getD j 0

/-- Word j of the head record of a log; 0 when it is empty (R430). -/
def headWord (l : List EvRec) (j : Nat) : Word := (l.head?.map fun r => r.word j).getD 0

/-- `TIME_TXQ_STAT[i]` (R147). -/
def State.txqStat (i : Nat) (s : State) : Word :=
  let q := s.snd.txStamps.getD i []
  match q with
  | [] => 0
  | (_, tsid) :: _ => wd (2 ^ 31 + q.length * 2 ^ 16 + fld tsid 15 0)

/-- What the registers that a queue, a record or a machine's progress shows read as; `i` is the last index. -/
def State.liveRead (p : Part) (h : Hook) (i a : Nat) (s : State) : Word :=
  let c := s.chip p
  match h with
  | .SYS_TRCV_LEVEL => wd c.rxq.length
  | .SYS_MBX_IN_CTRL => s.host.mbxIn &&& 0x7F
  | .EVT_LOG_STAT => wd c.log.length
  | .EVT_LOG_W => headWord c.log i
  | .EVT_TLOG_STAT => wd s.snd.tlog.length
  | .EVT_TLOG_W => headWord (s.snd.tlog.map Prod.fst) i
  | .EVT_TLOG_SRC => (s.snd.tlog.head?.map Prod.snd).getD 0
  | .EVT_TELQ_LEVEL => wd c.log.length
  | .TIME_TXQ_STAT => s.txqStat i
  | .TIME_TXQ_TS => ((s.snd.txStamps.getD i []).head?.map Prod.fst).getD 0
  | .FLT_STAT => s.rd p a ||| wd (c.att.length * 2 ^ 16)
  | .FLT_FIRST => c.acc.words.getD 4 0
  | .FLT_ACC => c.acc.words.getD i 0
  | .FLT_ATT_ID => ((AMap.find c.att i).map fun t => wd (2 ^ 31 + t.id)).getD 0
  | .FLT_ATT_DUE => ((AMap.find c.att i).map AttSlot.due).getD 0
  | .SCAN_LATCH => if s.schedOn .tile then s.tileLatch c.nextLatch else 0
  | .SCAN_STAT => if s.scanRuns then s.rd p a else putBit (s.rd p a) 31 false
  | .TRIM_STAT => s.trimStat
  | .DIAG_LAMP_STAT => s.lampStat
  | .DIAG_BLK_STAT => s.blkStat i
  | .LOAN_REC => putBit (s.rd p a) 27 s.freshKept
  | .CHN_STAT => s.chnStat (chnAt a)
  | .CHN_RAS_STAT => s.rasStat
  | .CHN_RAS_NEXT => s.rasNext
  | .CMP_PIPE_STAT => s.pipeStat i
  | .UPD_CONF_LEFT => s.confSeconds p
  | _ => s.rd p a

/-- A read of a register at its active address: WO reads 0, RC is cleared (R7); the reads that act. -/
def State.regRead (p : Part) (r : RegRow) (i a : Nat) (s : State) : Word × State :=
  match r.acc, r.hook with
  | .wo, _ => (0, s)
  | .rc, _ => (s.rd p a, s.wr p a 0)
  | _, .TIME_NOW_LO => s.readNowLo p
  | _, .IDN_RAND => s.draw
  | _, h => (s.liveRead p h i a, s)

/-- A read of an aligned, mapped folio address: the correction-store window (R334), a register, a shadow image, or 0
where none is defined (R43, R44). -/
def State.folioRead (p : Part) (a : Nat) (s : State) : Word × State :=
  if p = .tile && 0x800000 ≤ a then (s.corRead a, s)
  else
    match findReg p a with
    | some (r, ix) => s.regRead p r (ix.getLastD 0) a
    | none =>
      match findShadow p a with
      | some _ => (s.rd p a, s)
      | none => (0, s)

/-! ### Writes (R7, R8, R51) -/

/-- The effect of a write to a register whose writes act, of the blocks that both parts have; `none` for a hook of
another block. -/
def State.writeCommon (p : Part) (h : Hook) (i a : Nat) (v : Word) (s : State) : Option State :=
  match h with
  | .SYS_RST_CMD => some (s.rstCmdWrite p v)
  | .SYS_PWR_CMD => some (s.pwrCmdWrite v)
  | .SYS_MBX_IN_CTRL => some (if bit v 16 then s.mbxInAck else s)
  | .SYS_MBX_OUT_CTRL => some (s.mbxOutWrite v)
  | .EVT_CTRL => some (s.evtCtrlWrite v)
  | .EVT_LOG_POP => some (if bit v 0 then s.logPop else s)
  | .EVT_TLOG_POP => some (if bit v 0 then s.tlogPop else s)
  | .EVT_ROUTE => some (s.routeWrite p i v)
  | .FLT_GRACE => some (s.fltGraceWrite p v)
  | .FLT_SAFE_CMD => some (s.safeCmd p v)
  | .FLT_CLR_FIRST => some (if bit v 0 then s.clrFirst p else s)
  | .THM_LEHR_EXIT => some (if bit v 0 then s.lehrPermit p else s)
  | .TIME_CTRL => some (s.timeCtrlWrite v)
  | .TIME_SRV_OFS => some (s.srvOfsWrite v)
  | .TIME_INTEG => some (s.timeIntegWrite v)
  | .TIME_TXINT => some (s.txintWrite p v)
  | .TIME_SET_LO => some (s.timeSetLo v)
  | .TIME_SET_HI => some (s.updSnd fun t => { t with setHi := v })
  | .TIME_TXQ_POP => some (if bit v 0 then s.txqPop i else s)
  | .LNK_CTRL => some (s.lnkCtrlWrite p (lnkAt a) v)
  | .LNK_ROLE => some (s.lnkRoleWrite v)
  | .LNK_PV_CMD => some (s.pvCmdWrite (lnkAt a) v)
  | .IDN_NONCE => some (s.nonceWrite p a v)
  | .IDN_CHAL_CMD => some (if bit v 0 then s.chalGo p else s)
  | .IDN_GEN => some (s.genWrite p v)
  | .IDN_DIG_CMD => some (s.digCmdWrite v)
  | .IDN_VFY_CMD => some (s.vfyCmdWrite p v)
  | .UPD_CMD => some (s.updCmdWrite p v)
  | .UPD_CONF_TO => some (s.confToWrite p v)
  | .UPD_SET_CMD => some (s.setCmdWrite p v)
  | .UPD_FW_CMD => some (s.fwCmdWrite p v)
  | .UPD_OWNER_CMD => some (s.ownerFuse p v)
  | .UPD_TX_CMD => some (s.txCmdWrite v)
  | _ => none

/-- `DRC_PORT_LAT` takes 500 to 1,000,000; any other write is discarded (R196). -/
def State.portLatWrite (a : Nat) (v : Word) (s : State) : State :=
  if 500 ≤ v.toNat && v.toNat ≤ 1000000 then s.wr .sender a v else s


/-- The effect of a write to a register whose writes act, of the blocks that only one part has. -/
def State.writeOwn (h : Hook) (i a : Nat) (v : Word) (s : State) : Option State :=
  match h with
  | .NET_CTRL => some (s.netCtrlWrite (netAt a) v)
  | .NET_SNAP => some (if bit v 0 then s.netSnap (netAt a) else s)
  | .FLOW_SNAP => some (if bit v 0 then s.flowSnap else s)
  | .DRC_CTRL => some (s.drcPut v)
  | .DRC_CFG => some (s.drcCfgWrite v)
  | .DRC_PORT_LAT => some (s.portLatWrite a v)
  | .DRC_TEST_CTRL => some (s.testCtrlWrite v)
  | .LOAN_XBEAT => some (s.xbeatWrite v)
  | .LOAN_STK_CMD => some (s.stkCmdWrite v)
  | .LOAN_EXCL_LO => some (s.exclWrite i false v)
  | .LOAN_EXCL_HI => some (s.exclWrite i true v)
  | .PIX_DARK_CLR => some (s.darkClear v)
  | .COR_COPY => some (if bit v 0 then s.corCopyGo else s)
  | .DIAG_SG_OFF => some (s.sgOffWrite v.toNat)
  | .DIAG_FLIST_CLR => some (if bit v 0 then s.flistClear else s)
  | _ => none

/-- A write of a register at its active address: reserved bits are dropped (R8), W1C bits cleared, RW bits stored; RO,
RC and the active value of SH ignore it (R7). -/
def State.regWrite (p : Part) (r : RegRow) (i a : Nat) (v : Word) (s : State) : State :=
  let v := v &&& wd r.mask
  let act : State → State := fun s => ((s.writeCommon p r.hook i a v).getD ((s.writeOwn r.hook i a v).getD (s.wr p a v)))
  match r.acc with
  | .rw => act s
  | .wo => if r.hook = .none then s else act s
  | .w1c => if r.hook = .none then s.wr p a (s.rd p a &&& ~~~v) else act s
  | _ => s

/-- A write that R51 discards: counted, and SHADOW_LOCKED raised. -/
def State.lockDrop (p : Part) (s : State) : State := (s.bump p Reg.SYS_CMT_LOCKDROP 1).raise p (Ev.SHADOW_LOCKED)

/-- The shadow image at a folio address is locked by a pending commit (R51). -/
def State.lockedAt (p : Part) (a : Nat) (s : State) : Bool :=
  match commitBitOf p (a / 0x10000) with
  | none => false
  | some b => s.shadowLocked p b

/-- A write of an aligned, mapped folio address; the flag tells that R51 discarded it. -/
def State.folioWrite (p : Part) (a : Nat) (v : Word) (s : State) : State × Bool :=
  if p = .tile && 0x800000 ≤ a then s.corWrite a v
  else
    match findReg p a with
    | some (r, ix) => (s.regWrite p r (ix.getLastD 0) a v, false)
    | none =>
      match findShadow p a with
      | some (r, _) => if s.lockedAt p a then (s.lockDrop p, true) else (s.wr p a (v &&& wd r.mask), false)
      | none => (s, false)

/-- A folio write by hardware that checks no address first: nothing happens where no block is mapped. -/
def State.folioPut (p : Part) (a v : Word) (s : State) : State :=
  if folioMapped p a.toNat && a.toNat % 4 = 0 then (s.folioWrite p a.toNat v).1 else s

end Sys2Proof.Machine
end

