-- ==== Sys2Proof/Machine/Boot.lean ====
section
/-!
DEFINITION. The boot of a part (R456, R457, R463 to R468): the copy that a boot resumes, the checks and the load of the
active program, ROM recovery, the settings status, the core settings, the release of the cores.
-/

namespace Sys2Proof.Machine

/-! ### The copy that a boot resumes (R463, R465) -/

/-- Blocks are copied from PROGRESS up to NBLK (R463). -/
def State.bootBlocks (p : Part) : Nat → State → State
  | 0, s => s
  | f + 1, s =>
    let r := s.bootRec p
    if r.progress < r.nblk then State.bootBlocks p f (s.puntyCopy p) else s

/-- The blocks of a program slot. -/
def slotBlocks (p : Part) : Nat := slotSize p / puntyBlock

/-- The active slot's image hash is STG_H (R463). -/
def State.copySound (p : Part) (s : State) : Bool := s.imgHash p (activeSlot p) == (s.bootRec p).stgH

/-- A boot in ACTIVATING finishes the copy, once more from block 0 if the hash differs; a second difference leaves a
record of RECOVERY, success one of TRIAL with BOOTS 0 (R463). -/
def State.bootCopy (p : Part) (s : State) : State :=
  let s := s.bootBlocks p (slotBlocks p)
  let s := if s.copySound p then s else (s.putRec p { s.bootRec p with progress := 0 }).bootBlocks p (slotBlocks p)
  if s.copySound p then s.putRec p { s.bootRec p with state := 2, boots := 0 }
  else s.putRec p { s.bootRec p with state := 3 }

/-! ### The program (R457, R464) -/

/-- The bytes that the sections of a type put into a memory that reads 0 elsewhere (R457). -/
def State.sectionBytes (p : Part) (want : Section → Bool) (s : State) : List Host.Cell :=
  ((s.imgSections p (activeSlot p)).filter want).foldl
    (fun m x => Mem.writeBytes zeroByte m x.dest (s.flashBytes p (activeSlot p + x.off) x.len)) []

/-- Instruction memory of core n after the load. -/
def State.imemLoaded (p : Part) (n : Nat) (s : State) : List Host.Cell :=
  s.sectionBytes p fun x => x.type == 1 && x.cores.testBit n

/-- A core that a boot leaves, with its instruction memory, released or not (R40). -/
def bootCore (imem : List Host.Cell) (held : Bool) : Core := { Core.reset with imem := imem, held := held }

/-- The cores after the boot: each with its instruction memory; the fault a core held is over (R107). -/
def State.setCores (p : Part) (cs : List Core) (dmem : List Host.Cell) (s : State) : State :=
  let s := s.upd p fun c => { c with cores := cs, dmem := dmem, rxq := [] }
  let s := s.setLevel p Ev.TRCV_READY false
  (List.range cs.length).foldl (fun s n => s.wrBit p (Reg.SYS_CORE_FCODE n) 31 false) s

/-- Consecutive folio registers take free values. -/
def State.freeRegs (p : Part) (site : Nat) : List Nat → State → State
  | [], s => s
  | a :: as, s =>
    let (w, s) := s.free site
    State.freeRegs p site as (s.wr p a w)

/-- The active program is loaded; its identity and versions are shown (R457). -/
def State.loadProgram (p : Part) (run : Running) (s : State) : State :=
  let a := activeSlot p
  let cs := (List.range (s.chip p).cores.length).map fun n => bootCore (s.imemLoaded p n) true
  let key := s.imgOwner p a
  let e := s.imgEpoch p a
  let s := s.setCores p cs (s.sectionBytes p fun x => x.type == 2)
  let s := s.idnPut p (Reg.IDN_IMG_HASH 0) (wordsBE (s.imgHash p a))
  let s := (s.wr p Reg.UPD_ACT_VER (wd (s.imgVersion p a))).wr p Reg.UPD_PEER_MIN (wd (s.flashLE p (a + 0x10) 4))
  let s := s.wr p Reg.UPD_SETFMT (wd (s.flashLE p (a + 0x18) 2 * 2 ^ 16 + s.flashLE p (a + 0x16) 2))
  s.updUpd p fun u => { u with running := run, ownerKey := key, epoch := e }

/-- ROM recovery (R464): the record, UPD_RECOVERY, the recovery program in C0. What its image would show is not
stated. -/
def State.loadRecovery (p : Part) (s : State) : State × List (Nat × Word) :=
  let s := s.putRec p { s.bootRec p with state := 3 }
  let rom := Mem.writeBytes zeroByte [] 0 ((Config.recoveryProgram p).take (imemSize p))
  let cs := (List.range (s.chip p).cores.length).map fun n => bootCore (if n = 0 then rom else []) true
  let s := s.setCores p cs []
  let s := s.freeRegs p 21 ((List.range 8).map Reg.IDN_IMG_HASH ++ [Reg.UPD_ACT_VER, Reg.UPD_PEER_MIN, Reg.UPD_SETFMT])
  (s.updUpd p fun u => { u with running := .recovery, ownerKey := [], epoch := 0 }, [(Ev.UPD_RECOVERY p, 0)])

/-- TOTLEN of the program in the active slot is one that OPEN allows (R459). -/
def activeLen (p : Part) (n : Nat) : Bool := 640 ≤ n && n ≤ slotSize p && n % 4 == 0

/-- Steps 1 to 3 of the boot (R457). -/
def State.bootProgram (p : Part) (s : State) : State × List (Nat × Word) :=
  let s := if (s.bootRec p).state = 1 then s.bootCopy p else s
  let r := s.bootRec p
  if r.state = 3 || (r.state = 2 && 3 ≤ r.boots) then s.loadRecovery p
  else
    let s := if r.state = 2 then s.putRec p { r with boots := r.boots + 1 } else s
    match s.imgErr p (activeSlot p) false (activeLen p) with
    | some _ => s.loadRecovery p
    | none => (s.loadProgram p (if r.state = 2 then .trial else .confirmed), [])

/-! ### Settings (R467, R468) -/

/-- A settings copy of a part (R454, R455). -/
def setCopy : Part → Bool → Nat
  | .sender, false => 0x420000
  | .sender, true => 0x4A0000
  | .tile, false => 0xA0000
  | .tile, true => 0xB0000
/-- The size of a settings copy (R454, R455). -/
def setCopySize : Part → Nat
  | .sender => 0x80000
  | .tile => 0x10000

/-- The settings copy at a flash address is valid (R468). -/
def State.setValid (p : Part) (a : Nat) (s : State) : Bool :=
  let len := s.flashLE p (a + 16) 4
  s.flashBytes p a 8 == asciiBytes "SKDG-SET" && len + 32 ≤ setCopySize p &&
    crc32c (s.flashBytes p (a + 32) len) == wd (s.flashLE p (a + 20) 4)

/-- SEQ of a settings copy. -/
def State.setSeq (p : Part) (a : Nat) (s : State) : Word := wd (s.flashLE p (a + 12) 4)

/-- The settings copy in use: the valid one with the later SEQ (R468). -/
def State.setInUse (p : Part) (s : State) : Option Bool :=
  match s.setValid p (setCopy p false), s.setValid p (setCopy p true) with
  | false, false => none
  | true, false => some false
  | false, true => some true
  | true, true => some (decide (0 < (s.setSeq p (setCopy p true) - s.setSeq p (setCopy p false)).toInt))

/-- `UPD_SET_STAT` is set, and SETTINGS_FALLBACK raised with FALLBACK at 1 (R468). -/
def State.bootSettings (p : Part) (s : State) : State × List (Nat × Word) :=
  match s.setInUse p with
  | none => (s.wr p Reg.UPD_SET_STAT 0x40000000, [(Ev.SETTINGS_FALLBACK p, 0)])
  | some b =>
    let f := s.flashLE p (setCopy p b + 8) 2
    let lo := s.fldOf p Reg.UPD_SETFMT 15 0
    let hi := s.fldOf p Reg.UPD_SETFMT 31 16
    let fall := f < lo || hi < f
    (s.wr p Reg.UPD_SET_STAT (wd (2 ^ 31 + fall.toNat * 2 ^ 30 + b.toNat * 2 ^ 29 + f)),
      if fall then [(Ev.SETTINGS_FALLBACK p, 0)] else [])

/-- The core settings' address and their pairs' (R454, R455, R467). -/
def coreSettings : Nat := 0x10000

/-- The core settings are valid (R467). -/
def State.coreSetValid (p : Part) (s : State) : Bool :=
  let n := s.flashLE p (coreSettings + 8) 4
  s.flashBytes p coreSettings 8 == asciiBytes "SKDG-CST" && n ≤ 8000 &&
    crc32c (s.flashBytes p (coreSettings + 32) (8 * n)) == wd (s.flashLE p (coreSettings + 12) 4)

/-- Pairs are written as FWRs would write them; an unmapped address is skipped (R467). -/
def State.putPairs (p : Part) (a : Nat) : Nat → State → State
  | 0, s => s
  | n + 1, s =>
    State.putPairs p (a + 8) n (s.folioPut p (wd (s.flashLE p a 4)) (wd (s.flashLE p (a + 4) 4)))

/-- Step 5 of the boot, on a full boot (R457, R467). -/
def State.bootPairs (p : Part) (s : State) : State :=
  if (s.chip p).fullBoot && s.coreSetValid p then s.putPairs p (coreSettings + 32) (s.flashLE p (coreSettings + 8) 4) else s

/-! ### Release (R40, R457, R464) -/

/-- `UPD_STAT` after a boot, and the stage's event (R457, R458): no download is kept. -/
def State.bootStage (p : Part) (s : State) : State × List (Nat × Word) :=
  let v := match (s.chip p).upd.running with
    | .confirmed => 0
    | .trial => 4
    | .recovery => 5
  let s := s.updEnd p
  let r := s.bootRec p
  let s := (s.wrFld p Reg.UPD_STAT 3 0 (if v = 4 then r.boots else 0)).wr p Reg.UPD_FLOOR r.floor
  s.setStage p v

/-- The cores are released: all, or C0 alone for the recovery program; in TRIAL the confirmation timer starts. -/
def State.releaseCores (p : Part) (s : State) : State :=
  let run := (s.chip p).upd.running
  let n := s.fldOf p Reg.UPD_CONF_TO 11 0
  let conf := if run = .trial then some (n * 500000000) else none
  let s := s.updUpd p fun u => { u with confLeft := conf }
  let s := s.upd p fun c =>
    { c with phase := .up, cores := if run = .recovery then listModify c.cores 0 fun k => { k with held := false }
                                    else c.cores.map fun k => { k with held := false } }
  s

/-- NET_WAKE of the ports whose wake frames woke the sender (R123). -/
def State.wakeEvents (p : Part) (s : State) : List (Nat × Word) :=
  match p with
  | .tile => []
  | .sender =>
    if (s.chip p).fullBoot && s.fldOf .sender Reg.SYS_RST_CAUSE 31 28 = 6 then
      ((List.range 4).filter fun i => s.fldOf .sender (Reg.NET_WAKE_STAT i) 7 0 ≠ 0).map fun i => (Ev.NET_WAKE i, 0)
    else []

/-- The boot may run: FWRs and transfers of a core restart have ended (R457), and in the tile the identity fill of the
correction store has (R338). -/
def State.bootReady (p : Part) (s : State) : Bool :=
  (s.chip p).phase = .booting && (s.chip p).cores.all (fun c => c.posted.isEmpty && c.transit.isEmpty && c.xfer.isNone)
    && (p == .sender || !s.til.pix.filling)

/-- The boot of a part (R457). -/
def State.bootRun (p : Part) (s : State) : State :=
  let (s, e1) := s.bootProgram p
  let (s, e2) := s.bootSettings p
  let s := match p with
    | .sender => s
    | .tile => s.wr .tile Reg.UPD_COR_BASE s.corBase
  let s := s.bootPairs p
  let (s, e3) := s.bootStage p
  let s := (s.catStart p).releaseCores p
  s.raiseAll p (e1 ++ e2 ++ e3 ++ [(Ev.BOOTED, 0)] ++ s.wakeEvents p)

/-- BOOT (R457). -/
def execBoot (p : Part) (s : State) : Host.Outcome State Fault Refusal :=
  .next (if s.bootReady p then s.bootRun p else s)

end Sys2Proof.Machine
end

