-- ==== Sys2Proof/Machine/Validate.lean ====
section
/-!
DEFINITION. The values that a commit would put in force (R47, R220) and its validation: the general checks of R52 and
the table of every block (R134, R163, R220, R238, R256, R314, R341, R368, R392, R408).
-/

namespace Sys2Proof.Machine

/-! ### The values after landing (R47) -/

/-- The commit bits that a mask names, ascending. -/
def maskBits (mask : Word) : List Nat := (List.range 15).filter fun b => bit mask b

/-- The windows of the blocks that a mask names. -/
def maskWindows (p : Part) (mask : Word) : List Nat := (maskBits mask).flatMap (commitWindows p)

/-- A folio address, or the active address whose shadow image lies there (R44). -/
def activeOf (a : Nat) : Nat := if a / 2 ^ 15 % 2 = 1 then a - 2 ^ 15 else a

/-- The active addresses of the named blocks at which the register or its image is not as reset leaves it. -/
def State.touched (p : Part) (mask : Word) (s : State) : List Nat :=
  let ws := maskWindows p mask
  (s.chip p).folio.filterMap fun e =>
    let a := activeOf e.1
    if ws.contains (a / 2 ^ 16) && (findShadow p (a + 2 ^ 15)).isSome then some a else none

/-- Every SH field of every named block takes its shadow value (R47). -/
def State.landRegs (p : Part) (mask : Word) (s : State) : State :=
  (s.touched p mask).foldl (fun t a => t.wr p a (s.shadow p a)) s

/-! ### Checks -/

/-- A line of a validation table: the block whose table lists it, its code, the blocks whose values it reads, and
whether the values after landing fail it (R52, R220). -/
structure Check where
  src : Nat
  code : Nat
  reads : List Nat
  fails : State → Bool

/-- A result word that rejects (R52). -/
def rejWord (src code : Nat) : Word := wd (2 ^ 31 + src * 2 ^ 24 + code)

/-- A number lies outside a range. -/
def outside (n lo hi : Nat) : Bool := n < lo || hi < n

/-- What a validation knows beside the values after landing: the state before, the frame number, and the wall time at
which a commit applies while no schedule runs. -/
structure CmtCtx where
  old : State
  frame : Word
  at' : Word

/-! #### THM, LOAN and SIG (R408, R314, R220) -/

/-- The THM codes of R408. -/
def thmChecks (p : Part) : List Check :=
  let out := fun (a lo hi : Nat) (t : State) => let v := sfld (t.rd p a) 15 0; decide (v < lo || hi < v)
  (match p with
    | .sender => [⟨0, 0x101, [0], out Reg.THM_KNEE 280 400⟩]
    | .tile => []) ++
  [⟨0, 0x102, [0], out Reg.THM_SHUT 460 540⟩, ⟨0, 0x103, [0], out Reg.THM_RESTART 240 400⟩]

/-- The LOAN codes of R314. -/
def loanChecks : Part → List Check
  | .sender =>
    let term := fun (t : State) => t.fldOf .sender Reg.LOAN_TERM 26 0
    let renew := fun (t : State) => t.fldOf .sender Reg.LOAN_RENEW 26 0
    let int := fun (t : State) => t.fldOf .sender Reg.LOAN_BEAT 13 0
    let miss := fun (t : State) => t.fldOf .sender Reg.LOAN_BEAT 23 16
    let stk := fun (t : State) => t.fldOf .sender Reg.LOAN_STK_INT 23 0
    [⟨2, 0x101, [2], fun t => outside (term t) 250000 100000000⟩,
     ⟨2, 0x102, [2], fun t => renew t < 50000 || term t < 2 * renew t⟩,
     ⟨2, 0x103, [2], fun t =>
       outside (int t) 10 10000 || outside (miss t) 2 16 || term t ≤ miss t * int t * 1000⟩,
     ⟨2, 0x104, [2], fun t => stk t ≠ 0 && (stk t < 16 || stk t ≤ t.fldOf .sender Reg.LOAN_STK_PHASE 23 0)⟩]
  | .tile => [⟨2, 0x105, [2], fun t => outside (t.fldOf .tile Reg.LOAN_ORPHAN_TO 15 0) 1 60000⟩]

/-- The enabled signature regions. -/
def State.sigOn (p : Part) (t : State) : List Nat := (List.range 64).filter fun e => t.bitOf p (Reg.SIG_POS e) 31

/-- The SIG codes of R220. -/
def sigChecks (p : Part) : List Check :=
  let geom : State → Bool := fun t => (t.sigOn p).any fun e =>
    let x := t.fldOf p (Reg.SIG_XY e) 7 0
    let y := t.fldOf p (Reg.SIG_XY e) 22 16
    let w := t.fldOf p (Reg.SIG_WH e) 8 0
    let h := t.fldOf p (Reg.SIG_WH e) 23 16
    w = 0 || h = 0 || 256 < x + w || 128 < y + h
  let slot : State → Bool := fun t => (t.sigOn p).any fun e =>
    let m := t.fldOf p (Reg.SIG_POS e) 23 16
    m = 0 || 2 ^ t.slots p ≤ m
  let chain : State → Bool := fun t => (t.sigOn p).any fun e =>
    let k := t.fldOf p (Reg.SIG_POS e) 27 24
    !t.isChain k || t.chainLen k ≤ t.fldOf p (Reg.SIG_POS e) 5 0
  [⟨3, 0x101, [3], geom⟩] ++
  (match p with
    | .sender => [⟨3, 0x102, [3, 8], chain⟩]
    | .tile => []) ++
  [⟨3, 0x103, [3, 1], slot⟩]

/-! #### TIME (R163) -/

/-- The period in units of 2⁻³² ns after landing. -/
def State.periodOf (p : Part) (t : State) : Nat := (t.sched p).period

/-- `TIME_SLOT_OFS[s]` [25:0]. -/
def State.slotOfs (p : Part) (k : Nat) (t : State) : Nat := t.fldOf p (Reg.TIME_SLOT_OFS k) 25 0

/-- SLOT_GEOM of R163. -/
def State.slotGeomBad (p : Part) (t : State) : Bool :=
  let n := t.slots p
  let len := fun k => t.fldOf p (Reg.TIME_SLOT_LEN k) 25 0
  (List.range n).any fun k =>
    len k < 10000 ||
    (if k + 1 < n then t.slotOfs p (k + 1) else (t.rd p Reg.TIME_FRM_PER).toNat + t.slotOfs p 0)
      < t.slotOfs p k + len k

/-- START of R163. -/
def startBad (p : Part) (c : CmtCtx) (t : State) : Bool :=
  let start := t.rd p Reg.TIME_FRM_START
  if !t.schedOn p then false
  else if !c.old.schedOn p then (start - c.at').toInt < 1000000
  else if c.old.sched p = t.sched p then false
  else
    t.rd p Reg.TIME_FRM_SNUM ≠ c.frame ||
    (start - c.old.originOf p (c.frame - 1)).toInt * 2 ^ 32 < (t.periodOf p : Int)

/-- The TIME codes of R163. -/
def timeChecks (p : Part) (c : CmtCtx) : List Check :=
  [⟨1, 0x101, [1], fun t =>
      let n := t.periodOf p
      n * 240 < 10 ^ 9 * 2 ^ 32 || 1001 * 10 ^ 9 * 2 ^ 32 < n * 24000⟩,
   ⟨1, 0x102, [1], fun t => outside (t.slots p) 1 8⟩,
   ⟨1, 0x103, [1], State.slotGeomBad p⟩,
   ⟨1, 0x104, [1], startBad p c⟩] ++
  (match p with
    | .tile => []
    | .sender =>
      [⟨1, 0x105, [1], fun t => (List.range (t.slots .sender)).any fun k =>
          let w := t.rd .sender (Reg.TIME_SLOT_OFS k)
          bit w 31 && !t.bitOf .sender (Reg.TIME_PH_CFG (fld w 30 29)) 31⟩,
       ⟨1, 0x106, [1], fun t => (List.range 4).any fun j =>
          let w := t.rd .sender (Reg.TIME_PH_CFG j)
          bit w 31 && outside (fld w 19 16) 1 8⟩])

/-! #### FLOW (R134) -/

/-- The enabled flows. -/
def State.flowsOn (t : State) : List Nat := (List.range 16).filter fun f => t.bitOf .sender (Reg.FLOW_CTRL f) 31

/-- The bytes of a buffer that a frame takes: its lines and the line-status map (R132, R134). -/
def State.flowBytes (f : Nat) (t : State) : Nat := t.flowPitch f * t.flowH f + (t.flowH f + 7) / 8

/-- The enabled path entries of the enabled flows, as NETPORT, DST_IP and PORT. -/
def State.pathKeys (t : State) : List (Nat × Word × Nat) :=
  t.flowsOn.flatMap fun f => ([0, 1] : List Nat).filterMap fun q =>
    if t.bitOf .sender (Reg.FLOW_CTRL f) (30 - q) then
      let w := t.rd .sender (Reg.FLOW_PORT f q)
      some (fld w 31 30, t.rd .sender (Reg.FLOW_DST_IP f q), fld w 15 0)
    else none

/-- Some value stands twice in a list. -/
def repeats {α : Type} [DecidableEq α] : List α → Bool
  | [] => false
  | x :: xs => xs.contains x || repeats xs

/-- The FLOW codes of R134. DESIGN CHOICE: for RANGE, a buffer is its lines and its line-status map, not the whole of
its stride. -/
def flowChecks : List Check :=
  let each := fun (g : Nat → State → Bool) (t : State) => t.flowsOn.any fun f => g f t
  [⟨4, 0x101, [4], each fun f t =>
      (pgroup (t.fldOf .sender (Reg.FLOW_FMT f) 31 30) (t.fldOf .sender (Reg.FLOW_FMT f) 29 28)).isNone⟩,
   ⟨4, 0x102, [4], each fun f t =>
      outside (t.flowW f) 16 7680 || outside (t.flowH f) 16 4320 || t.flowW f % (t.flowP f).2 ≠ 0⟩,
   ⟨4, 0x103, [4], each fun f t => t.flowPitch f % 64 ≠ 0 || t.flowPitch f < t.lineBytes f⟩,
   ⟨4, 0x104, [4], each fun f t => 64 * (t.rd .sender (Reg.FLOW_BUFSZ f)).toNat < t.flowBytes f⟩,
   ⟨4, 0x105, [4], each fun f t => (List.range (t.flowN f)).any fun n => t.installed < t.flowBuf f n + t.flowBytes f⟩,
   ⟨4, 0x106, [4], each fun f t => outside (t.flowN f) 3 8⟩,
   ⟨4, 0x107, [4], fun t => 196608 < t.tallyUsed⟩,
   ⟨4, 0x108, [4], fun t =>
      (t.flowsOn.any fun f => t.fldOf .sender (Reg.FLOW_CTRL f) 30 29 = 0) || repeats t.pathKeys⟩,
   ⟨4, 0x109, [4], each fun f t =>
      outside (t.fldOf .sender (Reg.FLOW_MERGE f) 15 0) 100 50000 ||
      t.fldOf .sender (Reg.FLOW_MERGE f) 31 16 < 1000⟩]

/-! #### LYR (R220) -/

/-- The enabled descriptors. -/
def State.layersOn (t : State) : List Nat := (List.range 64).filter t.lyrOn

/-- The size of a descriptor's source. -/
def State.sourceSize (d : Nat) (t : State) : Nat × Nat :=
  match t.lyrFlow d with
  | some f => (t.flowW f, t.flowH f)
  | none => (t.fldOf .sender (Reg.LYR_GSIZE d) 13 0, t.fldOf .sender (Reg.LYR_GSIZE d) 29 16)

/-- The canvas columns of a chain's positions that a descriptor covers: first and last, where there is one. -/
def State.layerCols (d k : Nat) (t : State) : Option (Int × Int) :=
  let r := t.lyrDst d
  let hit := ((List.range (t.chainLen k)).map fun p => t.posRect k p).filter fun q => r.meets q
  let lo := hit.map fun q => max r.x q.x
  let hi := hit.map fun q => min (r.x + r.w) (q.x + q.w) - 1
  match lo, hi with
  | a :: as, b :: bs => some (as.foldl min a, bs.foldl max b)
  | _, _ => none

/-- The per-pipe source span of a layer for a chain (R210). -/
def State.layerSpan (d k : Nat) (t : State) : Nat :=
  match t.layerCols d k with
  | none => 0
  | some (x0, x1) =>
    let crop := t.lyrCrop d
    let dst := t.lyrDst d
    let src := fun (x : Int) => srcInt (srcPos x dst.x (stepOf crop.w dst.w) crop.x.toNat)
    tapAt (src x1 + 4) crop.x.toNat crop.w + 1 - tapAt (src x0 - 3) crop.x.toNat crop.w

/-- The vertical-tap need of a layer (R210). -/
def State.vtapNeed (d : Nat) (t : State) : Nat := 4 + (stepOf (t.lyrCrop d).h (t.lyrDst d).h + 65535) / 65536

/-- The chain ports configured as a chain. -/
def State.chains (t : State) : List Nat := (List.range 16).filter t.isChain

/-- LAYERS of R206: the layers of a chain and a slot outnumber the working units of the pipe that serves it. -/
def State.layersBad (t : State) : Bool :=
  t.chains.any fun k => match t.serving k with
    | none => false
    | some q => (List.range (t.slots .sender)).any fun slot => (t.unitsOf q).length < (t.compLayers k slot).length

/-- The LYR codes of R220. -/
def lyrChecks : List Check :=
  let each := fun (g : Nat → State → Bool) (t : State) => t.layersOn.any fun d => g d t
  let chain := fun (g : Nat → Nat → State → Bool) (t : State) =>
    t.layersOn.any fun d => t.chains.any fun k => t.lyrMeets d k && g d k t
  [⟨5, 0x101, [4, 5], each fun d t => match t.lyrFlow d with
      | none => false
      | some f => !t.bitOf .sender (Reg.FLOW_CTRL f) 31⟩,
   ⟨5, 0x102, [5], each fun d t => match t.lyrFlow d with
      | none => false
      | some f => (t.namers f).any fun e =>
          bit (t.lyr e) 29 != bit (t.lyr d) 29 || t.rd .sender (Reg.LYR_DELAY e) != t.rd .sender (Reg.LYR_DELAY d)⟩,
   ⟨5, 0x103, [5], each fun d t =>
      let w := t.lyr d
      fld w 28 27 = 3 || fld w 26 25 = 3 || 3 < fld w 2 0 || (bit w 29 && bit w 30)⟩,
   ⟨5, 0x104, [4, 5], each fun d t =>
      let c := t.lyrCrop d
      let (w, h) := t.sourceSize d
      c.w = 0 || c.h = 0 || (w : Int) < c.x + c.w || (h : Int) < c.y + c.h || (t.lyrDst d).w = 0 || (t.lyrDst d).h = 0⟩,
   ⟨5, 0x105, [5], each fun d t =>
      outside (stepOf (t.lyrCrop d).w (t.lyrDst d).w) 0x1000 0x80000 ||
      outside (stepOf (t.lyrCrop d).h (t.lyrDst d).h) 0x1000 0x80000⟩,
   ⟨5, 0x106, [5], each fun d t => match t.lyrFlow d with
      | some _ => false
      | none =>
        let (w, h) := t.sourceSize d
        let row := w * gfmtBytes (fld (t.lyr d) 2 0)
        let pitch := t.fldOf .sender (Reg.LYR_GPITCH d) 19 0
        pitch % 64 ≠ 0 || pitch < row ||
        t.installed < 64 * (t.rd .sender (Reg.LYR_GBASE d)).toNat + (h - 1) * pitch + row⟩,
   ⟨5, 0x107, [1, 5, 6, 8], State.layersBad⟩,
   ⟨5, 0x108, [1, 5, 6, 8], chain fun d k t => 8192 < t.layerSpan d k⟩,
   ⟨5, 0x109, [1, 5, 6, 8], chain fun d k t => 65536 < t.vtapNeed d * t.layerSpan d k⟩]

/-! #### CMP (R220) -/

/-- WB_GEOM of R220. -/
def State.wbBad (t : State) : Bool :=
  let c := t.canvas
  let div := t.wbDiv
  let pitch := t.fldOf .sender Reg.CMP_WB_PITCH 19 0
  let size := 64 * (t.rd .sender Reg.CMP_WB_BUFSZ).toNat
  t.bitOf .sender Reg.CMP_WB_CTRL 31 &&
  (t.slots .sender ≤ t.fldOf .sender Reg.CMP_WB_CTRL 26 24 ||
   c.w % div ≠ 0 || c.h % div ≠ 0 || c.w / div % 2 ≠ 0 ||
   pitch % 64 ≠ 0 || 2 * pitch < 9 * (c.w / div) || size < pitch * (c.h / div) ||
   t.installed < 64 * (t.rd .sender Reg.CMP_WB_BASE).toNat + 2 * size + pitch * (c.h / div))

/-- PREVIEW of R220. -/
def State.previewBad (t : State) : Bool :=
  let plen := t.fldOf .sender Reg.CMP_PV_PLEN 13 0
  t.bitOf .sender Reg.CMP_PV_CTRL 31 &&
  (!t.bitOf .sender Reg.CMP_WB_CTRL 31 || plen = 0 || plen % 9 ≠ 0 ||
   t.fldOf .sender (Reg.NET_MAXLEN (t.fldOf .sender Reg.CMP_PV_CTRL 29 28)) 13 0 < 62 + plen + 4)

/-- COEF_SUM of R211. -/
def State.coefBad (t : State) : Bool :=
  let pair := fun (x : Nat) => let w := t.rd .sender (Reg.CMP_COEF x); sfld w 11 0 + sfld w 27 16
  (List.range 4).any fun bank => (List.range 64).any fun ph =>
    let h := 384 * bank + 4 * ph
    let v := 384 * bank + 256 + 2 * ph
    pair h + pair (h + 1) + pair (h + 2) + pair (h + 3) ≠ 1024 || pair v + pair (v + 1) ≠ 1024

/-- The CMP codes of R220. -/
def cmpChecks : List Check :=
  [⟨6, 0x101, [6, 8], fun t => (t.chains.any fun k => 16 < t.mapped k) || repeats (t.chains.map fun k => t.mapped k)⟩,
   ⟨6, 0x102, [6, 8], fun t => t.chains.any fun k => t.pipeFailed (t.mapped k)⟩,
   ⟨6, 0x103, [6, 8], fun t => t.foChain.isSome && t.chains.any fun k => t.mapped k = 16⟩,
   ⟨6, 0x104, [6], fun t => outside t.canvas.w 1 16384 || outside t.canvas.h 1 4096⟩,
   ⟨6, 0x105, [1, 6], State.wbBad⟩,
   ⟨6, 0x106, [6], State.previewBad⟩,
   ⟨6, 0x107, [6], State.coefBad⟩]

/-! #### CLR (R238) -/

/-- PROF_KIND of R238 for a descriptor. -/
def State.profBad (d : Nat) (t : State) : Bool :=
  let m := t.fldOf .sender (Reg.CLR_PROF_CTRL (t.lyrProf d)) 9 8
  let rgb := match t.lyrFlow d with
    | none => true
    | some f => t.fldOf .sender (Reg.FLOW_FMT f) 31 30 == 2
  m = 3 || (rgb && m ≠ 0) || (!rgb && m = 0)

/-- Entries of a tone bank in order: none negative, above 1.0 or below the one before (R238). -/
def toneBad (g : Nat → LF) : Bool :=
  (List.range 513).any fun i =>
    LF.lt (g i) LF.zero || LF.lt LF.one (g i) || (0 < i && LF.lt (g i) (g (i - 1)))

/-- Word i of the wall-code thresholds `CLR_ENC`. -/
def State.encAt (i : Nat) (t : State) : Nat :=
  fld (t.rd .sender (if i < 8192 then 0x1A0000 + 4 * i else 0x1B0000 + 4 * (i - 8192))) 19 0

/-- The CLR codes of R238. -/
def clrChecks : List Check :=
  [⟨7, 0x101, [4, 5, 7], fun t => (t.layersOn.any fun d => t.profBad d) ||
      (List.range 8).any fun n => t.fldOf .sender (Reg.CLR_PROF_CTRL n) 9 8 = 3⟩,
   ⟨7, 0x102, [7], fun t => (List.range 8).any fun n =>
      let w := t.rd .sender (Reg.CLR_PROF_CTRL n)
      bit w 28 && outside (fld w 23 16) 100 150⟩,
   ⟨7, 0x103, [1, 7], fun t => ([0, 1] : List Nat).any fun b =>
      ((List.range (t.slots .sender)).any fun k => t.bitOf .sender Reg.CLR_CTRL k == (b == 1)) &&
      toneBad fun i => t.toneAt b i⟩,
   ⟨7, 0x104, [7], fun t => (List.range 16384).any fun i =>
      let v := t.encAt i
      1048575 < v || (if i = 0 then v ≠ 0 else v ≤ t.encAt (i - 1))⟩]

/-! #### CHN (R256) -/

/-- The CHN codes of R256, with the pixel budget of R25 and R26. -/
def chnChecks : List Check :=
  let each := fun (g : Nat → State → Bool) (t : State) => t.chains.any fun k => g k t
  let mode := fun (k : Nat) (t : State) => t.fldOf .sender (Reg.CHN_CTRL k) 31 30
  [⟨8, 0x101, [1, 8], fun t =>
      ((List.range 16).any fun k => mode k t = 3) || 1 < ((List.range 16).filter fun k => mode k t = 2).length⟩,
   ⟨8, 0x102, [1, 8], each fun k t => outside (t.chainLen k) 1 64⟩,
   ⟨8, 0x103, [1, 8], each fun k t =>
      660000000 * t.periodOf .sender < t.chainLen k * 32768 * t.slots .sender * 10 ^ 9 * 2 ^ 32⟩,
   ⟨8, 0x104, [1, 8], each fun k t => outside (t.fldOf .sender (Reg.CHN_CTRL k) 21 16) 8 32⟩,
   ⟨8, 0x105, [6, 8], each fun k t => (List.range (t.chainLen k)).any fun p =>
      let r := t.posRect k p
      (t.canvas.w : Int) < r.x + r.w || (t.canvas.h : Int) < r.y + r.h⟩,
   ⟨8, 0x106, [1, 8], fun t =>
      outside (t.ras' Reg.CHN_RAS_HACT) 256 16384 || t.ras' Reg.CHN_RAS_HFP < 16 || t.ras' Reg.CHN_RAS_HSYNC < 16 ||
      t.ras' Reg.CHN_RAS_HBP < 64 ||
      t.chains.any fun k =>
        t.ras' Reg.CHN_RAS_HACT < 256 * t.chainLen k || 22 * t.htot < 25 * 256 * t.chainLen k⟩,
   ⟨8, 0x107, [1, 8], fun t =>
      t.ras' Reg.CHN_RAS_VSYNC = 0 ||
      3 * t.periodOf .sender < (t.slots .sender * t.fieldLines + t.ras' Reg.CHN_RAS_VSYNC) * t.htot * 4 * 2 ^ 32⟩,
   ⟨8, 0x108, [1, 8], fun t => outside (t.ras' Reg.CHN_RAS_LEAD) 165000 2000000⟩]

/-! #### COR, DRV, SCAN, TRIM and DIAG (R341, R368, R392) -/

/-- The COR codes of R341. -/
def corChecks : List Check :=
  [⟨10, 0x101, [10], fun t => decide (sfld (t.rd .tile Reg.COR_TANCH) 31 16 ≤ sfld (t.rd .tile Reg.COR_TANCH) 15 0)⟩,
   ⟨10, 0x102, [10], fun t =>
      outside (t.fldOf .tile Reg.COR_WSTEP 8 0) 1 256 || 256 < t.fldOf .tile Reg.COR_WFORCE 8 0⟩,
   ⟨10, 0x103, [10], fun t => 4 < t.fldOf .tile Reg.COR_CTRL 10 8⟩,
   ⟨10, 0x104, [10], fun t => (List.range 16384).any fun c =>
      1048575 < t.decodeCode c || (0 < c && t.decodeCode c < t.decodeCode (c - 1))⟩,
   ⟨10, 0x105, [10], fun t => t.bitOf .tile Reg.COR_BSTAT 29⟩]

/-- The DRV codes of R368. -/
def drvChecks : List Check :=
  [⟨11, 0x101, [11], fun t => ([0, 1, 2] : List Nat).any fun c => outside (t.fldOf .tile (Reg.DRV_ICUR c) 9 0) 5 800⟩,
   ⟨11, 0x102, [11], fun t =>
      let knee := t.tempOf .tile Reg.DRV_KNEE
      decide (knee < 280 || 400 < knee) || outside (t.fldOf .tile Reg.DRV_SLOPE 15 0) 1 16384 ||
      65536 < t.fldOf .tile Reg.DRV_FLOOR 16 0 || t.fldOf .tile Reg.DRV_GSTEP 16 0 = 0 ||
      outside (t.fldOf .tile Reg.DRV_GUARD 15 0) 4 120⟩,
   ⟨11, 0x103, [11], fun t => 65536 < t.fldOf .tile Reg.DRV_WALL_GAIN 16 0⟩,
   ⟨11, 0x104, [11], fun t => 1 < t.fldOf .tile Reg.DRV_CTRL 5 4⟩]

/-- DOFF, PDIS and DON of a scan program (R369). -/
def State.scanTiming (p : Nat) (t : State) : Nat × Nat × Nat :=
  let w := t.rd .tile (Reg.SCAN_TIMING p)
  (fld w 31 24, fld w 23 12, fld w 7 0)

/-- LINE of R368 for a scan program. -/
def State.scanLineBad (p : Nat) (t : State) : Bool :=
  let (doff, pdis, don) := t.scanTiming p
  let gap : Int := (t.scanB p : Int) - doff - pdis - don
  doff < 8 || don < 8 || decide (gap * (5 * t.scanDiv : Nat) < 200)

/-- The SCAN codes of R368. -/
def scanChecks : List Check :=
  [⟨12, 0x101, [12], fun t => outside t.scanS 8 32 || 8 < t.scanKlog⟩,
   ⟨12, 0x102, [12], fun t => ([0, 1] : List Nat).any fun p =>
      let es := (List.range t.scanS).map fun j => t.scanLine p j
      (List.range t.scanS).any fun l => !es.contains l⟩,
   ⟨12, 0x103, [12], fun t => ([0, 1] : List Nat).any fun p => t.scanLineBad p⟩,
   ⟨12, 0x104, [1, 12], fun t => ([0, 1] : List Nat).any fun p =>
      ((List.range 5).any fun b => t.bitOf .tile Reg.SCAN_BANDSEL b == (p == 1)) &&
      (List.range (t.slots .tile)).any fun k =>
        2 * t.fldOf .tile (Reg.TIME_SLOT_LEN k) 25 0 <
          5 * t.scanDiv * (t.scanS * (32768 + t.scanK * t.scanB p))⟩]

/-- The TRIM codes of R368. -/
def trimChecks : List Check :=
  let on := fun (g : State → Bool) (t : State) => t.bitOf .tile Reg.TRIM_CTRL 31 && g t
  [⟨13, 0x101, [13], on fun t =>
      t.fldOf .tile Reg.TRIM_INT 15 0 = 0 || t.fldOf .tile Reg.TRIM_I2C_TIM 31 16 = 0 ||
      t.fldOf .tile Reg.TRIM_I2C_TIM 9 0 = 0 || t.fldOf .tile Reg.TRIM_STEP 15 0 = 0⟩,
   ⟨13, 0x102, [13], on fun t =>
      t.fldOf .tile Reg.TRIM_I2C_CFG 25 24 = 3 || 8 < t.trimWrlen || outside t.trimRdlen 2 12 ||
      ([0, 1, 2] : List Nat).any fun c => t.trimRdlen < 2 * t.fldOf .tile (Reg.TRIM_CH c) 2 0 + 2⟩,
   ⟨13, 0x103, [13], on fun t => outside (t.fldOf .tile Reg.TRIM_REF 25 16) 5 800⟩,
   ⟨13, 0x104, [13], on fun t =>
      t.fldOf .tile Reg.TRIM_LIMIT 15 0 = 0 || t.fldOf .tile Reg.TRIM_LIMIT 31 16 ≤ t.fldOf .tile Reg.TRIM_LIMIT 15 0⟩]

/-- The pad that a valid entry of a SET gives to spare 48 or 49 (R393). -/
def setPad (w : Word) (spare : Nat) : Option Nat :=
  if spare = 48 then (if bit w 31 then some (fld w 21 16) else none) else (if bit w 15 then some (fld w 5 0) else none)

/-- The DIAG codes of R392. A remap is missing from its SET when the SET does not give its pad to its spare
(DEDUCED). -/
def diagChecks : List Check :=
  let each := fun (g : Nat → Word → State → Bool) (t : State) =>
    (List.range 64).any fun b => g b (t.rd .tile (Reg.DIAG_REMAP_SET b)) t
  let spares : List Nat := [48, 49]
  [⟨14, 0x101, [14], fun t =>
      outside (t.fldOf .tile Reg.DIAG_THR 2 0) 1 5 || outside (t.fldOf .tile Reg.DIAG_THR 15 8) 10 55 || t.confirm = 0⟩,
   ⟨14, 0x102, [14], each fun _ w _ =>
      (spares.any fun x => match setPad w x with
        | none => false
        | some c => 47 < c) ||
      ((setPad w 48).isSome && setPad w 48 == setPad w 49)⟩,
   ⟨14, 0x103, [14], each fun b w t => spares.any fun x =>
      (t.sparePad b x).isSome && !t.spareTrial b x && t.sparePad b x != setPad w x⟩,
   ⟨14, 0x104, [14], each fun b w t => spares.any fun x => (setPad w x).isSome && t.spareFailed b x⟩,
   ⟨14, 0x105, [1, 14], fun t =>
      t.bitOf .tile Reg.DIAG_CTRL 30 && t.fldOf .tile Reg.DIAG_PROBE 7 0 % 2 ^ t.slots .tile = 0⟩]

/-! ### Validation (R52) -/

/-- The tables of a part, by ascending commit bit. -/
def blockChecks (c : CmtCtx) : Part → List Check
  | .sender =>
    thmChecks .sender ++ timeChecks .sender c ++ loanChecks .sender ++ sigChecks .sender ++ flowChecks ++ lyrChecks ++
      cmpChecks ++ clrChecks ++ chnChecks
  | .tile =>
    thmChecks .tile ++ timeChecks .tile c ++ loanChecks .tile ++ sigChecks .tile ++ corChecks ++ drvChecks ++ scanChecks ++
      trimChecks ++ diagChecks

/-- A folio mask sets a bit for a block that the part does not have, or a bit in [31:15] (R52). -/
def maskBad (p : Part) (mask : Word) : Bool :=
  2 ^ 15 ≤ mask.toNat || (maskBits mask).any fun b => (commitWindows p b).isEmpty

/-- The first check of the blocks that rejects (R52, R220). -/
def State.blockReject (p : Part) (mask frame at' : Word) (s : State) : Option Word :=
  let t := s.landRegs p mask
  ((blockChecks ⟨s, frame, at'⟩ p).find? fun c => (c.reads.any fun b => bit mask b) && c.fails t).map fun c =>
    rejWord c.src c.code

/-- The result word that rejects a commit, or none: the general checks, then the blocks (R52). -/
def State.validate (p : Part) (mask frame at' : Word) (s : State) : Option Word :=
  if mask = 0 then some (rejWord 0x7F 1)
  else if maskBad p mask then some (rejWord 0x7F 2)
  else if (s.chip p).commit.isSome then some (rejWord 0x7F 3)
  else if p = .sender && s.safe p then some (rejWord 0x7F 4)
  else s.blockReject p mask frame at'

end Sys2Proof.Machine
end

