-- ==== Sys2Proof/Machine/Commit.lean ====
section
/-!
DEFINITION. Commits (R46 to R52, R162, R255, R300): the latch points of both parts, what a landing commit does beside
the values it puts in force, and when it lands; with the meaning of each latch point.
-/

namespace Sys2Proof.Machine

/-! ### Latch points (R48, R245, R359) -/

/-- The latch point of frame N of a part: latch_N of the sender, the end of the presentation of frame N in the tile. A
commit for frame N + 1 lands on it (R48). -/
def State.latchAt (p : Part) (n : Word) (s : State) : Word :=
  match p with
  | .sender => s.senderLatch n
  | .tile => s.tileLatch n

/-- How many ns after now the latch point of frame N lies. -/
def State.latchDist (p : Part) (n : Word) (s : State) : Int := s.distTo p (fun n => s.latchAt p n) n

/-- From a frame on, the first whose time lies after now; the number bounds the search. -/
def firstAhead (now : Word) (f : Word → Word) : Nat → Word → Word
  | 0, n => n
  | k + 1, n => if 0 < timeDiff (f n) now then n else firstAhead now f k (n + 1)

/-- The first frame of a schedule whose time `f` lies after now, whatever its number (R162). -/
def State.firstFrame (p : Part) (f : Word → Word) (s : State) : Word :=
  let c := s.sched p
  let now := s.wall p
  let behind := timeDiff now (f c.snum) * 2 ^ 32 / (c.period : Int)
  firstAhead now f 8 (c.snum + wdi (behind - 2))

/-! ### What a commit changes beside the values (R47) -/

/-- The thresholds of the bands and of the shutdown (R402). -/
def State.thmKey (p : Part) (s : State) : List Int := [s.knee p, s.tempOf p Reg.THM_SHUT, s.tempOf p Reg.THM_RESTART]

/-- Changed thresholds set the dwell count to 0 (R402). -/
def State.landThm (p : Part) (old : State) (s : State) : State :=
  if old.thmKey p = s.thmKey p then s else s.wrFld p Reg.THM_STAT 4 0 0

/-- The state of a phase input follows its EN (R166). -/
def State.landPhase (j : Nat) (s : State) : State × List (Nat × Word) :=
  let en := s.bitOf .sender (Reg.TIME_PH_CFG j) 31
  if !en then
    ({ s with snd := { s.snd with phRun := s.snd.phRun.set j 0 } }).setPhState j 0
  else if s.phState j = 0 then
    (s.updSnd fun t => { t with phAt := t.phAt.set j (s.elapsed .sender) }).setPhState j 1
  else (s, [])

/-- The current offsets take the committed ones (R165, R168). -/
def State.landSlots (p : Part) (s : State) : State :=
  (List.range 8).foldl (fun s k => s.wr p (Reg.TIME_SLOT_CUR k) (wd (s.slotOfs p k))) s

/-- The schedule starts: the first latch point and origin are the first that lie ahead, and the raster sends the frame
of that latch point if its first line lies ahead too (R162, R255). -/
def State.schedStart (p : Part) (s : State) : State × List (Nat × Word) :=
  let l := s.firstFrame p fun n => s.latchAt p n
  let o := s.firstFrame p fun n => s.originOf p n
  let s := (s.upd p fun c => { c with nextLatch := l, nextOrigin := o, origins := [] }).wrBit p Reg.TIME_STAT 8 true
  match p with
  | .tile => (s, [])
  | .sender =>
    let s := s.updSnd fun t => { t with plans := [], winDue := [] }
    if 0 < timeDiff (s.lineAt l 0) (s.wall .sender) then s.rasBegin l false else (s, [])

/-- The schedule stops with the commit for frame F: `TIME_FRM_NUM` holds F − 1 (R162). -/
def State.schedStop (p : Part) (f : Word) (s : State) : State :=
  let s := (s.wr p Reg.TIME_FRM_NUM (f - 1)).wrBit p Reg.TIME_STAT 8 false
  let s := s.upd p fun c => { c with origins := [] }
  match p with
  | .tile => s
  | .sender => s.rasStop.updSnd fun t => { t with plans := [], winDue := [] }

/-- A landing commit that names TIME (R162, R165, R166). -/
def State.landTime (p : Part) (f : Word) (old s : State) : State × List (Nat × Word) :=
  let s := s.landSlots p
  let x : State × List (Nat × Word) := match p with
    | .tile => (s, [])
    | .sender => evEach (List.range 4) State.landPhase s
  evThen x fun s =>
    if s.schedOn p && !old.schedOn p then s.schedStart p
    else if !s.schedOn p && old.schedOn p then (s.schedStop p f, [])
    else (s, [])

/-- A raised LEAD lifts every current offset below the new lower limit (R165). -/
def State.landLead (s : State) : State :=
  (List.range 8).foldl (fun s k =>
    if s.slotCur .sender k < s.slotFloor then s.wr .sender (Reg.TIME_SLOT_CUR k) (wdi s.slotFloor) else s) s

/-- The steps of the layers (R208), and the held mark of descriptors that name no flow. -/
def State.landLayers (s : State) : State :=
  (List.range 64).foldl (fun s d =>
    let s := s.wr .sender (Reg.LYR_STEP_X d) (wd (stepOf (s.lyrCrop d).w (s.lyrDst d).w % 2 ^ 20))
    let s := s.wr .sender (Reg.LYR_STEP_Y d) (wd (stepOf (s.lyrCrop d).h (s.lyrDst d).h % 2 ^ 20))
    if s.lyrOn d && (s.lyrFlow d).isSome then s else s.wrBit .sender (Reg.LYR_STAT d) 31 false) s

/-- A chain whose map names a working pipe again is served by it: fail-over ends, and its loans are renewed (R207,
R302). -/
def State.landPipes (s : State) : State :=
  let ok := fun (k : Nat) => !s.isChain k || (s.mapped k ≤ 16 && !s.pipeFailed (s.mapped k))
  let s := match s.foChain with
    | none => s
    | some k => if ok k then s.wrBit .sender Reg.CMP_FO_STAT 31 false else s
  s.updSnd fun t => { t with noPipe := (List.range 16).map fun k => t.noPipe.getD k false && !ok k }

/-- The sender's LOAN state follows EN, outside its safe and lehr states (R302, R405); RELEASE copies still due are not
sent in OFF. -/
def State.landLoanS (s : State) : State × List (Nat × Word) :=
  let st := s.loanSt
  let st2 := if st = 2 then 2 else if s.lehr .sender then 0 else (s.bitOf .sender Reg.LOAN_CTRL 31).toNat
  if st = st2 then (s, [])
  else
    let s := s.updSnd fun t => { t with release := [] }
    (s.wrFld .sender Reg.LOAN_STAT 31 30 st2, [(Ev.LOAN_STATE, 0)])

/-- A new orphan time that has already passed raises LOAN_ORPHAN at the landing (R309). -/
def State.landLoanT (old s : State) : State × List (Nat × Word) :=
  if s.rd .tile Reg.LOAN_ORPHAN_TO ≠ old.rd .tile Reg.LOAN_ORPHAN_TO && s.orphanDue then
    (s.updTil fun t => { t with orphan := true }, [(Ev.LOAN_ORPHAN, 0)])
  else (s, [])

/-- The banks exchange roles if LOADED is 1 (R335, R340, R440). -/
def State.landCor (s : State) : State × List (Nat × Word) :=
  if s.bitOf .tile Reg.COR_BSTAT 30 then
    let b := s.corAct
    let s := (s.wrBit .tile Reg.COR_BSTAT 31 (!b)).wrBit .tile Reg.COR_BSTAT 30 false
    s.corSwapped.bankActive
  else (s, [])

/-- What a landing commit does in the sender's blocks (R135, R207, R208, R302). -/
def State.landSender (mask f : Word) (old s : State) : State × List (Nat × Word) :=
  let on := fun (b : Nat) (g : State → State) (s : State) => if bit mask b then g s else s
  let s := on 4 (State.flowLand ((List.range 16).map fun i => old.flowKey i)) s
  let s := on 5 State.landLayers s
  let s := if bit mask 6 || bit mask 8 then s.landPipes else s
  let s := on 8 State.landLead s
  evThen (if bit mask 1 then State.landTime .sender f old s else (s, [])) fun s =>
    if bit mask 2 then s.landLoanS else (s, [])

/-- What a landing commit does in the tile's blocks (R309, R335, R367, R385, R390). -/
def State.landTile (mask f : Word) (old s : State) : State × List (Nat × Word) :=
  evThen (if bit mask 1 then State.landTime .tile f old s else (s, [])) fun s =>
    evThen (if bit mask 2 then State.landLoanT old s else (s, [])) fun s =>
      evThen (if bit mask 10 then s.landCor else (s, [])) fun s =>
        let s := if bit mask 12 && !s.bitOf .tile Reg.SCAN_CFG 31 then s.scanStop else s
        let s := if bit mask 13 then s.landTrim (old.bitOf .tile Reg.TRIM_CTRL 31) else s
        evThen (if bit mask 14 then s.diagCommit else (s, [])) fun s => (s.probeChoose, [])

/-- A commit of a mask lands with frame number F (R33, R47), in every block at once: the values, the counters, and what the
blocks do. While no schedule runs, AUTO_RESTART at 1 may end the lehr state at once (R406). -/
def State.land (p : Part) (mask f : Word) (s : State) : State × List (Nat × Word) :=
  let t := s.landRegs p mask
  let t := t.upd p fun c => { c with commit := none }
  let t := (t.wr p Reg.SYS_CMT_STAT 0).bump p Reg.SYS_CMT_GEN 1
  let t := State.landThm p s t
  let x := match p with
    | .sender => State.landSender mask f s t
    | .tile => State.landTile mask f s t
  let x := evThen x fun s => if s.schedOn p then (s, []) else s.lehrExit p
  (x.1.catStart p, (Ev.CMT_APPLIED, 0) :: x.2)

/-- What a change of the timing mode changes (R255). -/
def State.timingKey (s : State) : List Word :=
  [s.rd .sender Reg.TIME_FRM_PER, s.rd .sender Reg.TIME_FRM_PERF, s.rd .sender Reg.TIME_FRM_START,
   s.rd .sender Reg.TIME_FRM_SNUM, s.rd .sender Reg.TIME_FRM_CTRL &&& 0xF, s.rd .sender Reg.CHN_RAS_HACT,
   s.rd .sender Reg.CHN_RAS_HFP, s.rd .sender Reg.CHN_RAS_HSYNC, s.rd .sender Reg.CHN_RAS_HBP,
   s.rd .sender Reg.CHN_RAS_VBP, s.rd .sender Reg.CHN_RAS_VFP, s.rd .sender Reg.CHN_RAS_VSYNC,
   s.rd .sender Reg.CHN_RAS_LEAD]

/-- MODE, LEN, FOLD and SCAN of a port that is a chain, 0 of every other port (R255). -/
def State.chainKey (s : State) : List Word :=
  (List.range 16).map fun k => if s.isChain k then s.rd .sender (Reg.CHN_CTRL k) else 0

/-- A commit has changed the timing mode while the schedule runs (R255). -/
def State.timingChanged (old s : State) : Bool :=
  old.schedOn .sender && s.schedOn .sender && (old.timingKey ≠ s.timingKey || old.chainKey ≠ s.chainKey)

/-! ### When a pending commit lands (R48, R49) -/

/-- The wall time from which on a latch point satisfies both conditions of R49: the later of W and the earliest time. -/
def landFrom (w e : Word) : Word := if atOrAfter w e then w else e

/-- The pending commit of a part lands on the latch point at wall time `t` that begins frame F: the first at or after W,
compared as the latch point passes, and at or after the earliest time (R48, R49). From 2³¹ ns after the earliest time on,
both have passed, for W lies no further ahead (R83). -/
def Pending.landsAt (t f : Word) (count : Nat) (q : Pending) : Bool :=
  match q.landing with
  | .byFrame => q.frame == f
  | .byTime w e => atOrAfter t (landFrom w (wd (e / ns))) || decide (e + 2 ^ 31 * ns ≤ count)

/-- The pending commit that lands on the latch point of frame N, if one does. -/
def State.landing (p : Part) (n : Word) (s : State) : Option Pending :=
  match (s.chip p).commit with
  | none => none
  | some q => if q.landsAt (s.latchAt p n) (n + 1) (s.chip p).count then some q else none

/-- The landing of a latch point. -/
def State.landIfDue (p : Part) (n : Word) (s : State) : State × List (Nat × Word) :=
  match s.landing p n with
  | none => (s, [])
  | some q => s.land p q.mask (n + 1)

/-- The first frame whose latch point satisfies a condition on its distance from now in ns, from frame n on. -/
def firstLatch (dist : Word → Int) (least : Int) : Nat → Word → Word
  | 0, n => n
  | k + 1, n => if least ≤ dist n then n else firstLatch dist least k (n + 1)

/-- The frame whose latch point precedes it that a commit with wall time W chooses: its latch point is the first at or
after W and at least `margin` ns after now (R49, R57). -/
def State.chooseFrame (p : Part) (w : Word) (margin : Int) (s : State) : Word :=
  let now := s.wall p
  let n := firstLatch (fun n => s.latchDist p n) (max (timeDiff w now) margin) 1024 (s.chip p).nextLatch
  n + 1

/-- The wall time at which a commit applies while no schedule runs: W, or now if W is past (R49). -/
def State.applyTime (p : Part) (w : Word) (s : State) : Word := if s.reachedAt p w then s.wall p else w

/-- A commit becomes pending, and its registers show it (R51, R53). -/
def State.setPending (p : Part) (q : Pending) (s : State) : State :=
  let s := s.upd p fun c => { c with commit := some q }
  let s := s.wr p Reg.SYS_CMT_STAT (wd (2 ^ 31 + q.remote.toNat * 2 ^ 30 + fld q.tag 15 0))
  let s := (s.wr p Reg.SYS_CMT_MASK q.mask).wr p Reg.SYS_CMT_PFRAME q.frame
  match p with
  | .sender => s
  | .tile => if bit q.mask 14 then s.updLmp fun l => { l with newMaps := [] } else s

/-- A result word of CMT, BCST or a swap: the low 31 bits of a frame number, or a rejection (R50, R52). -/
def frameResult (f : Word) : Word := wd (fld f 30 0)

/-- CMT or BCST is rejected with a result word (R52, R69). -/
def State.cmtReject (p : Part) (w : Word) (s : State) : State :=
  ((s.wr p Reg.SYS_CMT_LAST w).bump p Reg.SYS_CMT_REJ 1).raise p Ev.CMT_REJECTED w

/-- The frame number that a commit with wall time W gets (R49, R161). -/
def State.cmtFrame (p : Part) (w : Word) (s : State) : Word :=
  if s.schedOn p then s.chooseFrame p w 1000 else s.frameNum p

/-- The result that CMT would return (R50, R89). -/
def State.cmtResult (p : Part) (mask w : Word) (s : State) : Word :=
  let f := s.cmtFrame p w
  (s.validate p mask f (s.applyTime p w)).getD (frameResult f)

/-- CMT completes: its result word and the pending commit (R49, R50, R88). -/
def State.cmt (p : Part) (mask w : Word) (s : State) : State × Word :=
  let f := s.cmtFrame p w
  match s.validate p mask f (s.applyTime p w) with
  | some r => (s.cmtReject p r, r)
  | none =>
    let e := (s.chip p).count + 1000 * ns
    let s := s.setPending p ⟨mask, f, .byTime (s.applyTime p w) e, false, 0⟩
    (s.wr p Reg.SYS_CMT_LAST (frameResult f), frameResult f)

/-! ### Swaps (R55, R56) -/

/-- Whether a swap for frame F comes too late: less than 1,000 ns before the tile's latch point for F, or after it
(R55). -/
def State.swapLate (f : Word) (s : State) : Bool :=
  decide ((f - 1 - s.tile.nextLatch).toInt < 0) || decide (s.latchDist .tile (f - 1) < 1000)

/-- A valid swap is pending for its frame; while no schedule runs it applies at once, with the tile's current frame
number (R55). -/
def State.swapPend (tag mask f : Word) (s : State) : State :=
  if s.schedOn .tile then s.setPending .tile ⟨mask, f, .byFrame, true, tag⟩
  else
    let n := s.frameNum .tile
    let s := s.setPending .tile ⟨mask, n, .byTime (s.wall .tile) 0, true, tag⟩
    evRaise .tile (s.land .tile mask n)

/-! ### The latch points -/

/-- The origins and slot offsets that the sender's latch point of frame N fixes, for frames from `o` on (R160, R249). -/
def fixOrigins (n : Word) : Nat → Word → State → State
  | 0, _, s => s
  | k + 1, o, s =>
    if (n - o).toInt < 0 then s
    else
      let s :=
        if (AMap.find s.sender.origins o.toNat).isSome then s
        else
          let ofs := (List.range 8).map fun j => s.rd .sender (Reg.TIME_SLOT_CUR j)
          let s := s.upd .sender fun c =>
            { c with origins := AMap.put c.origins o.toNat (s.baseOf .sender o, s.originOf .sender o) }
          s.updSnd fun t => { t with plans := AMap.put t.plans o.toNat ofs }
      fixOrigins n k (o + 1) s

/-- The sender's latch point of frame N (R245, R249, R254, R255, R403, R406): the frame is closed, a commit lands, the
applied band follows, buffers are selected and the next frame begins. -/
def State.senderLatchPoint (n : Word) (s : State) : State × List (Nat × Word) :=
  let at' := s.senderLatch n
  let s := fixOrigins n 16 s.sender.nextOrigin s
  evThen (s.rasClose n) fun s =>
    let (t, e1) := s.landIfDue .sender n
    let skip := State.timingChanged s t
    evThen (t, e1) fun s =>
      evThen (s.applyBand .sender) fun s =>
        evThen (evThen (s.foLatch.bandDram .sender) State.bwLatch) fun s =>
          evThen (s.lehrExit .sender) fun s =>
            evThen (evEach (List.range 16) (State.selectFlow at') s) fun s =>
              if s.schedOn .sender then
                (s.upd .sender fun c => { c with nextLatch := n + 1 }).rasBegin (n + 1) skip
              else (s, [])

/-- The tile's latch point that ends its presentation of frame N (R327, R360, R403, R406). -/
def State.tileLatchPoint (n : Word) (s : State) : State × List (Nat × Word) :=
  evThen (s.diagCount.landIfDue .tile n) fun s =>
    evThen (s.applyBand .tile) fun s =>
      evThen s.chooseProgram fun s =>
        evThen s.moveWeights fun s =>
          evThen s.moveGain fun s =>
            let s := ([0, 1, 2] : List Nat).foldl (fun s c => s.moveTrim c) s
            evThen (s.diagLatch.lehrExit .tile) fun s =>
              ((if s.schedOn .tile then s.upd .tile fun c => { c with nextLatch := n + 1 } else s), [])

/-- FRAME_LATCH (R48, R160): the sender's next latch point, once its wall time is reached. -/
def execFrameLatch (s : State) : Host.Outcome State Fault Refusal :=
  .next (s.when' .sender fun s =>
    let n := s.sender.nextLatch
    if s.schedOn .sender && s.reachedAt .sender (s.senderLatch n) then
      let x := s.senderLatchPoint n
      evRaise .sender (x.1, (Ev.FRAME_LATCH, 0) :: x.2)
    else s)

/-- TILE_LATCH_POINT (R359, R360): the tile's next latch point, once its wall time is reached. -/
def execTileLatchPoint (s : State) : Host.Outcome State Fault Refusal :=
  .next (s.when' .tile fun s =>
    let n := s.tile.nextLatch
    if s.schedOn .tile && s.reachedAt .tile (s.tileLatch n) then
      let x := s.tileLatchPoint n
      evRaise .tile (x.1, (Ev.FRAME_LATCH, 0) :: x.2)
    else s)

/-- COMMIT_W_REACHED (R49): while no schedule runs, a pending commit applies at its wall time. -/
def execCommitWReached (p : Part) (s : State) : Host.Outcome State Fault Refusal :=
  .next (s.when' p fun s =>
    match (s.chip p).commit with
    | none => s
    | some q =>
      match q.landing with
      | .byFrame => s
      | .byTime w _ => if !s.schedOn p && s.reachedAt p w then evRaise p (s.land p q.mask q.frame) else s)

end Sys2Proof.Machine
end

