-- ==== Sys2Proof/Machine/Cmd.lean ====
section
/-!
DEFINITION. Remote folio writes and wall-wide swaps (R54 to R57, R281), the receive queues (R95, R96), and what the
sender does with the tiles' answers (R56, R69, R95); with the meaning of each command.
-/

namespace Sys2Proof.Machine

/-! ### Receive queues (R95, R96) -/

/-- The number of messages that a receive queue holds (R95). -/
def rxCap : Part → Nat
  | .sender => 256
  | .tile => 16

/-- A message arrives at the receive queue of a part (R96). -/
def State.rxPush (p : Part) (msg : List Word) (s : State) : State :=
  if rxCap p ≤ (s.chip p).rxq.length then (s.bump p Reg.SYS_TRCV_DROP 1).raise p Ev.TRCV_OVF
  else (s.upd p fun c => { c with rxq := c.rxq ++ [msg] }).setLevel p Ev.TRCV_READY true

/-- The header word of a message (R95). -/
def msgHeader (kind n tag : Nat) : Word := wd (kind * 2 ^ 28 + n % 256 * 2 ^ 16 + tag % 2 ^ 16)

/-! ### The tag state (R55) -/

/-- STATE of the tag: 0 IDLE, 1 OPEN, 2 CLOSED, 3 BROKEN (R53). -/
def State.rwState (s : State) : Nat := s.fldOf .tile Reg.SYS_RW_STAT 31 30

/-- The writer of the current tag (R53). -/
def State.rwWriter (s : State) : Letter := if s.bitOf .tile Reg.SYS_RW_STAT 29 then .b else .a

/-- A tag is the current one; in IDLE there is none (R55). -/
def State.rwCurrent (tag : Nat) (s : State) : Bool := s.rwState ≠ 0 && s.fldOf .tile Reg.SYS_RW_STAT 15 0 = tag

/-- A tag becomes the current one, with its writer (R55). -/
def State.rwBegin (st tag n seq : Nat) (l : Letter) (s : State) : State :=
  let s := s.wr .tile Reg.SYS_RW_STAT (wd (st * 2 ^ 30 + letterBit l * 2 ^ 29 + tag))
  let s := s.wr .tile Reg.SYS_RW_COUNT (wd n)
  s.updTil fun t => { t with rwSeq := seq }

/-- STATE set. -/
def State.rwSet (st : Nat) (s : State) : State := s.wrFld .tile Reg.SYS_RW_STAT 31 30 st

/-- The tag state after a WRITE of n words, d of them discarded (R55). -/
def State.rwWrite (l : Letter) (tag seq n d : Nat) (s : State) : State :=
  if tag = 0 then s
  else if 0 < d then
    if s.rwCurrent tag then (s.bump .tile Reg.SYS_RW_COUNT (n - d)).rwSet 3 else s.rwBegin 3 tag (n - d) seq l
  else if !s.rwCurrent tag then s.rwBegin 1 tag n seq l
  else if s.rwState = 1 then
    if seq = (s.til.rwSeq + 1) % 2 ^ 16 then
      (s.bump .tile Reg.SYS_RW_COUNT n).updTil fun t => { t with rwSeq := seq }
    else (s.rwSet 3).raise .tile Ev.RW_GAP
  else s.rwSet 3

/-- Consecutive folio words written as FWR would, with the number that R51 discards. A word where no block is mapped
goes nowhere. -/
def cmdWords (a : Word) : List Word → State → State × Nat
  | [], s => (s, 0)
  | v :: vs, s =>
    let (s, d) :=
      if s.alive .tile && folioMapped .tile a.toNat && a.toNat % 4 = 0 then s.folioWrite .tile a.toNat v else (s, false)
    let (s, n) := cmdWords (a + 4) vs s
    (s, n + d.toNat)

/-- Consecutive folio words read as FRD would; a word where no block is mapped is a free value. -/
def cmdReads (a : Word) : Nat → State → State × List Word
  | 0, s => (s, [])
  | n + 1, s =>
    let (v, s) := if folioMapped .tile a.toNat && a.toNat % 4 = 0 then s.folioRead .tile a.toNat else s.free 22
    let (s, vs) := cmdReads (a + 4) n s
    (s, v :: vs)

/-- The report of CLOSE and of a refused swap (R56, R95). -/
def State.rwReport (l : Letter) (tag : Nat) (w f : Word) (s : State) : State :=
  s.telForm l 6 tag [s.rd .tile Reg.SYS_RW_STAT, s.rd .tile Reg.SYS_RW_COUNT, w, f]

/-- A swap is refused (R56). -/
def State.swapRefuse (l : Letter) (tag : Nat) (w f : Word) (s : State) : State :=
  let s := ((s.wr .tile Reg.SYS_CMT_LAST w).bump .tile Reg.SYS_CMT_REJ 1).raise .tile Ev.SWAP_REFUSED w
  s.rwReport l tag w f

/-- The code that refuses a swap before its mask is validated (R55). -/
def State.swapCode (l : Letter) (tag : Nat) (f : Word) (s : State) : Option Nat :=
  if !s.rwCurrent tag then some 0x12
  else if s.rwWriter ≠ l then some 0x13
  else if s.rwState ≠ 2 then some 0x10
  else if s.tile.commit.isSome then some 3
  else if s.schedOn .tile && s.swapLate f then some 0x11
  else none

/-- A SWAP of a mask under a tag for frame F (R55, R56). -/
def State.swap (l : Letter) (tag : Nat) (mask f : Word) (s : State) : State :=
  match s.swapCode l tag f with
  | some c => s.swapRefuse l tag (rejWord 0x7F c) f
  | none =>
    let n := if s.schedOn .tile then f else s.frameNum .tile
    match s.validate .tile mask n (s.wall .tile) with
    | some w => s.swapRefuse l tag w f
    | none =>
      let s := (s.wr .tile Reg.SYS_RW_STAT 0).wr .tile Reg.SYS_RW_COUNT 0
      let s := s.wr .tile Reg.SYS_CMT_LAST (frameResult n)
      s.swapPend (wd tag) mask f

/-- A CMD packet of a code arrives at a port of the tile; WRITE, CLOSE and SWAP act for the loan holder, and not in the
safe state (R54, R281, R424). -/
def State.cmdArrive (port : LnkPort) (pkt : Packet) (code : Nat) (open' : Bool) (f : Letter → State → State) (s : State) :
    State :=
  match port.part with
  | .sender => s
  | .tile =>
    s.arriveTile port.idx pkt (Pkt.is pkt tCMD code) fun s =>
      let l := letterOfPort port.idx
      if open' || (s.fromHolder l && !s.safe .tile) then f l s else s

/-! ### BCST (R57, R90) -/

/-- What rejects a BCST (R52, R57): SAFE, BCST_CHAIN, BCST_DESC. -/
def State.bcstReject (chains tmask : Word) (tag : Nat) (s : State) : Option Word :=
  if s.safe .sender then some (rejWord 0x7F 4)
  else if (List.range 16).any fun k => bit chains k && !s.isChain k then some (rejWord 0x7F 0x20)
  else if tag = 0 || tmask = 0 || maskBad .tile tmask then some (rejWord 0x7F 0x21)
  else none

/-- The frame that BCST chooses (R57). -/
def State.bcstFrame (w : Word) (s : State) : Word :=
  if s.schedOn .sender then s.chooseFrame .sender w 50000 else s.frameNum .sender

/-- SWAP goes out on every named chain (R57, R281). -/
def State.bcstSend (chains tmask f : Word) (tag : Nat) (s : State) : State :=
  (List.range 16).foldl (fun s k =>
    if bit chains k then
      s.sendOpen k (mkPacket tCMD destAll 0 0x7E (wd (5 * 2 ^ 28 + tag * 2 ^ 8)) [tmask, f])
    else s) s

/-- BCST of a descriptor with wall time W: its result word (R57). -/
def State.bcst (w chains tmask : Word) (tag : Nat) (s : State) : State × Word :=
  match s.bcstReject chains tmask tag with
  | some r => ((s.wr .sender Reg.SYS_CMT_LAST r).raise .sender Ev.CMT_REJECTED r, r)
  | none =>
    let f := s.bcstFrame w
    ((s.wr .sender Reg.SYS_CMT_LAST (frameResult f)).bcstSend chains tmask f tag, frameResult f)

/-! ### The meanings -/

/-- CMD_WRITE (R54, R55). -/
def execCmdWrite (port : LnkPort) (pkt : Packet) (s : State) : Host.Outcome State Fault Refusal :=
  .next (s.cmdArrive port pkt 1 false fun l s =>
    let ws := (Pkt.body pkt).drop 2
    let (s, d) := cmdWords (Pkt.w pkt 2) ws s
    if s.alive .tile then s.rwWrite l (Pkt.tag pkt) (fld (Pkt.w pkt 3) 15 0) ws.length d else s)

/-- CMD_READ (R54, R95): the words go back in a TEL packet. -/
def execCmdRead (port : LnkPort) (pkt : Packet) (s : State) : Host.Outcome State Fault Refusal :=
  .next (s.cmdArrive port pkt 2 true fun l s =>
    let n := fld (Pkt.w pkt 3) 31 16
    if 1 ≤ n && n ≤ 64 then
      let (s, vs) := cmdReads (Pkt.w pkt 2) n s
      s.telForm l 5 (Pkt.tag pkt) vs
    else s)

/-- CMD_CLOSE (R55). -/
def execCmdClose (port : LnkPort) (pkt : Packet) (s : State) : Host.Outcome State Fault Refusal :=
  .next (s.cmdArrive port pkt 3 false fun l s =>
    let tag := Pkt.tag pkt
    let s :=
      if s.rwCurrent tag then
        if s.rwState = 1 && s.rd .tile Reg.SYS_RW_COUNT = Pkt.w pkt 2 then s.rwSet 2 else s.rwSet 3
      else s
    s.rwReport l tag 0 0)

/-- CMD_SWAP (R55, R56). -/
def execCmdSwap (port : LnkPort) (pkt : Packet) (s : State) : Host.Outcome State Fault Refusal :=
  .next (s.cmdArrive port pkt 5 false fun l s => s.swap l (Pkt.tag pkt) (Pkt.w pkt 2) (Pkt.w pkt 3))

/-- CMD_MSG (R54, R95, R96). -/
def execCmdMsg (port : LnkPort) (pkt : Packet) (s : State) : Host.Outcome State Fault Refusal :=
  .next (s.cmdArrive port pkt 4 true fun l s =>
    let ws := ((Pkt.body pkt).drop 2).take (fld (Pkt.w pkt 3) 23 16)
    s.rxPush .tile (msgHeader 4 ws.length (Pkt.tag pkt) :: wd (letterBit l * 2 ^ 8 + 0x7E) :: ws))

/-- A TEL packet that carries a message for the cores arrives at chain port k (R95, R418). -/
def State.telMessage (k : Nat) (pkt : Packet) (s : State) : State :=
  let ws := telPayload pkt
  s.rxPush .sender (msgHeader (Pkt.kind pkt) ws.length (Pkt.tag pkt) :: wd (k * 2 ^ 16 + Pkt.src pkt) :: ws)

/-- TEL_MSG (R95). -/
def execTelMsg (k : Fin 16) (pkt : Packet) (s : State) : Host.Outcome State Fault Refusal :=
  .next (s.arriveSender k.val pkt (Pkt.is pkt tTEL 4) fun s => (s.telTrack k.val pkt).telMessage k.val pkt)

/-- TEL_READ_DATA (R95). -/
def execTelReadData (k : Fin 16) (pkt : Packet) (s : State) : Host.Outcome State Fault Refusal :=
  .next (s.arriveSender k.val pkt (Pkt.is pkt tTEL 5) fun s => (s.telTrack k.val pkt).telMessage k.val pkt)

/-- TEL_REPORT (R69, R95): the report of a refused swap raises SWAP_REPORT. -/
def execTelReport (k : Fin 16) (pkt : Packet) (s : State) : Host.Outcome State Fault Refusal :=
  .next (s.arriveSender k.val pkt (Pkt.is pkt tTEL 6) fun s =>
    let s := (s.telTrack k.val pkt).telMessage k.val pkt
    if bit ((telPayload pkt).getD 2 0) 31 then s.raise .sender Ev.SWAP_REPORT else s)

end Sys2Proof.Machine
end

