-- ==== Sys2Proof/Machine/Operands.lean ====
section
/-!
DEFINITION. Operand forms of the Folko instructions (R72, R73, R80, R86, R91, R92, R97): immediates, branch targets,
addresses with their checks, event IDs, descriptors; and the encodings of R74 and R75, with the words that no row gives
a meaning.
-/

namespace Sys2Proof.Machine

/-! ### Immediates and targets (R73) -/

/-- imm16 sign-extended. -/
def sext16 (i : BitVec 16) : Word := i.signExtend 32
/-- imm16 zero-extended. -/
def zext16 (i : BitVec 16) : Word := i.setWidth 32
/-- The target of a branch at `pc` (R73). -/
def branchTo (pc : Word) (off : BitVec 16) : Word := pc + 4 * off.signExtend 32
/-- The target of JMP or CALL at `pc` (R73). -/
def jumpTo (pc : Word) (off : BitVec 26) : Word := pc + 4 * off.signExtend 32

/-! ### Address checks (R39, R80, R105) -/

/-- Codes of faults (R105). -/
def fILLEGAL : Nat := 1
def fIFETCH : Nat := 2
def fDMEM : Nat := 3
def fDALIGN : Nat := 4
def fFOLIO : Nat := 5
def fFALIGN : Nat := 6
def fEVENTID : Nat := 7
def fTRAP : Nat := 8
def fPART : Nat := 0xA

/-- Bits [1:0] of an address are 0. -/
def aligned (a : Word) : Bool := a.toNat % 4 == 0

/-- The fault of a descriptor or buffer of `n` words that must lie wholly inside data memory, the lower code first
(R93, R95, R106). -/
def dmemFault (p : Part) (a : Word) (n : Nat) : Option Nat :=
  if !(a.toNat < dmemSize p) || dmemSize p < a.toNat + 4 * n then some fDMEM
  else if !aligned a then some fDALIGN
  else none

/-- The fault of one word of data memory. -/
def wordFault (p : Part) (a : Word) : Option Nat :=
  if !(a.toNat < dmemSize p) then some fDMEM else if !aligned a then some fDALIGN else none

/-- The fault of an FRD or FWR (R80). -/
def folioFault (p : Part) (a : Word) : Option Nat :=
  if !folioMapped p a.toNat then some fFOLIO else if !aligned a then some fFALIGN else none

/-- The highest event ID of a part (R85). -/
def evMax : Part → Nat
  | .sender => 0x5FF
  | .tile => 0x43F

/-- The software events of a part (R86). -/
def swEvent (p : Part) (id : Nat) : Bool :=
  match p with
  | .sender => 0x5E0 ≤ id && id ≤ 0x5FF
  | .tile => 0x430 ≤ id && id ≤ 0x43F

/-! ### Instruction words (R72, R74, R75) -/

/-- A word of format A. -/
def wordA (op : Nat) (d a b : BitVec 5) (fn : Nat) : Word :=
  wd (op * 2 ^ 26 + d.toNat * 2 ^ 21 + a.toNat * 2 ^ 16 + b.toNat * 2 ^ 11 + fn)
/-- A word of format I. -/
def wordI (op : Nat) (d a : BitVec 5) (imm : BitVec 16) : Word :=
  wd (op * 2 ^ 26 + d.toNat * 2 ^ 21 + a.toNat * 2 ^ 16 + imm.toNat)
/-- A word of format W. -/
def wordW (op : Nat) (d a : BitVec 5) (cond : Nat) (ev : BitVec 12) : Word :=
  wd (op * 2 ^ 26 + d.toNat * 2 ^ 21 + a.toNat * 2 ^ 16 + cond * 2 ^ 12 + ev.toNat)

/-- Fields of an instruction word. -/
def fOp (w : Word) : Nat := fld w 31 26
def fD (w : Word) : BitVec 5 := w.extractLsb' 21 5
def fA (w : Word) : BitVec 5 := w.extractLsb' 16 5
def fB (w : Word) : BitVec 5 := w.extractLsb' 11 5
def fFn (w : Word) : Nat := fld w 10 0
def fImm (w : Word) : BitVec 16 := w.setWidth 16
def fOff (w : Word) : BitVec 26 := w.setWidth 26
def fCond (w : Word) : Nat := fld w 15 12
def fEv (w : Word) : BitVec 12 := w.setWidth 12

/-- The ALU operation of an fn (R75). -/
def decodeAlu (c : CoreId) (d a b : BitVec 5) : Nat → Option Instr
  | 0x000 => some (.add c d a b)
  | 0x001 => some (.sub c d a b)
  | 0x002 => some (.and c d a b)
  | 0x003 => some (.or c d a b)
  | 0x004 => some (.xor c d a b)
  | 0x008 => some (.shl c d a b)
  | 0x009 => some (.shr c d a b)
  | 0x00A => some (.sar c d a b)
  | 0x010 => some (.mul c d a b)
  | 0x011 => some (.mulhu c d a b)
  | 0x018 => some (.min c d a b)
  | 0x019 => some (.max c d a b)
  | 0x01A => some (.slt c d a b)
  | 0x01B => some (.sltu c d a b)
  | 0x020 => if b = 0 then some (.clz c d a) else none
  | _ => none

/-- An instruction if its unused fields are 0 (R72). -/
def whenZero (ok : Bool) (i : Instr) : Option Instr := if ok then some i else none

/-- WAITE of a cond (R84). -/
def decodeWaite (c : CoreId) (w : Word) : Option Instr :=
  match fCond w with
  | 0 => some (.waiteTimed c (fD w) (fA w) (fEv w))
  | 1 => whenZero (fA w == 0) (.waiteNotime c (fD w) (fEv w))
  | 2 => whenZero (fA w == 0) (.waitePoll c (fD w) (fEv w))
  | _ => none

/-- EVSET or EVACK of a cond (R86). -/
def decodeEv (mk : Bool → BitVec 5 → BitVec 12 → Instr) (w : Word) : Option Instr :=
  match fCond w with
  | 0 => whenZero (fD w == 0 && fA w == 0) (mk false 0 (fEv w))
  | 1 => whenZero (fD w == 0 && fEv w == 0) (mk true (fA w) 0)
  | _ => none

/-- NOW of an fn; the value of fn 0 lies `lag` ns back (R101). -/
def decodeNow (c : CoreId) (lag : Fin 9) (w : Word) : Option Instr :=
  if fA w = 0 ∧ fB w = 0 then
    match fFn w with
    | 0 => some (.nowWall c (fD w) lag)
    | 1 => some (.nowFrame c (fD w))
    | 2 => some (.nowCycles c (fD w))
    | _ => none
  else none

/-- What core c issues for an instruction word (R74): none for a word that raises ILLEGAL. -/
def decodeFolko (c : CoreId) (lag : Fin 9) (w : Word) : Option Instr :=
  let d := fD w
  let a := fA w
  let b := fB w
  let i := fImm w
  match fOp w with
  | 0x00 => decodeAlu c d a b (fFn w)
  | 0x01 => some (.addi c d a i)
  | 0x02 => some (.andi c d a i)
  | 0x03 => some (.ori c d a i)
  | 0x04 => some (.xori c d a i)
  | 0x05 => whenZero (a == 0) (.lui c d i)
  | 0x06 => whenZero (i.toNat < 0x60) (.shi c d a i)
  | 0x08 => some (.ldw c d a i)
  | 0x09 => some (.stw c d a i)
  | 0x0A => some (.frd c d a i)
  | 0x0B => some (.fwr c d a i)
  | 0x10 => some (.beq c d a i)
  | 0x11 => some (.bne c d a i)
  | 0x12 => some (.blt c d a i)
  | 0x13 => some (.bge c d a i)
  | 0x14 => some (.bltu c d a i)
  | 0x15 => some (.bgeu c d a i)
  | 0x18 => some (.jmp c (fOff w))
  | 0x19 => some (.call c (fOff w))
  | 0x1A => whenZero (b == 0 && fFn w == 0) (.jr c d a)
  | 0x20 => whenZero (d == 0 && i == 0) (.waitt c a)
  | 0x21 => decodeWaite c w
  | 0x22 => whenZero (fFn w == 0) (.cmt c d a b)
  | 0x23 => whenZero (fFn w == 0) (.cmtq c d a b)
  | 0x24 => whenZero (fFn w == 0) (.bcst c d a b)
  | 0x25 => whenZero (fFn w == 0) (.tsnd c d a b)
  | 0x26 => whenZero (b == 0 && fFn w == 0) (.trcv c d a)
  | 0x27 => decodeEv (fun r a e => .evset c r a e) w
  | 0x28 => decodeEv (fun r a e => .evack c r a e) w
  | 0x29 => whenZero (b == 0 && fFn w == 0) (.xfer c d a)
  | 0x2A => whenZero (fOff w == 0) (.fence c)
  | 0x2B => decodeNow c lag w
  | 0x3E => some (.brk c (fOff w))
  | 0x3F => some (.trap c (fOff w))
  | _ => none

/-- A word of format J. -/
def wordJ (op : Nat) (off : BitVec 26) : Word := wd (op * 2 ^ 26 + off.toNat)

/-- The instruction word of R74 and R75 for what a core issues; none for a command that is no instruction. -/
def encodeFolko (i : Instr) : Option Word :=
  match i with
  | .add _ d a b => some (wordA 0x00 d a b 0x000)
  | .sub _ d a b => some (wordA 0x00 d a b 0x001)
  | .and _ d a b => some (wordA 0x00 d a b 0x002)
  | .or _ d a b => some (wordA 0x00 d a b 0x003)
  | .xor _ d a b => some (wordA 0x00 d a b 0x004)
  | .shl _ d a b => some (wordA 0x00 d a b 0x008)
  | .shr _ d a b => some (wordA 0x00 d a b 0x009)
  | .sar _ d a b => some (wordA 0x00 d a b 0x00A)
  | .mul _ d a b => some (wordA 0x00 d a b 0x010)
  | .mulhu _ d a b => some (wordA 0x00 d a b 0x011)
  | .min _ d a b => some (wordA 0x00 d a b 0x018)
  | .max _ d a b => some (wordA 0x00 d a b 0x019)
  | .slt _ d a b => some (wordA 0x00 d a b 0x01A)
  | .sltu _ d a b => some (wordA 0x00 d a b 0x01B)
  | .clz _ d a => some (wordA 0x00 d a 0 0x020)
  | .addi _ d a i => some (wordI 0x01 d a i)
  | .andi _ d a i => some (wordI 0x02 d a i)
  | .ori _ d a i => some (wordI 0x03 d a i)
  | .xori _ d a i => some (wordI 0x04 d a i)
  | .lui _ d i => some (wordI 0x05 d 0 i)
  | .shi _ d a i => some (wordI 0x06 d a i)
  | .ldw _ d a o => some (wordI 0x08 d a o)
  | .stw _ d a o => some (wordI 0x09 d a o)
  | .frd _ d a o => some (wordI 0x0A d a o)
  | .fwr _ d a o => some (wordI 0x0B d a o)
  | .beq _ a b o => some (wordI 0x10 a b o)
  | .bne _ a b o => some (wordI 0x11 a b o)
  | .blt _ a b o => some (wordI 0x12 a b o)
  | .bge _ a b o => some (wordI 0x13 a b o)
  | .bltu _ a b o => some (wordI 0x14 a b o)
  | .bgeu _ a b o => some (wordI 0x15 a b o)
  | .jmp _ o => some (wordJ 0x18 o)
  | .call _ o => some (wordJ 0x19 o)
  | .jr _ d a => some (wordA 0x1A d a 0 0)
  | .waitt _ a => some (wordW 0x20 0 a 0 0)
  | .waiteTimed _ d a e => some (wordW 0x21 d a 0 e)
  | .waiteNotime _ d e => some (wordW 0x21 d 0 1 e)
  | .waitePoll _ d e => some (wordW 0x21 d 0 2 e)
  | .cmt _ d a b => some (wordA 0x22 d a b 0)
  | .cmtq _ d a b => some (wordA 0x23 d a b 0)
  | .bcst _ d a b => some (wordA 0x24 d a b 0)
  | .tsnd _ d a b => some (wordA 0x25 d a b 0)
  | .trcv _ d a => some (wordA 0x26 d a 0 0)
  | .evset _ r a e => some (wordW 0x27 0 a r.toNat e)
  | .evack _ r a e => some (wordW 0x28 0 a r.toNat e)
  | .xfer _ d a => some (wordA 0x29 d a 0 0)
  | .fence _ => some (wordJ 0x2A 0)
  | .nowWall _ d _ => some (wordA 0x2B d 0 0 0)
  | .nowFrame _ d => some (wordA 0x2B d 0 0 1)
  | .nowCycles _ d => some (wordA 0x2B d 0 0 2)
  | .brk _ v => some (wordJ 0x3E v)
  | .trap _ v => some (wordJ 0x3F v)
  | _ => none

/-! ### Descriptors of TSND and XFER (R91, R92, R97) -/

/-- A descriptor of TSND keeps R91. -/
def descOk (desc : List Word) : Bool :=
  let w0 := desc.getD 0 0
  let w1 := desc.getD 1 0
  let w2 := desc.getD 2 0
  let n := fld w0 23 16
  let cnt := fld w2 31 16
  let seq := fld w2 15 0
  fld w0 27 24 == 0 &&
  (match fld w0 31 28 with
    | 1 => 1 ≤ n && n ≤ 64 && aligned w1 && cnt == 0
    | 2 => n == 0 && aligned w1 && 1 ≤ cnt && cnt ≤ 64 && seq == 0
    | 3 => n == 0 && fld w0 15 0 ≠ 0 && w2 == 0
    | 4 => 1 ≤ n && n ≤ 16 && w1 == 0 && w2 == 0
    | _ => false)

/-- A descriptor is a MSG. -/
def descMsg (desc : List Word) : Bool := fld (desc.getD 0 0) 31 28 == 4

/-- The chain port and the position that a sender's destination word names (R92). -/
def dstChain (dst : Word) : Nat := fld dst 19 16
def dstPos (dst : Word) : Nat := fld dst 6 0

/-- A sender's destination word keeps R92; a port that is no chain has no length to check against (R93). -/
def State.dstOkS (desc : List Word) (dst : Word) (s : State) : Bool :=
  let k := dstChain dst
  let len := if s.isChain k then s.chainLen k else 64
  dst &&& 0xFFF0FF80 == 0 && (dstPos dst < len || (dstPos dst == 0x7F && descMsg desc))

/-- A tile's destination word keeps R92. -/
def dstOkT (dst : Word) : Bool := dst.toNat < 3

/-- The transmit command queue that a destination word names (R93). -/
def txIndex (p : Part) (dst : Word) : Nat :=
  match p with
  | .sender => dstChain dst
  | .tile => 0

/-- The commands that a transmit command queue holds (R93). -/
def txCap : Part → Nat
  | .sender => 16
  | .tile => 8

/-- An XFER space and address keep R97 and R98, for a transfer of `len` words; `src` for the source. -/
def spaceOk (p : Part) (space a len : Nat) (src : Bool) : Bool :=
  match space with
  | 0 => a % 4 == 0 && a + 4 * len ≤ dmemSize p
  | 1 => a % 4 == 0
  | 2 => p == .sender && len % 4 == 0
  | _ => src && a % 4 == 0

/-- The transfer that a descriptor asks for, where R97 and R98 allow it. -/
def xferOf (p : Part) (w0 w1 w2 : Word) : Option XferJob :=
  let j : XferJob := ⟨w0.toNat, w1.toNat, fld w2 31 30, fld w2 29 28, fld w2 19 0⟩
  if fld w2 27 20 = 0 ∧ j.len ≠ 0 ∧ spaceOk p j.ssp j.src j.len true ∧ spaceOk p j.dsp j.dst j.len false then some j
  else none

end Sys2Proof.Machine
end

