-- ==== Sys2Proof/Machine/Folko.lean ====
section
/-!
DEFINITION. The Folko instructions (R70 to R106): issue, faults, the instruction semantics of each row of R74 and R75,
waits and their wakes, the posted-write queue, messages and transfers; with the meaning of each command. A command that
names an instruction says that the core issues it next, at its PC.
-/

namespace Sys2Proof.Machine

/-! ### Issue, completion and faults (R64, R71, R104) -/

/-- A general register of a core. -/
def State.gpr (c : CoreId) (r : BitVec 5) (s : State) : Word := (s.core c.part c.idx).gpr r

/-- The PC of a core. -/
def State.pc (c : CoreId) (s : State) : Word := (s.core c.part c.idx).pc

/-- A core changed. -/
def State.upCore (c : CoreId) (f : Core → Core) (s : State) : State := s.updCore c.part c.idx f

/-- A core is free to issue its next instruction: released, neither halted nor about to halt, and not stalled (R64). -/
def State.issues (c : CoreId) (s : State) : Bool :=
  let k := s.core c.part c.idx
  s.alive c.part && !k.held && !k.halted && !k.haltReq && k.stall == .none

/-- An instruction completes and the core continues at `pc`; after STEP it halts again (R62, R71). -/
def State.finish (c : CoreId) (pc : Word) (s : State) : State :=
  let s := s.upCore c fun k => { k with pc := pc, stall := .none }
  if (s.core c.part c.idx).stepping then s.haltCore c.part c.idx 3 false else s

/-- An instruction that does not branch completes (R71). -/
def State.advance (c : CoreId) (s : State) : State := s.finish c (s.pc c + 4)

/-- An instruction writes g[d] and completes. -/
def State.result (c : CoreId) (d : BitVec 5) (v : Word) (s : State) : State :=
  (s.upCore c fun k => k.setGpr d v).advance c

/-- A core faults: it halts with CAUSE 2 at the instruction (R104, R105, R107). -/
def State.faultCore (c : CoreId) (code : Nat) (addr : Word) (s : State) : State :=
  let p := c.part
  let n := c.idx
  let s := s.wr p (Reg.SYS_CORE_FCODE n) (wd (2 ^ 31 + code))
  let s := (s.wr p (Reg.SYS_CORE_FPC n) (s.pc c)).wr p (Reg.SYS_CORE_FADDR n) addr
  s.haltCore p n 2 true

/-- A core that can issue runs an instruction, or faults on its fetch (R79). -/
def State.issue (c : CoreId) (f : State → State) (s : State) : State :=
  if s.issues c then
    if (s.pc c).toNat < imemSize c.part then f s else s.faultCore c fIFETCH (s.pc c)
  else s

/-- A fault, or else what the instruction does. -/
def State.orFault (c : CoreId) (flt : Option Nat) (addr : Word) (f : State → State) (s : State) : State :=
  match flt with
  | some code => s.faultCore c code addr
  | none => f s

/-! ### Arithmetic, logic and shifts (R76, R77) -/

/-- A register operation: g[d] of g[a] and g[b]. -/
def State.alu (c : CoreId) (d a b : BitVec 5) (f : Word → Word → Word) (s : State) : State :=
  s.issue c fun s => s.result c d (f (s.gpr c a) (s.gpr c b))

/-- An immediate operation: g[d] of g[a]. -/
def State.alui (c : CoreId) (d a : BitVec 5) (f : Word → Word) (s : State) : State :=
  s.issue c fun s => s.result c d (f (s.gpr c a))

/-- The number of leading 0 bits of a word (R76). -/
def clzWord (w : Word) : Word := wd (if w = 0 then 32 else 31 - Nat.log2 w.toNat)

/-- 1 or 0. -/
def flagWord (b : Bool) : Word := if b then 1 else 0

/-- The shift of SHI by its kind and amount (R76). -/
def shiOp (imm : BitVec 16) (x : Word) : Word :=
  let n := imm.toNat % 32
  match imm.toNat / 32 % 4 with
  | 0 => x <<< n
  | 1 => x >>> n
  | _ => x.sshiftRight n

/-- SHI (R76, R77). -/
def State.shi (c : CoreId) (d a : BitVec 5) (imm : BitVec 16) (s : State) : State :=
  s.issue c fun s =>
    if imm.toNat < 0x60 then s.result c d (shiOp imm (s.gpr c a))
    else s.faultCore c fILLEGAL (wordI 0x06 d a imm)

/-! ### Branches and jumps (R78, R79) -/

/-- A branch on a condition of g[a] and g[b] (R78). -/
def State.branch (c : CoreId) (a b : BitVec 5) (off : BitVec 16) (f : Word → Word → Bool) (s : State) : State :=
  s.issue c fun s =>
    if f (s.gpr c a) (s.gpr c b) then s.finish c (branchTo (s.pc c) off) else s.advance c

/-- CALL (R79). -/
def State.call (c : CoreId) (off : BitVec 26) (s : State) : State :=
  s.issue c fun s =>
    let pc := s.pc c
    (s.upCore c fun k => k.setGpr 31 (pc + 4)).finish c (jumpTo pc off)

/-- JR reads g[a], writes the return address to g[d], then continues at the address it read (R79). -/
def State.jr (c : CoreId) (d a : BitVec 5) (s : State) : State :=
  s.issue c fun s =>
    let pc := s.pc c
    let t := s.gpr c a
    if aligned t then (s.upCore c fun k => k.setGpr d (pc + 4)).finish c t else s.faultCore c fIFETCH t

/-! ### Data memory (R42, R80) -/

/-- LDW of a word by a core: a lock word that reads 0 is taken (R42). -/
def State.load (c : CoreId) (a : Nat) (s : State) : State × Word :=
  let v := s.dmemRd c.part a
  if c.part = .sender && 0x7FF80 ≤ a && v = 0 then (s.dmemWr .sender a (wd (c.idx + 1)), v) else (s, v)

/-- The address of LDW, STW, FRD and FWR (R80). -/
def State.addr (c : CoreId) (a : BitVec 5) (off : BitVec 16) (s : State) : Word := s.gpr c a + sext16 off

/-- LDW (R80). -/
def State.ldw (c : CoreId) (d a : BitVec 5) (off : BitVec 16) (s : State) : State :=
  s.issue c fun s =>
    let x := s.addr c a off
    s.orFault c (wordFault c.part x) x fun s =>
      let (s, v) := s.load c x.toNat
      s.result c d v

/-- STW (R80). -/
def State.stw (c : CoreId) (d a : BitVec 5) (off : BitVec 16) (s : State) : State :=
  s.issue c fun s =>
    let x := s.addr c a off
    s.orFault c (wordFault c.part x) x fun s => (s.dmemWr c.part x.toNat (s.gpr c d)).advance c

/-! ### Folio accesses (R46, R80, R81) -/

/-- The entries of a core's posted-write queue (R81). -/
def postCap : Part → Nat
  | .sender => 16
  | .tile => 8

/-- A posted write enters the queue. -/
def State.post (c : CoreId) (x v : Word) (s : State) : State := s.upCore c fun k => { k with posted := k.posted ++ [(x, v)] }

/-- The queue of posted writes is full. -/
def State.postFull (c : CoreId) (s : State) : Bool := postCap c.part ≤ (s.core c.part c.idx).posted.length

/-- Every earlier FWR of a core has left its queue and reached its block node (R82). -/
def State.postDone (c : CoreId) (s : State) : Bool :=
  let k := s.core c.part c.idx
  k.posted.isEmpty && k.transit.isEmpty

/-- The first 64 KiB window of the block that holds a folio address (R43). -/
def blockOf (a : Nat) : Nat :=
  let w := a / 0x10000
  if 0x80 ≤ w then 0x80 else if (0x10 ≤ w && w < 0x24) || 0x60 ≤ w then w / 4 * 4 else w

/-- An FRD of an address can be answered: every earlier FWR of its core has left the queue, and those to the block it
reads have reached it (R32, R81). -/
def State.frdClear (c : CoreId) (x : Word) (s : State) : Bool :=
  let k := s.core c.part c.idx
  k.posted.isEmpty && k.transit.all fun w => blockOf w.1.toNat ≠ blockOf x.toNat

/-- A core stalls in an instruction. -/
def State.stall (c : CoreId) (st : Stall) (s : State) : State := s.upCore c fun k => { k with stall := st }

/-- FRD (R46, R80): the core stalls until the value returns. -/
def State.frd (c : CoreId) (d a : BitVec 5) (off : BitVec 16) (s : State) : State :=
  s.issue c fun s =>
    let x := s.addr c a off
    s.orFault c (folioFault c.part x) x (State.stall c (.frd d x))

/-- FWR (R46, R80, R81): posted; with the queue full it stalls. -/
def State.fwr (c : CoreId) (d a : BitVec 5) (off : BitVec 16) (s : State) : State :=
  s.issue c fun s =>
    let x := s.addr c a off
    let v := s.gpr c d
    s.orFault c (folioFault c.part x) x fun s =>
      if s.postFull c then s.stall c (.fwr x v) else (s.post c x v).advance c

/-- An FWR that waited for an entry enters the queue (R81). -/
def State.postStalled (c : CoreId) (s : State) : State :=
  match (s.core c.part c.idx).stall with
  | .fwr x v => if s.postFull c then s else (s.post c x v).advance c
  | _ => s

/-- A debug FWR that waited for an entry enters the queue, and is done (R63). -/
def State.postDebug (c : CoreId) (s : State) : State :=
  match (s.core c.part c.idx).dbgFwr with
  | [] => s
  | (x, v) :: l =>
    if s.postFull c then s
    else
      let s := (s.upCore c fun k => { k with dbgFwr := l }).post c x v
      { s with host := { s.host with dbgStat := 1 } }

/-- The head of the posted-write queue leaves for its block node, which frees an entry (R81, R110). -/
def State.leave (c : CoreId) (s : State) : State :=
  match (s.core c.part c.idx).posted with
  | [] => s
  | w :: l =>
    ((s.upCore c fun k => { k with posted := l, transit := k.transit ++ [w] }).postStalled c).postDebug c

/-- The oldest write under way reaches its block node (R46). -/
def State.reachNode (c : CoreId) (s : State) : State :=
  match (s.core c.part c.idx).transit with
  | [] => s
  | (x, v) :: l => ((s.upCore c fun k => { k with transit := l }).folioWrite c.part x.toNat v).1

/-- The oldest write of a core that has not arrived reaches its block node (R46, R81), out of the queue where none is
under way. DESIGN CHOICE: R32 leaves writes to different blocks without order between them until a FENCE or a commit;
here all writes of a core arrive in the order the core issued them. -/
def State.arrival (c : CoreId) (s : State) : State :=
  if (s.core c.part c.idx).transit.isEmpty then (s.leave c).reachNode c else s.reachNode c

/-- The cores of a part. -/
def coresOf : Part → List CoreId
  | .sender => [.sender 0, .sender 1, .sender 2, .sender 3]
  | .tile => [.tile]

/-- CORE cycles between two writes that leave a posted-write queue (R110). -/
def drainRate : Part → Nat
  | .sender => 8
  | .tile => 4

/-- The cycle of a wake is over (R123). -/
def State.wakeOver (p : Part) (s : State) : State :=
  match p with
  | .sender => s.updSnd fun t => { t with wakeFrom := none }
  | .tile => s

/-- One TIMEC cycle of a part, with the writes that leave its posted-write queues in it (R110). DESIGN CHOICE: a queue
that holds a write gives one up at each CORE cycle whose count is a multiple of the drain rate. -/
def State.cycle (p : Part) (s : State) : State :=
  let s := (s.tick p).wakeOver p
  if s.alive p && (s.chip p).cycles % drainRate p = 0 then (coresOf p).foldl (fun s c => s.leave c) s else s

/-- Every posted write of a core reaches its block node (R82). -/
def drain (c : CoreId) : Nat → State → State
  | 0, s => s
  | n + 1, s => drain c n (s.arrival c)

/-! ### Waits (R59, R60, R83 to R85) -/

/-- A core sees an event pending (R411, R416). -/
def State.seesPending (c : CoreId) (ev : Nat) (s : State) : Bool := s.pendBit c.part ev && s.sees c.part c.idx ev

/-- The fault of an event ID above the part's range (R85). -/
def evFault (c : CoreId) (ev : Nat) : Option Nat := if evMax c.part < ev then some fEVENTID else none

/-- WAITT (R59, R83). -/
def State.waitt (c : CoreId) (a : BitVec 5) (s : State) : State :=
  s.issue c fun s =>
    let w := s.gpr c a
    if s.waitOver c.part w then s.advance c else s.stall c (.waitt w)

/-- WAITE in the timed mode, or in NOTIME without a time (R60, R84). -/
def State.waite (c : CoreId) (d : BitVec 5) (ev : Nat) (w : Option Word) (s : State) : State :=
  s.orFault c (evFault c ev) (wd ev) fun s =>
    if s.seesPending c ev then s.result c d 0
    else match w with
      | none => s.stall c (.waite d ev none)
      | some t => if s.waitOver c.part t then s.result c d 1 else s.stall c (.waite d ev w)

/-- WAITE in the POLL mode (R84). -/
def State.waitPoll (c : CoreId) (d : BitVec 5) (ev : Nat) (s : State) : State :=
  s.orFault c (evFault c ev) (wd ev) fun s => s.result c d (flagWord (!s.seesPending c ev))

/-- A core that waits on an event that it sees pending resumes (R85, R416). -/
def State.wakeOne (ev : Nat) (c : CoreId) (s : State) : State :=
  match (s.core c.part c.idx).stall with
  | .waite d e _ => if e = ev && s.seesPending c ev then s.result c d 0 else s
  | _ => s

/-! ### Events (R86, R87) -/

/-- EVSET and EVACK name their event in the event-ID field, or in g[a] with REG (R86); the other field must be 0. -/
def State.onEvent (c : CoreId) (op : Nat) (reg : Bool) (a : BitVec 5) (ev : BitVec 12) (ok : Nat → Bool)
    (f : Nat → State → State) (s : State) : State :=
  s.issue c fun s =>
    if (if reg then ev ≠ 0 else a ≠ 0) then s.faultCore c fILLEGAL (wordW op 0 a reg.toNat ev)
    else
      let id := if reg then fld (s.gpr c a) 11 0 else ev.toNat
      if ok id then (f id s).advance c else s.faultCore c fEVENTID (wd id)

/-! ### Messages (R91 to R95) -/

/-- The result of TSND, and the state after it (R93). -/
def State.send (p : Part) (desc : List Word) (dst : Word) (s : State) : State × Word :=
  let i := txIndex p dst
  let ok := match p with
    | .sender => descOk desc && s.dstOkS desc dst
    | .tile => descOk desc && descMsg desc && dstOkT dst
  let up := match p with
    | .sender => s.isChain i && s.txActive .sender i
    | .tile => s.txActive .tile (portToward (s.dstLetter dst))
  let q := (s.chip p).txq.getD i []
  if !ok then (s, 2)
  else if !up then (s, 3)
  else if txCap p ≤ q.length then (s, 1)
  else (s.upd p fun c => { c with txq := c.txq.set i (q ++ [⟨desc, dst⟩]) }, 0)

/-- TSND (R91 to R93). -/
def State.tsnd (c : CoreId) (d a b : BitVec 5) (s : State) : State :=
  s.issue c fun s =>
    let p := c.part
    let x := s.gpr c a
    s.orFault c (dmemFault p x 3) x fun s =>
      let n := fld (s.dmemRd p x.toNat) 23 16
      s.orFault c (dmemFault p x (3 + n)) x fun s =>
        let (s, r) := s.send p (s.dmemRds p x.toNat (3 + n)) (s.gpr c b)
        s.result c d r

/-- TRCV (R95). -/
def State.trcv (c : CoreId) (d a : BitVec 5) (s : State) : State :=
  s.issue c fun s =>
    let p := c.part
    let x := s.gpr c a
    match (s.chip p).rxq with
    | [] => s.orFault c (wordFault p x) x fun s => s.result c d 0
    | m :: l =>
      s.orFault c (dmemFault p x m.length) x fun s =>
        let s := s.dmemWrs p x.toNat m
        let s := (s.upd p fun c => { c with rxq := l }).setLevel p Ev.TRCV_READY (!l.isEmpty)
        s.result c d (m.getD 0 0)

/-- The packet that a command of a sender's queue becomes (R91, R281). -/
def txPacket (t : TxCmd) : Packet :=
  let w0 := t.desc.getD 0 0
  let w1 := t.desc.getD 1 0
  let w2 := t.desc.getD 2 0
  let words := t.desc.drop 3
  let body := match fld w0 31 28 with
    | 1 => w1 :: wd (fld w2 15 0) :: words
    | 2 => [w1, wd (fld w2 31 16 * 2 ^ 16)]
    | 3 => [w1, 0]
    | _ => 0 :: wd (fld w0 23 16 * 2 ^ 16) :: words
  mkPacket tCMD (dstPos t.dst) 0 0x7E (wd (fld w0 31 28 * 2 ^ 28 + fld w0 15 0 * 2 ^ 8)) body

/-- The head of a transmit command queue is removed. -/
def State.txPop (p : Part) (i : Nat) (s : State) : State :=
  s.upd p fun c => { c with txq := c.txq.set i ((c.txq.getD i []).drop 1) }

/-- The head of a sender's transmit command queue leaves on its chain port (R94); in the safe state nothing leaves
(R302). -/
def State.txSendS (k : Nat) (s : State) : State :=
  match s.sender.txq.getD k [] with
  | [] => s
  | t :: _ =>
    if s.txActive .sender k && !s.safe .sender then ((s.txPop .sender k).sendChain k (txPacket t)).settle .sender k
    else s.txWake .sender k

/-- The head of the tile's transmit command queue leaves on the port toward its destination (R92, R94), which it wakes if
that sleeps (R276). -/
def State.txSendT (i : Nat) (s : State) : State :=
  match s.tile.txq.getD 0 [] with
  | [] => s
  | t :: _ =>
    let l := s.dstLetter t.dst
    if portToward l ≠ i then s
    else if s.txActive .tile i then
      ((s.txPop .tile 0).telForm l 4 (fld (t.desc.getD 0 0) 15 0) (t.desc.drop 3)).settle .tile i
    else s.txWake .tile i

/-! ### Transfers (R97 to R99) -/

/-- XFER (R97, R98). -/
def State.xferStart (c : CoreId) (d a : BitVec 5) (s : State) : State :=
  s.issue c fun s =>
    let p := c.part
    let x := s.gpr c a
    s.orFault c (dmemFault p x 3) x fun s =>
      if (s.core p c.idx).xfer.isSome then s.result c d 1
      else match xferOf p (s.dmemRd p x.toNat) (s.dmemRd p (x.toNat + 4)) (s.dmemRd p (x.toNat + 8)) with
        | none => s.result c d 2
        | some j =>
          let s := s.upCore c fun k => { k with xfer := some j }
          (s.wr p (Reg.SYS_XFER_STAT c.idx) (wd (2 ^ 31 + j.len))).result c d 0

/-- A word that a transfer reads: the word, or the code of the error that stops it (R99, R107). -/
def State.xferRead (p : Part) (j : XferJob) (i : Nat) (bad : Bool) (s : State) : State × Except Nat Word :=
  match j.ssp with
  | 0 => (s, .ok (s.dmemRd p (j.src + 4 * i)))
  | 1 =>
    if folioMapped p (j.src + 4 * i) then
      let (v, s) := s.folioRead p (j.src + 4 * i)
      (s, .ok v)
    else (s, .error 1)
  | 2 => if 16 * j.src + 4 * i < s.installed then (s, .ok (s.fmWord (16 * j.src + 4 * i))) else (s, .error 2)
  | _ =>
    if bad || flashSize p ≤ j.src + 4 * i || s.slotBusy p (j.src + 4 * i) then (s, .error 3)
    else (s, .ok (wd (s.flashLE p (j.src + 4 * i) 4)))

/-- A word that a transfer writes, or the code of the error that stops it (R99). -/
def State.xferWrite (p : Part) (j : XferJob) (i : Nat) (v : Word) (s : State) : State × Option Nat :=
  match j.dsp with
  | 0 => (s.dmemWr p (j.dst + 4 * i) v, none)
  | 1 =>
    if folioMapped p (j.dst + 4 * i) then ((s.folioWrite p (j.dst + 4 * i) v).1, none) else (s, some 1)
  | _ => if 16 * j.dst + 4 * i < s.installed then (s.fmPutWord (16 * j.dst + 4 * i) v, none) else (s, some 2)

/-- The engine moves `n` more words from index i on, in ascending order, until an error stops it: the words left and the
error (R99). A reset of the part ends it. -/
def xferRun (c : CoreId) (j : XferJob) (errAt : Option Nat) : Nat → Nat → State → State × Nat × Option Nat
  | 0, _, s => (s, 0, none)
  | n + 1, i, s =>
    let p := c.part
    if (s.core p c.idx).xfer.isNone then (s, n + 1, none)
    else
      match s.xferRead p j i (errAt == some i) with
      | (s, .error e) => (s, n + 1, some e)
      | (s, .ok v) =>
        match s.xferWrite p j i v with
        | (s, some e) => (s, n + 1, some e)
        | (s, none) => xferRun c j errAt n (i + 1) s

/-- The frame-memory units of the words a transfer has moved go through port XFER (R180). -/
def State.xferUnits (j : XferJob) (n : Nat) (s : State) : State :=
  let s := if j.ssp = 2 then s.portUse 10 (unitSpan (16 * j.src) (4 * n)) else s
  if j.dsp = 2 then s.portUse 10 (unitSpan (16 * j.dst) (4 * n)) else s

/-- The transfer of a core ends (R99, R107, R108). DESIGN CHOICE: R99 does not say when each word moves; all of them move
here, so that LEFT shows LEN while BUSY is 1 and no transfer is seen partly made. -/
def State.xferEnd (c : CoreId) (errAt : Option Nat) (s : State) : State :=
  let p := c.part
  let n := c.idx
  match (s.core p n).xfer with
  | none => s
  | some j =>
    let (s, left, err) := xferRun c j errAt j.len 0 s
    let s := s.xferUnits j (j.len - left)
    if (s.core p n).xfer.isNone then s
    else
      let s := s.upCore c fun k => { k with xfer := none }
      match err with
      | none => (s.wr p (Reg.SYS_XFER_STAT n) 0).raise p (Ev.XFER_DONE p n)
      | some e =>
        (s.wr p (Reg.SYS_XFER_STAT n) (wd (2 ^ 30 + e * 2 ^ 24 + left))).raiseAll p
          [(Ev.XFER_DONE p n, 0), (Ev.XFER_ERR p n, 0)]

/-! ### Commits and broadcasts (R88 to R90) -/

/-- CMTQ first acts as a FENCE, then gives the result that CMT would give (R89). -/
def State.cmtQuery (c : CoreId) (d a b : BitVec 5) (s : State) : State :=
  s.issue c fun s =>
    let k := s.core c.part c.idx
    let s := drain c (k.posted.length + k.transit.length) s
    if s.issues c then s.result c d (s.cmtResult c.part (s.gpr c a) (s.gpr c b)) else s

/-- BCST (R57, R90). -/
def State.broadcast (c : CoreId) (d a b : BitVec 5) (s : State) : State :=
  s.issue c fun s =>
    match c.part with
    | .tile => s.faultCore c fPART (wordA 0x24 d a b 0)
    | .sender =>
      let x := s.gpr c b
      s.orFault c (dmemFault .sender x 3) x fun s =>
        let w := fun (i : Nat) => s.dmemRd .sender (x.toNat + 4 * i)
        let (s, r) := s.bcst (s.gpr c a) (w 0 &&& 0xFFFF) (w 1) (fld (w 2) 15 0)
        s.result c d r

/-! ### The meanings: arithmetic, logic and shifts -/

/-- ADD (R76). -/
def execAdd (c : CoreId) (d a b : BitVec 5) (s : State) : Host.Outcome State Fault Refusal :=
  .next (s.alu c d a b fun x y => x + y)
/-- SUB (R76). -/
def execSub (c : CoreId) (d a b : BitVec 5) (s : State) : Host.Outcome State Fault Refusal :=
  .next (s.alu c d a b fun x y => x - y)
/-- AND (R76). -/
def execAnd (c : CoreId) (d a b : BitVec 5) (s : State) : Host.Outcome State Fault Refusal :=
  .next (s.alu c d a b fun x y => x &&& y)
/-- OR (R76). -/
def execOr (c : CoreId) (d a b : BitVec 5) (s : State) : Host.Outcome State Fault Refusal :=
  .next (s.alu c d a b fun x y => x ||| y)
/-- XOR (R76). -/
def execXor (c : CoreId) (d a b : BitVec 5) (s : State) : Host.Outcome State Fault Refusal :=
  .next (s.alu c d a b fun x y => x ^^^ y)
/-- SHL (R76, R77). -/
def execShl (c : CoreId) (d a b : BitVec 5) (s : State) : Host.Outcome State Fault Refusal :=
  .next (s.alu c d a b fun x y => x <<< (y.toNat % 32))
/-- SHR (R76, R77). -/
def execShr (c : CoreId) (d a b : BitVec 5) (s : State) : Host.Outcome State Fault Refusal :=
  .next (s.alu c d a b fun x y => x >>> (y.toNat % 32))
/-- SAR (R76, R77). -/
def execSar (c : CoreId) (d a b : BitVec 5) (s : State) : Host.Outcome State Fault Refusal :=
  .next (s.alu c d a b fun x y => x.sshiftRight (y.toNat % 32))
/-- MUL (R76). -/
def execMul (c : CoreId) (d a b : BitVec 5) (s : State) : Host.Outcome State Fault Refusal :=
  .next (s.alu c d a b fun x y => x * y)
/-- MULHU (R76). -/
def execMulhu (c : CoreId) (d a b : BitVec 5) (s : State) : Host.Outcome State Fault Refusal :=
  .next (s.alu c d a b fun x y => wd (x.toNat * y.toNat / 2 ^ 32))
/-- MIN (R76). -/
def execMin (c : CoreId) (d a b : BitVec 5) (s : State) : Host.Outcome State Fault Refusal :=
  .next (s.alu c d a b fun x y => if x.slt y then x else y)
/-- MAX (R76). -/
def execMax (c : CoreId) (d a b : BitVec 5) (s : State) : Host.Outcome State Fault Refusal :=
  .next (s.alu c d a b fun x y => if y.slt x then x else y)
/-- SLT (R76). -/
def execSlt (c : CoreId) (d a b : BitVec 5) (s : State) : Host.Outcome State Fault Refusal :=
  .next (s.alu c d a b fun x y => flagWord (x.slt y))
/-- SLTU (R76). -/
def execSltu (c : CoreId) (d a b : BitVec 5) (s : State) : Host.Outcome State Fault Refusal :=
  .next (s.alu c d a b fun x y => flagWord (x.ult y))
/-- CLZ (R76). -/
def execClz (c : CoreId) (d a : BitVec 5) (s : State) : Host.Outcome State Fault Refusal :=
  .next (s.alui c d a clzWord)
/-- ADDI (R73, R76). -/
def execAddi (c : CoreId) (d a : BitVec 5) (imm : BitVec 16) (s : State) : Host.Outcome State Fault Refusal :=
  .next (s.alui c d a fun x => x + sext16 imm)
/-- ANDI (R73, R76). -/
def execAndi (c : CoreId) (d a : BitVec 5) (imm : BitVec 16) (s : State) : Host.Outcome State Fault Refusal :=
  .next (s.alui c d a fun x => x &&& zext16 imm)
/-- ORI (R73, R76). -/
def execOri (c : CoreId) (d a : BitVec 5) (imm : BitVec 16) (s : State) : Host.Outcome State Fault Refusal :=
  .next (s.alui c d a fun x => x ||| zext16 imm)
/-- XORI (R73, R76). -/
def execXori (c : CoreId) (d a : BitVec 5) (imm : BitVec 16) (s : State) : Host.Outcome State Fault Refusal :=
  .next (s.alui c d a fun x => x ^^^ zext16 imm)
/-- LUI (R76). -/
def execLui (c : CoreId) (d : BitVec 5) (imm : BitVec 16) (s : State) : Host.Outcome State Fault Refusal :=
  .next (s.alui c d 0 fun _ => zext16 imm <<< 16)
/-- SHI (R76, R77). -/
def execShi (c : CoreId) (d a : BitVec 5) (imm : BitVec 16) (s : State) : Host.Outcome State Fault Refusal :=
  .next (s.shi c d a imm)

/-! ### The meanings: memory and folio -/

/-- LDW (R42, R80). -/
def execLdw (c : CoreId) (d a : BitVec 5) (off : BitVec 16) (s : State) : Host.Outcome State Fault Refusal :=
  .next (s.ldw c d a off)
/-- STW (R80). -/
def execStw (c : CoreId) (d a : BitVec 5) (off : BitVec 16) (s : State) : Host.Outcome State Fault Refusal :=
  .next (s.stw c d a off)
/-- FRD (R46, R80, R81). -/
def execFrd (c : CoreId) (d a : BitVec 5) (off : BitVec 16) (s : State) : Host.Outcome State Fault Refusal :=
  .next (s.frd c d a off)
/-- FWR (R46, R80, R81). -/
def execFwr (c : CoreId) (d a : BitVec 5) (off : BitVec 16) (s : State) : Host.Outcome State Fault Refusal :=
  .next (s.fwr c d a off)

/-- FOLIO_WRITE_ARRIVAL (R46, R81). -/
def execFolioWriteArrival (c : CoreId) (s : State) : Host.Outcome State Fault Refusal :=
  .next (s.when' c.part (State.arrival c))

/-- The debug FRD of a halted core returns (R63). -/
def State.dbgReturn (c : CoreId) (s : State) : State :=
  match (s.core c.part c.idx).dbgFrd with
  | none => s
  | some x =>
    if s.frdClear c x then
      let s := s.upCore c fun k => { k with dbgFrd := none }
      let (v, s) := s.folioRead c.part x.toNat
      { s with host := { s.host with dbgData := v, dbgStat := 1 } }
    else s

/-- FRD_RETURN (R46, R63, R81): the value returns once every earlier FWR has left the queue. -/
def execFrdReturn (c : CoreId) (s : State) : Host.Outcome State Fault Refusal :=
  .next (s.when' c.part fun s =>
    match (s.core c.part c.idx).stall with
    | .frd d x =>
      if s.frdClear c x then
        let (v, s) := s.folioRead c.part x.toNat
        s.result c d v
      else s
    | _ => s.dbgReturn c)

/-! ### The meanings: branches and jumps -/

/-- BEQ (R78). -/
def execBeq (c : CoreId) (a b : BitVec 5) (off : BitVec 16) (s : State) : Host.Outcome State Fault Refusal :=
  .next (s.branch c a b off fun x y => x == y)
/-- BNE (R78). -/
def execBne (c : CoreId) (a b : BitVec 5) (off : BitVec 16) (s : State) : Host.Outcome State Fault Refusal :=
  .next (s.branch c a b off fun x y => x != y)
/-- BLT (R78). -/
def execBlt (c : CoreId) (a b : BitVec 5) (off : BitVec 16) (s : State) : Host.Outcome State Fault Refusal :=
  .next (s.branch c a b off fun x y => x.slt y)
/-- BGE (R78). -/
def execBge (c : CoreId) (a b : BitVec 5) (off : BitVec 16) (s : State) : Host.Outcome State Fault Refusal :=
  .next (s.branch c a b off fun x y => !x.slt y)
/-- BLTU (R78). -/
def execBltu (c : CoreId) (a b : BitVec 5) (off : BitVec 16) (s : State) : Host.Outcome State Fault Refusal :=
  .next (s.branch c a b off fun x y => x.ult y)
/-- BGEU (R78). -/
def execBgeu (c : CoreId) (a b : BitVec 5) (off : BitVec 16) (s : State) : Host.Outcome State Fault Refusal :=
  .next (s.branch c a b off fun x y => !x.ult y)
/-- JMP (R79). -/
def execJmp (c : CoreId) (off : BitVec 26) (s : State) : Host.Outcome State Fault Refusal :=
  .next (s.issue c fun s => s.finish c (jumpTo (s.pc c) off))
/-- CALL (R79). -/
def execCall (c : CoreId) (off : BitVec 26) (s : State) : Host.Outcome State Fault Refusal :=
  .next (s.call c off)
/-- JR (R79). -/
def execJr (c : CoreId) (d a : BitVec 5) (s : State) : Host.Outcome State Fault Refusal :=
  .next (s.jr c d a)

/-- ILLEGAL_OPCODE (R72, R74, R75, R105): a word that no row gives a meaning. -/
def execIllegalOpcode (c : CoreId) (w : Word) (s : State) : Host.Outcome State Fault Refusal :=
  .next (s.issue c fun s => if (decodeFolko c 0 w).isNone then s.faultCore c fILLEGAL w else s)

/-- IFETCH (R79, R105): the PC lies outside the instruction memory. -/
def execIfetch (c : CoreId) (s : State) : Host.Outcome State Fault Refusal := .next (s.issue c fun s => s)

/-! ### The meanings: waits and events -/

/-- WAITT (R59, R83). -/
def execWaitt (c : CoreId) (a : BitVec 5) (s : State) : Host.Outcome State Fault Refusal := .next (s.waitt c a)

/-- WAITT_WAKE (R83): W is reached. -/
def execWaittWake (c : CoreId) (s : State) : Host.Outcome State Fault Refusal :=
  .next (s.when' c.part fun s =>
    match (s.core c.part c.idx).stall with
    | .waitt w => if s.waitOver c.part w then s.advance c else s
    | _ => s)

/-- WAITE_TIMED (R60, R84). -/
def execWaiteTimed (c : CoreId) (d a : BitVec 5) (ev : BitVec 12) (s : State) : Host.Outcome State Fault Refusal :=
  .next (s.issue c fun s => s.waite c d ev.toNat (some (s.gpr c a)))
/-- WAITE_NOTIME (R84). -/
def execWaiteNotime (c : CoreId) (d : BitVec 5) (ev : BitVec 12) (s : State) : Host.Outcome State Fault Refusal :=
  .next (s.issue c fun s => s.waite c d ev.toNat none)
/-- WAITE_POLL (R84). -/
def execWaitePoll (c : CoreId) (d : BitVec 5) (ev : BitVec 12) (s : State) : Host.Outcome State Fault Refusal :=
  .next (s.issue c fun s => s.waitPoll c d ev.toNat)

/-- WAITE_WAKE (R85, R416): every core that waits on the event and sees it pending resumes. -/
def execWaiteWake (p : Part) (ev : BitVec 12) (s : State) : Host.Outcome State Fault Refusal :=
  .next (s.when' p fun s => (coresOf p).foldl (fun s c => s.wakeOne ev.toNat c) s)

/-- WAITE_TIMEOUT (R84, R85): W is reached; an event that is pending by then still gives 0. -/
def execWaiteTimeout (c : CoreId) (s : State) : Host.Outcome State Fault Refusal :=
  .next (s.when' c.part fun s =>
    match (s.core c.part c.idx).stall with
    | .waite d ev (some w) =>
      if s.waitOver c.part w then s.result c d (flagWord (!s.seesPending c ev)) else s
    | _ => s)

/-- EVSET (R86, R87). -/
def execEvset (c : CoreId) (reg : Bool) (a : BitVec 5) (ev : BitVec 12) (s : State) : Host.Outcome State Fault Refusal :=
  .next (s.onEvent c 0x27 reg a ev (swEvent c.part) fun id s => s.raise c.part id)
/-- EVACK (R86, R87). -/
def execEvack (c : CoreId) (reg : Bool) (a : BitVec 5) (ev : BitVec 12) (s : State) : Host.Outcome State Fault Refusal :=
  .next (s.onEvent c 0x28 reg a ev (fun id => id ≤ evMax c.part) fun id s => s.evack c.part id)

/-! ### The meanings: commits, messages and transfers -/

/-- CMT (R50, R88): the core stalls until its validation completes. -/
def execCmt (c : CoreId) (d a b : BitVec 5) (s : State) : Host.Outcome State Fault Refusal :=
  .next (s.issue c fun s => s.stall c (.cmt d (s.gpr c a) (s.gpr c b)))

/-- CMT_COMPLETE (R49 to R52): the earlier FWRs have arrived, and the validation ends. -/
def execCmtComplete (c : CoreId) (s : State) : Host.Outcome State Fault Refusal :=
  .next (s.when' c.part fun s =>
    match (s.core c.part c.idx).stall with
    | .cmt d mask w =>
      if s.postDone c then
        let (s, r) := s.cmt c.part mask w
        s.result c d r
      else s
    | _ => s)

/-- CMTQ (R89). -/
def execCmtq (c : CoreId) (d a b : BitVec 5) (s : State) : Host.Outcome State Fault Refusal := .next (s.cmtQuery c d a b)
/-- BCST (R57, R90). -/
def execBcst (c : CoreId) (d a b : BitVec 5) (s : State) : Host.Outcome State Fault Refusal := .next (s.broadcast c d a b)
/-- TSND (R91 to R93). -/
def execTsnd (c : CoreId) (d a b : BitVec 5) (s : State) : Host.Outcome State Fault Refusal := .next (s.tsnd c d a b)

/-- TSND_COMMAND_SEND (R94). -/
def execTsndCommandSend (port : LnkPort) (s : State) : Host.Outcome State Fault Refusal :=
  .next (s.when' port.part fun s =>
    match port.part with
    | .sender => s.txSendS port.idx
    | .tile => s.txSendT port.idx)

/-- TRCV (R95). -/
def execTrcv (c : CoreId) (d a : BitVec 5) (s : State) : Host.Outcome State Fault Refusal := .next (s.trcv c d a)
/-- XFER (R97, R98). -/
def execXfer (c : CoreId) (d a : BitVec 5) (s : State) : Host.Outcome State Fault Refusal := .next (s.xferStart c d a)
/-- XFER_DONE (R99). -/
def execXferDone (c : CoreId) (flashErrAt : Option Nat) (s : State) : Host.Outcome State Fault Refusal :=
  .next (s.when' c.part (State.xferEnd c flashErrAt))

/-- FENCE (R82): the core stalls until its earlier FWRs have arrived. -/
def execFence (c : CoreId) (s : State) : Host.Outcome State Fault Refusal := .next (s.issue c (State.stall c .fence))

/-- FENCE_DONE (R82). -/
def execFenceDone (c : CoreId) (s : State) : Host.Outcome State Fault Refusal :=
  .next (s.when' c.part fun s =>
    match (s.core c.part c.idx).stall with
    | .fence => if s.postDone c then s.advance c else s
    | _ => s)

/-! ### The meanings: NOW, BRK, TRAP and halts -/

/-- NOW_WALL (R101). -/
def execNowWall (c : CoreId) (d : BitVec 5) (lag : Fin 9) (s : State) : Host.Outcome State Fault Refusal :=
  .next (s.issue c fun s => s.result c d (s.wall c.part - wd lag.val))

/-- The frame that ends at the next latch point, or the current frame number while no schedule runs (R101). -/
def State.nowFrame (p : Part) (s : State) : Word := if s.schedOn p then (s.chip p).nextLatch else s.frameNum p

/-- NOW_FRAME (R101). -/
def execNowFrame (c : CoreId) (d : BitVec 5) (s : State) : Host.Outcome State Fault Refusal :=
  .next (s.issue c fun s => s.result c d (s.nowFrame c.part))
/-- NOW_CYCLES (R101). -/
def execNowCycles (c : CoreId) (d : BitVec 5) (s : State) : Host.Outcome State Fault Refusal :=
  .next (s.issue c fun s => s.result c d (wd (s.chip c.part).cycles))

/-- BRK halts the core after itself (R102). -/
def State.brk (c : CoreId) (s : State) : State :=
  s.issue c fun s => (s.upCore c fun k => { k with pc := k.pc + 4 }).haltCore c.part c.idx 1 false

/-- BRK (R102). -/
def execBrk (c : CoreId) (_code : BitVec 26) (s : State) : Host.Outcome State Fault Refusal := .next (s.brk c)
/-- TRAP (R103). -/
def execTrap (c : CoreId) (code : BitVec 26) (s : State) : Host.Outcome State Fault Refusal :=
  .next (s.issue c fun s => s.faultCore c fTRAP (code.setWidth 32))

/-- A halt can take effect: between instructions, or within a wait (R64). -/
def State.atBoundary (c : CoreId) (s : State) : Bool :=
  match (s.core c.part c.idx).stall with
  | .none => true
  | .waitt _ => true
  | .waite _ _ _ => true
  | _ => false

/-- CORE_HALT (R62, R64). -/
def execCoreHalt (c : CoreId) (s : State) : Host.Outcome State Fault Refusal :=
  .next (s.when' c.part fun s =>
    let k := s.core c.part c.idx
    if k.haltReq && !k.halted && s.atBoundary c then s.haltCore c.part c.idx 0 false else s)

end Sys2Proof.Machine
end

