-- ==== Sys2Proof/Machine/Host.lean ====
section
/-!
DEFINITION. The host's access to the sender (R61 to R68): BAR0 with the mailbox, run control, the halted-core debug
window, the MSI-X table and the instruction-memory windows; the frame-memory window of BAR2; and register writes of
every kind (R7, R62).
-/

namespace Sys2Proof.Machine

/-- The host reaches the sender: the PCIe endpoint exists and the sender's logic runs (R61, R482). -/
def State.hosted (s : State) : Bool := s.alive .sender && s.pcie

/-- A host access changes nothing while the host cannot reach the sender. -/
def State.byHost (f : State → State) (s : State) : State := if s.hosted then f s else s

/-- The host interface changed. -/
def State.updHost (f : HostIf → HostIf) (s : State) : State := { s with host := f s.host }

/-! ### Mailbox (R62, R66, R67) -/

/-- A doorbell (R66): discarded, with OVR set, while BUSY is 1 or for a LEN outside 1 to 64. -/
def State.doorbell (s : State) : State :=
  let len := fld s.host.mbxIn 6 0
  if s.mbxBusy || len == 0 || 64 < len then s.updHost fun h => { h with mbxIn := putBit h.mbxIn 30 true }
  else (s.updHost fun h => { h with mbxIn := putBit h.mbxIn 31 true }).setLevel .sender Ev.MBX_IN true

/-- A write of `HOST_MBX_IN_CTRL`: OVR is W1C, LEN is stored, DOORBELL sends (R62, R66). -/
def State.mbxInWrite (v : Word) (s : State) : State :=
  let s := s.updHost fun h => { h with mbxIn := putFld (if bit v 30 then putBit h.mbxIn 30 false else h.mbxIn) 6 0 (fld v 6 0) }
  if bit v 16 then s.doorbell else s

/-- ACK of an outbound message (R67); with FULL at 0 there is none to acknowledge. -/
def State.mbxOutAck (s : State) : State :=
  if s.bitOf .sender Reg.SYS_MBX_OUT_CTRL 31 then
    (s.wrBit .sender Reg.SYS_MBX_OUT_CTRL 31 false).raise .sender Ev.MBX_OUT_ACK
  else s

/-! ### Run control (R62, R64) -/

/-- HALT: a halt is requested of a core that runs. -/
def State.reqHalt (n : Nat) (s : State) : State :=
  s.updCore .sender n fun k => if k.halted then k else { k with haltReq := true }

/-- RESUME: a halted core continues at its PC; the fault it held is over (R62, R107). -/
def State.resume (n : Nat) (s : State) : State :=
  if (s.core .sender n).halted then
    (s.updCore .sender n fun k => { k with halted := false }).wrBit .sender (Reg.SYS_CORE_FCODE n) 31 false
  else s

/-- What a command answers, where it goes on. -/
def outcomeState (o : Host.Outcome State Fault Refusal) (s : State) : State :=
  match o with
  | .next t => t
  | .fault _ => s
  | .refused _ => s

/-- A core issues a decoded instruction (R74). -/
def issueFolko (i : Instr) (s : State) : Host.Outcome State Fault Refusal :=
  match i with
  | .add c d a b => execAdd c d a b s
  | .sub c d a b => execSub c d a b s
  | .and c d a b => execAnd c d a b s
  | .or c d a b => execOr c d a b s
  | .xor c d a b => execXor c d a b s
  | .shl c d a b => execShl c d a b s
  | .shr c d a b => execShr c d a b s
  | .sar c d a b => execSar c d a b s
  | .mul c d a b => execMul c d a b s
  | .mulhu c d a b => execMulhu c d a b s
  | .min c d a b => execMin c d a b s
  | .max c d a b => execMax c d a b s
  | .slt c d a b => execSlt c d a b s
  | .sltu c d a b => execSltu c d a b s
  | .clz c d a => execClz c d a s
  | .addi c d a i => execAddi c d a i s
  | .andi c d a i => execAndi c d a i s
  | .ori c d a i => execOri c d a i s
  | .xori c d a i => execXori c d a i s
  | .lui c d i => execLui c d i s
  | .shi c d a i => execShi c d a i s
  | .ldw c d a o => execLdw c d a o s
  | .stw c d a o => execStw c d a o s
  | .frd c d a o => execFrd c d a o s
  | .fwr c d a o => execFwr c d a o s
  | .beq c a b o => execBeq c a b o s
  | .bne c a b o => execBne c a b o s
  | .blt c a b o => execBlt c a b o s
  | .bge c a b o => execBge c a b o s
  | .bltu c a b o => execBltu c a b o s
  | .bgeu c a b o => execBgeu c a b o s
  | .jmp c o => execJmp c o s
  | .call c o => execCall c o s
  | .jr c d a => execJr c d a s
  | .waitt c a => execWaitt c a s
  | .waiteTimed c d a e => execWaiteTimed c d a e s
  | .waiteNotime c d e => execWaiteNotime c d e s
  | .waitePoll c d e => execWaitePoll c d e s
  | .cmt c d a b => execCmt c d a b s
  | .cmtq c d a b => execCmtq c d a b s
  | .bcst c d a b => execBcst c d a b s
  | .tsnd c d a b => execTsnd c d a b s
  | .trcv c d a => execTrcv c d a s
  | .evset c r a e => execEvset c r a e s
  | .evack c r a e => execEvack c r a e s
  | .xfer c d a => execXfer c d a s
  | .fence c => execFence c s
  | .nowWall c d l => execNowWall c d l s
  | .nowFrame c d => execNowFrame c d s
  | .nowCycles c d => execNowCycles c d s
  | .brk c v => execBrk c v s
  | .trap c v => execTrap c v s
  | _ => .next s

/-- The instruction word at a core's PC. DESIGN CHOICE: the host may write a PC that is not a multiple of 4; R105 gives
IFETCH to a fetch outside the instruction memory only, so the four bytes from that PC on are the word that is run. -/
def State.fetched (c : CoreId) (s : State) : Word :=
  Mem.readWord zeroByte (s.core c.part c.idx).imem (s.pc c).toNat

/-- A core issues the instruction at its PC, or faults on it (R79, R105); the value of NOW fn 0 lies a free number of ns,
at most 8, back (R101). -/
def State.runOne (c : CoreId) (s : State) : State :=
  let w := s.fetched c
  let (l, s) := s.free 23
  match decodeFolko c ⟨l.toNat % 9, Nat.mod_lt _ (by decide)⟩ w with
  | some i => outcomeState (issueFolko i s) s
  | none => s.issue c (State.faultCore c fILLEGAL w)

/-- STEP: a halted core executes one instruction and halts again (R62). -/
def State.stepCore (n : Fin 4) (s : State) : State :=
  if (s.core .sender n.val).halted then
    (s.updCore .sender n.val fun k => { k with halted := false, stepping := true }).runOne (.sender n)
  else s

/-- A write of `HOST_CORE_PC[n]`, ignored while the core runs (R62). -/
def State.pcWrite (n : Nat) (v : Word) (s : State) : State :=
  s.updCore .sender n fun k => if k.halted then { k with pc := v } else k

/-- A write of `HOST_CORE_CTL[n]`: HALT is set, or a halted core steps or resumes; STEP is taken before RESUME. -/
def State.coreCtlWrite (n : Fin 4) (v : Word) (s : State) : State :=
  let s := if bit v 2 then s.stepCore n else if bit v 1 then s.resume n.val else s
  if bit v 0 then s.reqHalt n.val else s

/-! ### The halted-core debug window (R63) -/

/-- The core that debug commands name. -/
def State.dbgCore (s : State) : Fin 4 := ⟨s.host.dbgSel.toNat % 4, Nat.mod_lt _ (by decide)⟩

/-- A debug command ends, with data for `HOST_DBG_DATA`. -/
def State.dbgDone (v : Word) (s : State) : State := s.updHost fun h => { h with dbgData := v, dbgStat := 1 }

/-- A debug command on the selected core: ERR while that core runs; DONE is cleared by the command. DESIGN CHOICE: R63
says of DONE only that each command clears it; ERR and the fault code of the command before are cleared with it. -/
def State.dbg (f : Fin 4 → State → State) (s : State) : State :=
  let n := s.dbgCore
  if (s.core .sender n.val).halted then f n (s.updHost fun h => { h with dbgStat := 0 })
  else s.updHost fun h => { h with dbgStat := 2 }

/-- A debug access: a failed one sets ERR with its fault code (R63, R105). -/
def State.dbgAccess (flt : Option Nat) (f : State → State) (s : State) : State :=
  match flt with
  | some code => s.updHost fun h => { h with dbgStat := wd (code * 2 ^ 8 + 3) }
  | none => f s

/-- Command 1. -/
def State.dbgRd (idx : BitVec 5) (n : Fin 4) (s : State) : State := s.dbgDone ((s.core .sender n.val).gpr idx)
/-- Command 2. -/
def State.dbgWr (idx : BitVec 5) (n : Fin 4) (s : State) : State :=
  (s.updCore .sender n.val fun k => k.setGpr idx s.host.dbgData).dbgDone s.host.dbgData
/-- Command 3: the LDW of the halted core, lock words with it (R42). -/
def State.dbgLd (n : Fin 4) (s : State) : State :=
  let x := s.host.dbgAddr
  s.dbgAccess (wordFault .sender x) (fun s =>
    let (s, v) := s.load (.sender n) x.toNat
    s.dbgDone v) 
/-- Command 4. -/
def State.dbgSt (n : Fin 4) (s : State) : State :=
  let x := s.host.dbgAddr
  let _ := n
  s.dbgAccess (wordFault .sender x) (fun s => (s.dmemWr .sender x.toNat s.host.dbgData).dbgDone s.host.dbgData)
/-- Command 5: the value returns by FRD_RETURN. -/
def State.dbgFr (n : Fin 4) (s : State) : State :=
  let x := s.host.dbgAddr
  s.dbgAccess (folioFault .sender x) (fun s => s.updCore .sender n.val fun k => { k with dbgFrd := some x })
/-- Command 6: done when the write has entered the queue. -/
def State.dbgFw (n : Fin 4) (s : State) : State :=
  let x := s.host.dbgAddr
  let v := s.host.dbgData
  s.dbgAccess (folioFault .sender x) (fun s =>
    (s.updCore .sender n.val fun k => { k with dbgFwr := k.dbgFwr ++ [(x, v)] }).postDebug (.sender n))

/-- A write of `HOST_DBG_CMD` (R63). -/
def State.dbgCmdWrite (v : Word) (s : State) : State :=
  let idx : BitVec 5 := v.extractLsb' 16 5
  match fld v 3 0 with
  | 1 => s.dbg (State.dbgRd idx)
  | 2 => s.dbg (State.dbgWr idx)
  | 3 => s.dbg State.dbgLd
  | 4 => s.dbg State.dbgSt
  | 5 => s.dbg State.dbgFr
  | 6 => s.dbg State.dbgFw
  | _ => s.updHost fun h => { h with dbgStat := 2 }

/-! ### Windows and MSI-X (R65, R68) -/

/-- A host access is discarded (R65, R68). -/
def State.denied (s : State) : State := (s.raise .sender Ev.HOST_DENIED).msixSend 6

/-- A write of instruction-memory window n, taken only while core n is halted (R65). -/
def State.imemWrite (n off : Nat) (v : Word) (s : State) : State :=
  if (s.core .sender n).halted then
    s.updCore .sender n fun k => { k with imem := Mem.writeWord zeroByte k.imem off v }
  else s.denied

/-- The frame-memory byte that an offset of the BAR2 window names (R61). -/
def State.windowAddr (off : Nat) (s : State) : Nat := s.host.dmaSel.toNat % 32 * 2 ^ 30 + off

/-- The unit of an address was handed to port HOST last, and poisoned: the completion of a read carries the poisoned bit
(R190). -/
def State.hostPoison (a : Nat) (s : State) : Bool :=
  match s.snd.dram.last with
  | none => false
  | some r => r.port = 9 && r.unit = a / 64 && r.poisoned

/-- A word that the window reads: as the poisoned unit was handed over, or as frame memory holds it. -/
def State.windowWord (a : Nat) (s : State) : Word :=
  match s.snd.dram.last with
  | none => s.fmWord a
  | some r =>
    if s.hostPoison a then
      let b := fun (i : Nat) => r.data.getD (a % 64 + i) 0
      wordOf (b 0) (b 1) (b 2) (b 3)
    else s.fmWord a

/-- An access of the frame-memory window (R65), through port HOST (R180): beyond the installed memory it is discarded, and
a read gives all ones. -/
def State.frameWindow (write : Bool) (off : Nat) (v : Word) (s : State) : State :=
  let a := s.windowAddr off
  if a + 4 ≤ s.installed then
    if write then s.portPuts 9 a (bytesLE [v])
    else (s.portUse 9 (unitSpan a 4)).emit (.hostRead (s.windowWord a) (s.hostPoison a))
  else
    let s := s.denied
    if write then s else s.emit (.hostRead 0xFFFFFFFF false)

/-- A vector is unmasked: a message that waits is sent (R68). -/
def State.unmask (vec : Nat) (s : State) : State :=
  let i := 4 * vec + 3
  let s := s.updHost fun h => { h with msix := SMap.set msixReset h.msix i (SMap.get msixReset h.msix i &&& ~~~1) }
  if bit (SMap.get (fun _ => 0) s.host.pba (vec / 32)) (vec % 32) then (s.pbaSet vec false).emit (.msix vec) else s

/-- A write of word i of the MSI-X table; of the vector control word only the mask bit is stored. -/
def State.msixWrite (i : Nat) (v : Word) (s : State) : State :=
  if i % 4 = 3 then
    if bit v 0 then s.updHost fun h => { h with msix := SMap.set msixReset h.msix i 1 } else s.unmask (i / 4)
  else s.updHost fun h => { h with msix := SMap.set msixReset h.msix i v }

/-! ### BAR0 (R62) -/

/-- A core of the sender by number. -/
def core4 (n : Nat) : Fin 4 := ⟨n % 4, Nat.mod_lt _ (by decide)⟩

/-- A write of a BAR0 offset; an offset that is not listed, or not aligned, ignores it (R62). -/
def State.bar0Write (off : Nat) (v : Word) (s : State) : State :=
  if off % 4 ≠ 0 then s
  else if off = 0x4 then s.updHost fun h => { h with dmaSel := v &&& 0x1F }
  else if off = 0x10 then s.mbxInWrite v
  else if off = 0x14 then (if bit v 16 then s.mbxOutAck else s)
  else if 0x20 ≤ off && off < 0x60 then
    let n := core4 ((off - 0x20) / 0x10)
    if off % 16 = 0 then s.coreCtlWrite n v else if off % 16 = 4 then s.pcWrite n.val v else s
  else if off = 0x80 then s.updHost fun h => { h with dbgSel := v &&& 3 }
  else if off = 0x84 then s.dbgCmdWrite v
  else if off = 0x88 then s.updHost fun h => { h with dbgAddr := v }
  else if off = 0x8C then s.updHost fun h => { h with dbgData := v }
  else if 0x1000 ≤ off && off < 0x1100 then s.wr .sender (Reg.SYS_MBX_IN ((off - 0x1000) / 4)) v
  else if 0x2000 ≤ off && off < 0x2400 then s.msixWrite ((off - 0x2000) / 4) v
  else if 0x100000 ≤ off && off < 0x180000 then s.imemWrite ((off - 0x100000) / 0x20000) (off % 0x20000) v
  else s

/-- `HOST_STAT` (R62). -/
def State.hostStat (s : State) : Word :=
  let h := fun (n : Nat) => (s.core .sender n).halted.toNat * 2 ^ (n + 1)
  wd ((decide (s.sender.phase = .up)).toNat + h 0 + h 1 + h 2 + h 3)

/-- `HOST_CORE_CTL[n]` (R62). -/
def State.coreCtl (n : Nat) (s : State) : Word :=
  let k := s.core .sender n
  wd (k.cause * 2 ^ 9 + k.halted.toNat * 2 ^ 8 + k.haltReq.toNat)

/-- What a read of a BAR0 offset gives; WO bits, and an offset that is not listed, read as 0 (R62). No read of BAR0
changes anything. -/
def State.bar0Read (off : Nat) (s : State) : Word :=
  if off % 4 ≠ 0 then 0
  else if off = 0x0 then s.hostStat
  else if off = 0x4 then s.host.dmaSel
  else if off = 0x10 then s.host.mbxIn
  else if off = 0x14 then s.rd .sender Reg.SYS_MBX_OUT_CTRL
  else if 0x20 ≤ off && off < 0x60 then
    let n := (off - 0x20) / 0x10
    let k := s.core .sender n
    if off % 16 = 0 then s.coreCtl n else if off % 16 = 4 && k.halted then k.pc else 0
  else if off = 0x80 then s.host.dbgSel
  else if off = 0x88 then s.host.dbgAddr
  else if off = 0x8C then s.host.dbgData
  else if off = 0x90 then s.host.dbgStat
  else if 0x1000 ≤ off && off < 0x1100 then s.rd .sender (Reg.SYS_MBX_IN ((off - 0x1000) / 4))
  else if 0x1100 ≤ off && off < 0x1200 then s.rd .sender (Reg.SYS_MBX_OUT ((off - 0x1100) / 4))
  else if 0x2000 ≤ off && off < 0x2400 then SMap.get msixReset s.host.msix ((off - 0x2000) / 4)
  else if off = 0x3000 || off = 0x3004 then SMap.get (fun _ => 0) s.host.pba ((off - 0x3000) / 4)
  else if 0x100000 ≤ off && off < 0x180000 then
    let k := s.core .sender ((off - 0x100000) / 0x20000)
    if k.halted then Mem.readWord zeroByte k.imem (off % 0x20000) else 0
  else 0

/-! ### The meanings -/

/-- HOST_DOORBELL (R66): LEN and DOORBELL = 1 in one write. -/
def execHostDoorbell (len : BitVec 7) (s : State) : Host.Outcome State Fault Refusal :=
  .next (s.byHost (State.mbxInWrite (wd (2 ^ 16 + len.toNat))))

/-- HOST_MBX_OUT_ACK (R67). -/
def execHostMbxOutAck (s : State) : Host.Outcome State Fault Refusal := .next (s.byHost State.mbxOutAck)

/-- SYS_MBX_IN_ACK (R66). -/
def execSysMbxInAck (s : State) : Host.Outcome State Fault Refusal := .next (s.when' .sender State.mbxInAck)

/-- SYS_MBX_OUT_SEND (R67). -/
def execSysMbxOutSend (len : BitVec 7) (s : State) : Host.Outcome State Fault Refusal :=
  .next (s.when' .sender (State.mbxOutWrite (wd (2 ^ 16 + len.toNat))))

/-- HOST_CORE_HALT (R62, R64). -/
def execHostCoreHalt (n : Fin 4) (s : State) : Host.Outcome State Fault Refusal := .next (s.byHost (State.reqHalt n.val))

/-- HOST_CORE_STEP (R62). -/
def execHostCoreStep (n : Fin 4) (s : State) : Host.Outcome State Fault Refusal := .next (s.byHost (State.stepCore n))

/-- HOST_CORE_RESUME (R62, R64). -/
def execHostCoreResume (n : Fin 4) (s : State) : Host.Outcome State Fault Refusal := .next (s.byHost (State.resume n.val))

/-- HOST_CORE_PC_WRITE (R62). -/
def execHostCorePcWrite (n : Fin 4) (v : Word) (s : State) : Host.Outcome State Fault Refusal :=
  .next (s.byHost (State.pcWrite n.val v))

/-- DBG_READ_REG (R63). -/
def execDbgReadReg (idx : BitVec 5) (s : State) : Host.Outcome State Fault Refusal :=
  .next (s.byHost (State.dbg (State.dbgRd idx)))
/-- DBG_WRITE_REG (R63). -/
def execDbgWriteReg (idx : BitVec 5) (s : State) : Host.Outcome State Fault Refusal :=
  .next (s.byHost (State.dbg (State.dbgWr idx)))
/-- DBG_LDW (R42, R63). -/
def execDbgLdw (s : State) : Host.Outcome State Fault Refusal := .next (s.byHost (State.dbg State.dbgLd))
/-- DBG_STW (R63). -/
def execDbgStw (s : State) : Host.Outcome State Fault Refusal := .next (s.byHost (State.dbg State.dbgSt))
/-- DBG_FRD (R63). -/
def execDbgFrd (s : State) : Host.Outcome State Fault Refusal := .next (s.byHost (State.dbg State.dbgFr))
/-- DBG_FWR (R63). -/
def execDbgFwr (s : State) : Host.Outcome State Fault Refusal := .next (s.byHost (State.dbg State.dbgFw))

/-- HOST_IMEM_WRITE (R65): of an aligned word. -/
def execHostImemWrite (n : Fin 4) (off : BitVec 17) (v : Word) (s : State) : Host.Outcome State Fault Refusal :=
  .next (s.byHost fun s => if off.toNat % 4 = 0 then s.imemWrite n.val off.toNat v else s)

/-- HOST_FRAME_WINDOW (R65): of an aligned word. -/
def execHostFrameWindow (write : Bool) (off : BitVec 30) (v : Word) (s : State) : Host.Outcome State Fault Refusal :=
  .next (s.byHost fun s => if off.toNat % 4 = 0 then s.frameWindow write off.toNat v else s)

/-- MSIX_UNMASK (R68). -/
def execMsixUnmask (vec : Fin 64) (s : State) : Host.Outcome State Fault Refusal := .next (s.byHost (State.unmask vec.val))

/-- REGISTER_WRITE (R7, R8, R62): a folio write that reaches its block node, or a write of a BAR0 offset by the host. -/
def execRegisterWrite (t : WriteTarget) (v : Word) (s : State) : Host.Outcome State Fault Refusal :=
  .next (match t with
    | .folio p a => s.when' p (State.folioPut p a v)
    | .bar0 off => s.byHost (State.bar0Write off.toNat v))

end Sys2Proof.Machine
end

