-- ==== Sys2Proof/Machine/Dispatch.lean ====
section
/-!
DEFINITION. What each command does: one arm per constructor, one call of its meaning.
-/

namespace Sys2Proof.Machine

/-- The effect of a command on everything but the queue. -/
def exec (i : Instr) (s : State) : Host.Outcome State Fault Refusal :=
  match i with
  | .add c d a b => Sys2Proof.Machine.execAdd c d a b s
  | .sub c d a b => Sys2Proof.Machine.execSub c d a b s
  | .and c d a b => Sys2Proof.Machine.execAnd c d a b s
  | .or c d a b => Sys2Proof.Machine.execOr c d a b s
  | .xor c d a b => Sys2Proof.Machine.execXor c d a b s
  | .shl c d a b => Sys2Proof.Machine.execShl c d a b s
  | .shr c d a b => Sys2Proof.Machine.execShr c d a b s
  | .sar c d a b => Sys2Proof.Machine.execSar c d a b s
  | .mul c d a b => Sys2Proof.Machine.execMul c d a b s
  | .mulhu c d a b => Sys2Proof.Machine.execMulhu c d a b s
  | .min c d a b => Sys2Proof.Machine.execMin c d a b s
  | .max c d a b => Sys2Proof.Machine.execMax c d a b s
  | .slt c d a b => Sys2Proof.Machine.execSlt c d a b s
  | .sltu c d a b => Sys2Proof.Machine.execSltu c d a b s
  | .clz c d a => Sys2Proof.Machine.execClz c d a s
  | .addi c d a imm => Sys2Proof.Machine.execAddi c d a imm s
  | .andi c d a imm => Sys2Proof.Machine.execAndi c d a imm s
  | .ori c d a imm => Sys2Proof.Machine.execOri c d a imm s
  | .xori c d a imm => Sys2Proof.Machine.execXori c d a imm s
  | .lui c d imm => Sys2Proof.Machine.execLui c d imm s
  | .shi c d a imm => Sys2Proof.Machine.execShi c d a imm s
  | .ldw c d a off => Sys2Proof.Machine.execLdw c d a off s
  | .stw c d a off => Sys2Proof.Machine.execStw c d a off s
  | .frd c d a off => Sys2Proof.Machine.execFrd c d a off s
  | .fwr c d a off => Sys2Proof.Machine.execFwr c d a off s
  | .beq c a b off => Sys2Proof.Machine.execBeq c a b off s
  | .bne c a b off => Sys2Proof.Machine.execBne c a b off s
  | .blt c a b off => Sys2Proof.Machine.execBlt c a b off s
  | .bge c a b off => Sys2Proof.Machine.execBge c a b off s
  | .bltu c a b off => Sys2Proof.Machine.execBltu c a b off s
  | .bgeu c a b off => Sys2Proof.Machine.execBgeu c a b off s
  | .jmp c off => Sys2Proof.Machine.execJmp c off s
  | .call c off => Sys2Proof.Machine.execCall c off s
  | .jr c d a => Sys2Proof.Machine.execJr c d a s
  | .illegalOpcode c w => Sys2Proof.Machine.execIllegalOpcode c w s
  | .ifetch c => Sys2Proof.Machine.execIfetch c s
  | .waitt c a => Sys2Proof.Machine.execWaitt c a s
  | .waittWake c => Sys2Proof.Machine.execWaittWake c s
  | .waiteTimed c d a ev => Sys2Proof.Machine.execWaiteTimed c d a ev s
  | .waiteNotime c d ev => Sys2Proof.Machine.execWaiteNotime c d ev s
  | .waitePoll c d ev => Sys2Proof.Machine.execWaitePoll c d ev s
  | .waiteWake p ev => Sys2Proof.Machine.execWaiteWake p ev s
  | .cmt c d a b => Sys2Proof.Machine.execCmt c d a b s
  | .cmtComplete c => Sys2Proof.Machine.execCmtComplete c s
  | .cmtq c d a b => Sys2Proof.Machine.execCmtq c d a b s
  | .bcst c d a b => Sys2Proof.Machine.execBcst c d a b s
  | .tsnd c d a b => Sys2Proof.Machine.execTsnd c d a b s
  | .tsndCommandSend port => Sys2Proof.Machine.execTsndCommandSend port s
  | .trcv c d a => Sys2Proof.Machine.execTrcv c d a s
  | .evset c reg a ev => Sys2Proof.Machine.execEvset c reg a ev s
  | .evack c reg a ev => Sys2Proof.Machine.execEvack c reg a ev s
  | .xfer c d a => Sys2Proof.Machine.execXfer c d a s
  | .xferDone c flashErrAt => Sys2Proof.Machine.execXferDone c flashErrAt s
  | .fence c => Sys2Proof.Machine.execFence c s
  | .fenceDone c => Sys2Proof.Machine.execFenceDone c s
  | .folioWriteArrival c => Sys2Proof.Machine.execFolioWriteArrival c s
  | .frdReturn c => Sys2Proof.Machine.execFrdReturn c s
  | .nowWall c d lag => Sys2Proof.Machine.execNowWall c d lag s
  | .nowFrame c d => Sys2Proof.Machine.execNowFrame c d s
  | .nowCycles c d => Sys2Proof.Machine.execNowCycles c d s
  | .brk c code => Sys2Proof.Machine.execBrk c code s
  | .trap c code => Sys2Proof.Machine.execTrap c code s
  | .coreHalt c => Sys2Proof.Machine.execCoreHalt c s
  | .hostDoorbell len => Sys2Proof.Machine.execHostDoorbell len s
  | .hostMbxOutAck => Sys2Proof.Machine.execHostMbxOutAck s
  | .sysMbxInAck => Sys2Proof.Machine.execSysMbxInAck s
  | .sysMbxOutSend len => Sys2Proof.Machine.execSysMbxOutSend len s
  | .hostCoreHalt n => Sys2Proof.Machine.execHostCoreHalt n s
  | .hostCoreStep n => Sys2Proof.Machine.execHostCoreStep n s
  | .hostCoreResume n => Sys2Proof.Machine.execHostCoreResume n s
  | .hostCorePcWrite n v => Sys2Proof.Machine.execHostCorePcWrite n v s
  | .dbgReadReg idx => Sys2Proof.Machine.execDbgReadReg idx s
  | .dbgWriteReg idx => Sys2Proof.Machine.execDbgWriteReg idx s
  | .dbgLdw => Sys2Proof.Machine.execDbgLdw s
  | .dbgStw => Sys2Proof.Machine.execDbgStw s
  | .dbgFrd => Sys2Proof.Machine.execDbgFrd s
  | .dbgFwr => Sys2Proof.Machine.execDbgFwr s
  | .hostImemWrite n off v => Sys2Proof.Machine.execHostImemWrite n off v s
  | .hostFrameWindow write off v => Sys2Proof.Machine.execHostFrameWindow write off v s
  | .msixUnmask vec => Sys2Proof.Machine.execMsixUnmask vec s
  | .registerWrite t v => Sys2Proof.Machine.execRegisterWrite t v s
  | .cmdWrite port pkt => Sys2Proof.Machine.execCmdWrite port pkt s
  | .cmdRead port pkt => Sys2Proof.Machine.execCmdRead port pkt s
  | .cmdClose port pkt => Sys2Proof.Machine.execCmdClose port pkt s
  | .cmdSwap port pkt => Sys2Proof.Machine.execCmdSwap port pkt s
  | .cmdMsg port pkt => Sys2Proof.Machine.execCmdMsg port pkt s
  | .telMsg k pkt => Sys2Proof.Machine.execTelMsg k pkt s
  | .telReadData k pkt => Sys2Proof.Machine.execTelReadData k pkt s
  | .telReport k pkt => Sys2Proof.Machine.execTelReport k pkt s
  | .telEventRecords k pkt => Sys2Proof.Machine.execTelEventRecords k pkt s
  | .netLink j lanes align fec hiBer lfault rfault inRx => Sys2Proof.Machine.execNetLink j lanes align fec hiBer lfault rfault inRx s
  | .netRxFrame j bytes fcsOk lag => Sys2Proof.Machine.execNetRxFrame j bytes fcsOk lag s
  | .flowMergeTimeout f => Sys2Proof.Machine.execFlowMergeTimeout f s
  | .flowPathTimeout f two => Sys2Proof.Machine.execFlowPathTimeout f two s
  | .ringTailWrite r v => Sys2Proof.Machine.execRingTailWrite r v s
  | .netSnap j => Sys2Proof.Machine.execNetSnap j s
  | .flowSnap => Sys2Proof.Machine.execFlowSnap s
  | .netTxrTailWrite j t v => Sys2Proof.Machine.execNetTxrTailWrite j t v s
  | .txFrameSent j poisoned lag => Sys2Proof.Machine.execTxFrameSent j poisoned lag s
  | .rsFecCodeword j err => Sys2Proof.Machine.execRsFecCodeword j err s
  | .timeNowRead p => Sys2Proof.Machine.execTimeNowRead p s
  | .timeSrvOfsWrite v => Sys2Proof.Machine.execTimeSrvOfsWrite v s
  | .timeSet lo => Sys2Proof.Machine.execTimeSet lo s
  | .timeSrcChange src => Sys2Proof.Machine.execTimeSrcChange src s
  | .timeTxqPop j => Sys2Proof.Machine.execTimeTxqPop j s
  | .ppsEdge => Sys2Proof.Machine.execPpsEdge s
  | .ppsMissing => Sys2Proof.Machine.execPpsMissing s
  | .servoHoldover => Sys2Proof.Machine.execServoHoldover s
  | .refLost => Sys2Proof.Machine.execRefLost s
  | .refResume => Sys2Proof.Machine.execRefResume s
  | .timeTx => Sys2Proof.Machine.execTimeTx s
  | .timeRxTile port pkt => Sys2Proof.Machine.execTimeRxTile port pkt s
  | .timeRxSender k pkt => Sys2Proof.Machine.execTimeRxSender k pkt s
  | .timeSrcLost => Sys2Proof.Machine.execTimeSrcLost s
  | .probeSend port id t1 => Sys2Proof.Machine.execProbeSend port id t1 s
  | .probe port pkt turn => Sys2Proof.Machine.execProbe port pkt turn s
  | .echo port pkt t4 => Sys2Proof.Machine.execEcho port pkt t4 s
  | .phaseEdge j => Sys2Proof.Machine.execPhaseEdge j s
  | .phaseLost j => Sys2Proof.Machine.execPhaseLost j s
  | .frameOrigin p => Sys2Proof.Machine.execFrameOrigin p s
  | .crossLinkSync k pkt => Sys2Proof.Machine.execCrossLinkSync k pkt s
  | .drcEnable => Sys2Proof.Machine.execDrcEnable s
  | .drcDisable => Sys2Proof.Machine.execDrcDisable s
  | .drcCfgWrite v => Sys2Proof.Machine.execDrcCfgWrite v s
  | .drcTrainAttemptEnd ch rd0 rd1 wr0 wr1 => Sys2Proof.Machine.execDrcTrainAttemptEnd ch rd0 rd1 wr0 wr1 s
  | .drcTrack ch pass0 pass1 => Sys2Proof.Machine.execDrcTrack ch pass0 pass1 s
  | .drcMr4Poll ch code m hot wrEcc => Sys2Proof.Machine.execDrcMr4Poll ch code m hot wrEcc s
  | .drcRefresh ch bank => Sys2Proof.Machine.execDrcRefresh ch bank s
  | .dramReadRequest port unit chain deadline => Sys2Proof.Machine.execDramReadRequest port unit chain deadline s
  | .dramWriteRequest port unit en data => Sys2Proof.Machine.execDramWriteRequest port unit en data s
  | .dramIssue ch ecc => Sys2Proof.Machine.execDramIssue ch ecc s
  | .dramReadComplete ch ecc => Sys2Proof.Machine.execDramReadComplete ch ecc s
  | .drcBwWindow => Sys2Proof.Machine.execDrcBwWindow s
  | .drcTestFill => Sys2Proof.Machine.execDrcTestFill s
  | .drcTestCheck => Sys2Proof.Machine.execDrcTestCheck s
  | .testDone => Sys2Proof.Machine.execTestDone s
  | .compositionStart k slot => Sys2Proof.Machine.execCompositionStart k slot s
  | .layerFetch k d row => Sys2Proof.Machine.execLayerFetch k d row s
  | .layerUnitParity p u => Sys2Proof.Machine.execLayerUnitParity p u s
  | .pipeEccError p => Sys2Proof.Machine.execPipeEccError p s
  | .previewStart sent => Sys2Proof.Machine.execPreviewStart sent s
  | .pvFrame poisoned => Sys2Proof.Machine.execPvFrame poisoned s
  | .rasterLineStart levels => Sys2Proof.Machine.execRasterLineStart levels s
  | .frameLatch => Sys2Proof.Machine.execFrameLatch s
  | .lnkEnable port en => Sys2Proof.Machine.execLnkEnable port en s
  | .lnkRestart port => Sys2Proof.Machine.execLnkRestart port s
  | .lnkTxSleepWrite port sleep => Sys2Proof.Machine.execLnkTxSleepWrite port sleep s
  | .detectAttempt port txLanes rxLanes ref => Sys2Proof.Machine.execDetectAttempt port txLanes rxLanes ref s
  | .lnkNopeer port => Sys2Proof.Machine.execLnkNopeer port s
  | .trainEntryMeasured port e fom0 fom1 fom2 far => Sys2Proof.Machine.execTrainEntryMeasured port e fom0 fom1 fom2 far s
  | .lnkTrainFail port => Sys2Proof.Machine.execLnkTrainFail port s
  | .lockTimeout port => Sys2Proof.Machine.execLockTimeout port s
  | .alignmentBlock port lane bytes deskewed far => Sys2Proof.Machine.execAlignmentBlock port lane bytes deskewed far s
  | .exch port pkt => Sys2Proof.Machine.execExch port pkt s
  | .exchSend port => Sys2Proof.Machine.execExchSend port s
  | .exchangeTimeout port => Sys2Proof.Machine.execExchangeTimeout port s
  | .laneFail port lane => Sys2Proof.Machine.execLaneFail port lane s
  | .laneSwap port tx => Sys2Proof.Machine.execLaneSwap port tx s
  | .spareRestore port tx lane fom => Sys2Proof.Machine.execSpareRestore port tx lane fom s
  | .lnkEqWeak port lane fom => Sys2Proof.Machine.execLnkEqWeak port lane fom s
  | .lnkSleep port => Sys2Proof.Machine.execLnkSleep port s
  | .lnkWakeStart port tx => Sys2Proof.Machine.execLnkWakeStart port tx s
  | .lnkWake port tx => Sys2Proof.Machine.execLnkWake port tx s
  | .lnkRefLost port => Sys2Proof.Machine.execLnkRefLost port s
  | .refRestored port => Sys2Proof.Machine.execRefRestored port s
  | .packetForward port pkt => Sys2Proof.Machine.execPacketForward port pkt s
  | .lnkDiscard k pkt => Sys2Proof.Machine.execLnkDiscard k pkt s
  | .ownPacketSend port level peak => Sys2Proof.Machine.execOwnPacketSend port level peak s
  | .pvGo k => Sys2Proof.Machine.execPvGo k s
  | .pvAbort k => Sys2Proof.Machine.execPvAbort k s
  | .pvRetry k => Sys2Proof.Machine.execPvRetry k s
  | .pvResponse k bytes => Sys2Proof.Machine.execPvResponse k bytes s
  | .pvNoAnswer k => Sys2Proof.Machine.execPvNoAnswer k s
  | .pvBias k => Sys2Proof.Machine.execPvBias k s
  | .pvRequestEnd k => Sys2Proof.Machine.execPvRequestEnd k s
  | .pingPresenceSample k low => Sys2Proof.Machine.execPingPresenceSample k low s
  | .porvalCollisionSeen k => Sys2Proof.Machine.execPorvalCollisionSeen k s
  | .rollReset bytes => Sys2Proof.Machine.execRollReset bytes s
  | .ping bytes => Sys2Proof.Machine.execPing bytes s
  | .note bytes => Sys2Proof.Machine.execNote bytes s
  | .ident bytes => Sys2Proof.Machine.execIdent bytes s
  | .accRead bytes => Sys2Proof.Machine.execAccRead bytes s
  | .challenge bytes => Sys2Proof.Machine.execChallenge bytes s
  | .fetch bytes => Sys2Proof.Machine.execFetch bytes s
  | .wake bytes => Sys2Proof.Machine.execWake bytes s
  | .renewSend k => Sys2Proof.Machine.execRenewSend k s
  | .claimSend k => Sys2Proof.Machine.execClaimSend k s
  | .releaseSend k => Sys2Proof.Machine.execReleaseSend k s
  | .loanRenew port pkt => Sys2Proof.Machine.execLoanRenew port pkt s
  | .loanClaim port pkt => Sys2Proof.Machine.execLoanClaim port pkt s
  | .loanRelease port pkt => Sys2Proof.Machine.execLoanRelease port pkt s
  | .loanReleased => Sys2Proof.Machine.execLoanReleased s
  | .loanExpired => Sys2Proof.Machine.execLoanExpired s
  | .loanOrphan => Sys2Proof.Machine.execLoanOrphan s
  | .stateSend => Sys2Proof.Machine.execStateSend s
  | .loanState k pkt => Sys2Proof.Machine.execLoanState k pkt s
  | .seenTimeout k pos => Sys2Proof.Machine.execSeenTimeout k pos s
  | .beatSend => Sys2Proof.Machine.execBeatSend s
  | .beat k pkt => Sys2Proof.Machine.execBeat k pkt s
  | .chainBeatLost k => Sys2Proof.Machine.execChainBeatLost k s
  | .xpathLost => Sys2Proof.Machine.execXpathLost s
  | .loanXbeat v => Sys2Proof.Machine.execLoanXbeat v s
  | .loanExclWrite k hi v => Sys2Proof.Machine.execLoanExclWrite k hi v s
  | .loanStkGo chains => Sys2Proof.Machine.execLoanStkGo chains s
  | .stocktakeDue f => Sys2Proof.Machine.execStocktakeDue f s
  | .stocktakeCheck oneShot => Sys2Proof.Machine.execStocktakeCheck oneShot s
  | .stocktakeResult oneShot => Sys2Proof.Machine.execStocktakeResult oneShot s
  | .pix port pkt => Sys2Proof.Machine.execPix port pkt s
  | .abort port pkt => Sys2Proof.Machine.execAbort port pkt s
  | .sync port pkt => Sys2Proof.Machine.execSync port pkt s
  | .sig port pkt => Sys2Proof.Machine.execSig port pkt s
  | .pixSwap => Sys2Proof.Machine.execPixSwap s
  | .slotWindowStart f slot => Sys2Proof.Machine.execSlotWindowStart f slot s
  | .tileLatchPoint => Sys2Proof.Machine.execTileLatchPoint s
  | .pixelCorrect x y pix row cor => Sys2Proof.Machine.execPixelCorrect x y pix row cor s
  | .corScrub errs => Sys2Proof.Machine.execCorScrub errs s
  | .pixDarkClr m => Sys2Proof.Machine.execPixDarkClr m s
  | .correctionWindowWrite addr v => Sys2Proof.Machine.execCorrectionWindowWrite addr v s
  | .corCopyGo => Sys2Proof.Machine.execCorCopyGo s
  | .corCopyDone => Sys2Proof.Machine.execCorCopyDone s
  | .identityFillDone => Sys2Proof.Machine.execIdentityFillDone s
  | .lineSlot obs => Sys2Proof.Machine.execLineSlot obs s
  | .lampUnmeasured line pad => Sys2Proof.Machine.execLampUnmeasured line pad s
  | .diagSgOffWrite v => Sys2Proof.Machine.execDiagSgOffWrite v s
  | .diagFlistClr => Sys2Proof.Machine.execDiagFlistClr s
  | .trimCycleStart own near mv => Sys2Proof.Machine.execTrimCycleStart own near mv s
  | .trimI2cTransfer bytes => Sys2Proof.Machine.execTrimI2cTransfer bytes s
  | .trimI2cErr => Sys2Proof.Machine.execTrimI2cErr s
  | .trimI2cRetry => Sys2Proof.Machine.execTrimI2cRetry s
  | .thmConversion p counts => Sys2Proof.Machine.execThmConversion p counts s
  | .thmLehrExitWrite p => Sys2Proof.Machine.execThmLehrExitWrite p s
  | .evtLogPop => Sys2Proof.Machine.execEvtLogPop s
  | .evtTlogPop => Sys2Proof.Machine.execEvtTlogPop s
  | .evtRouteWrite p j v => Sys2Proof.Machine.execEvtRouteWrite p j v s
  | .telBatchSend => Sys2Proof.Machine.execTelBatchSend s
  | .fltEscalated p a => Sys2Proof.Machine.execFltEscalated p a s
  | .fltSafeCmd p v => Sys2Proof.Machine.execFltSafeCmd p v s
  | .fltClrFirst p => Sys2Proof.Machine.execFltClrFirst p s
  | .collCheck p fail recSound => Sys2Proof.Machine.execCollCheck p fail recSound s
  | .nodeBlock p n => Sys2Proof.Machine.execNodeBlock p n s
  | .nodeRegion p r => Sys2Proof.Machine.execNodeRegion p r s
  | .fabricErr q chains net => Sys2Proof.Machine.execFabricErr q chains net s
  | .fabricChip => Sys2Proof.Machine.execFabricChip s
  | .idnChalGo p => Sys2Proof.Machine.execIdnChalGo p s
  | .chalDone p => Sys2Proof.Machine.execChalDone p s
  | .idnVfyHash p => Sys2Proof.Machine.execIdnVfyHash p s
  | .idnVfyChallenge p ch => Sys2Proof.Machine.execIdnVfyChallenge p ch s
  | .vfyDone p => Sys2Proof.Machine.execVfyDone p s
  | .idnRandRead p => Sys2Proof.Machine.execIdnRandRead p s
  | .idnGenWrite p v => Sys2Proof.Machine.execIdnGenWrite p v s
  | .catReady p => Sys2Proof.Machine.execCatReady p s
  | .idnDigChain chains => Sys2Proof.Machine.execIdnDigChain chains s
  | .idnDigRequest chains => Sys2Proof.Machine.execIdnDigRequest chains s
  | .digestRequest port pkt => Sys2Proof.Machine.execDigestRequest port pkt s
  | .digestChain port pkt => Sys2Proof.Machine.execDigestChain port pkt s
  | .digestCatalogue k pkt => Sys2Proof.Machine.execDigestCatalogue k pkt s
  | .updOpen src target => Sys2Proof.Machine.execUpdOpen src target s
  | .updEraseDone p ok => Sys2Proof.Machine.execUpdEraseDone p ok s
  | .updLoad => Sys2Proof.Machine.execUpdLoad s
  | .updLoadDone ok => Sys2Proof.Machine.execUpdLoadDone ok s
  | .updData port pkt => Sys2Proof.Machine.execUpdData port pkt s
  | .updDataProgrammed ok => Sys2Proof.Machine.execUpdDataProgrammed ok s
  | .updQuery port pkt => Sys2Proof.Machine.execUpdQuery port pkt s
  | .updVerify src => Sys2Proof.Machine.execUpdVerify src s
  | .updVerifyDone p => Sys2Proof.Machine.execUpdVerifyDone p s
  | .updActivate src => Sys2Proof.Machine.execUpdActivate src s
  | .puntyBlockCopied p => Sys2Proof.Machine.execPuntyBlockCopied p s
  | .puntyCopyDone p => Sys2Proof.Machine.execPuntyCopyDone p s
  | .updConfirm src => Sys2Proof.Machine.execUpdConfirm src s
  | .updAbort src => Sys2Proof.Machine.execUpdAbort src s
  | .confirmTimeout p => Sys2Proof.Machine.execConfirmTimeout p s
  | .updAck k pkt => Sys2Proof.Machine.execUpdAck k pkt s
  | .updTxData start => Sys2Proof.Machine.execUpdTxData start s
  | .updTxControl op => Sys2Proof.Machine.execUpdTxControl op s
  | .updTxTimeout k pos => Sys2Proof.Machine.execUpdTxTimeout k pos s
  | .updOwnerFuse p v => Sys2Proof.Machine.execUpdOwnerFuse p v s
  | .updSetAccept p => Sys2Proof.Machine.execUpdSetAccept p s
  | .updFwErase p => Sys2Proof.Machine.execUpdFwErase p s
  | .updFwProgram p nw => Sys2Proof.Machine.execUpdFwProgram p nw s
  | .updFwDone p ok => Sys2Proof.Machine.execUpdFwDone p ok s
  | .boot p => Sys2Proof.Machine.execBoot p s
  | .por p others => Sys2Proof.Machine.execPor p others s
  | .pinReset p others => Sys2Proof.Machine.execPinReset p others s
  | .brownout p others => Sys2Proof.Machine.execBrownout p others s
  | .softReset p others => Sys2Proof.Machine.execSoftReset p others s
  | .coreRestart p others => Sys2Proof.Machine.execCoreRestart p others s
  | .internalResetRelease p straps => Sys2Proof.Machine.execInternalResetRelease p straps s
  | .lowPowerEntry wakeN => Sys2Proof.Machine.execLowPowerEntry wakeN s
  | .wakeN others => Sys2Proof.Machine.execWakeN others s
  | .hostPerst rising => Sys2Proof.Machine.execHostPerst rising s
  | .railWarn p => Sys2Proof.Machine.execRailWarn p s
  | .railToleranceChange p n ok => Sys2Proof.Machine.execRailToleranceChange p n ok s
  | .uRefFirstEdge => Sys2Proof.Machine.execURefFirstEdge s
  | .porvalDomainPor => Sys2Proof.Machine.execPorvalDomainPor s
  | .wakeOutPulseEnd => Sys2Proof.Machine.execWakeOutPulseEnd s
  | .bypass p => Sys2Proof.Machine.execBypass p s
  | .samplePreload p => Sys2Proof.Machine.execSamplePreload p s
  | .extest p => Sys2Proof.Machine.execExtest p s
  | .idcode p => Sys2Proof.Machine.execIdcode p s
  | .clamp p => Sys2Proof.Machine.execClamp p s
  | .highz p => Sys2Proof.Machine.execHighz p s
  | .tapReset p => Sys2Proof.Machine.execTapReset p s
  | .commitWReached p => Sys2Proof.Machine.execCommitWReached p s
  | .waiteTimeout c => Sys2Proof.Machine.execWaiteTimeout c s

end Sys2Proof.Machine
end

