-- ==== Sys2Proof/Machine/Step.lean ====
section
/-!
DEFINITION. One step of the block: the command at the front of the queue, or one TIMEC cycle of each part while the
queue is empty.
-/

namespace Sys2Proof.Machine

/-- The state without its first waiting command. -/
def State.dequeue (s : State) : State := { s with pending := s.pending.tail }

/-- One TIMEC cycle of each part (R142), in which a tile's outbounds go on sending (R285). DESIGN CHOICE: time moves while
no command waits. -/
def State.idle (s : State) : State := (State.cycle .tile (State.cycle .sender s)).bypTick

/-- One step. -/
def step (s : State) : Host.Outcome State Fault Refusal :=
  match s.pending with
  | [] => .next s.idle
  | i :: _ => exec i s.dequeue

/-- The state with the command that a word spells put at the front of its queue. -/
def State.withFetchWord (s : State) (nbits w : Nat) : State :=
  match Sys2Proof.decodeTableWord nbits w with
  | none => s
  | some i => { s with pending := i :: s.pending }

end Sys2Proof.Machine
end

