-- ==== Sys2Proof/Safety.lean ====
section
/-!
DEFINITION. What holds of a sound state: every register file and memory in its canonical form, and each part with the
cores and queues that it has. A step never faults and never refuses, so a safe run is one whose states are sound.
-/

namespace Sys2Proof.Machine

/-- The general registers that a core lists are g1 to g31 in canonical form: g0 reads as 0 (R70). -/
def Core.gWf (k : Core) : Bool :=
  SMap.wf (fun _ => 0) k.g && k.g.all fun e => decide (1 ≤ e.1) && decide (e.1 < 32)

/-- A core is sound. -/
def Core.wf (k : Core) : Bool := Core.gWf k && Memory.wf zeroByte k.imem

/-- The cores of a part (R39). -/
def coreCount : Part → Nat
  | .sender => 4
  | .tile => 1

/-- A part is sound: folio register file, data memory and flash in canonical form, its cores present and sound. -/
def Chip.wf (p : Part) (c : Chip) : Bool :=
  SMap.wf (regReset p) c.folio && Memory.wf zeroByte c.dmem && Memory.wf flashByte c.flash &&
    c.cores.length == coreCount p && c.cores.all Core.wf

/-- A state is sound. -/
def Sound (s : State) : Prop := Chip.wf .sender s.sender = true ∧ Chip.wf .tile s.tile = true

/-! ### What raising events leaves -/

/-- A register that no raise changes: no pending word, no count of events, not `FLT_STAT`, and not one that the safe
state clears. -/
def calmReg (a : Nat) : Bool :=
  !(decide (0x20010 ≤ a) && decide (a < 0x200D0)) && a != Reg.EVT_RAISED && a != Reg.EVT_TEL_DROP &&
    a != Reg.FLT_STAT && a != Reg.FLT_ESC_CNT && a != Reg.PIX_STAT && a != Reg.PIX_RX_MISSING &&
    a != Reg.SCAN_STAT && a != Reg.CMP_PV_STAT && a != Reg.LOAN_STAT

/-- What raising events leaves of a core. -/
structure Core.Calm (k k' : Core) : Prop where
  g : k'.g = k.g
  pc : k'.pc = k.pc
  posted : k'.posted = k.posted
  transit : k'.transit = k.transit
  xfer : k'.xfer = k.xfer
  imem : k'.imem = k.imem
  held : k'.held = k.held
  dbg : k'.dbgFrd = k.dbgFrd ∧ k'.dbgFwr = k.dbgFwr
  halted : k.halted = true → k'.halted = true ∧ k'.cause = k.cause
  stepping : k.stepping = false → k'.stepping = false
  stall : k.stall = .none → k'.stall = .none

/-- A tile's state v with all that the safe state drops taken from u: the open frame, the scan and its drive words, the
trim cycle (R424). -/
def TileUnit.keptOf (u v : TileUnit) : TileUnit :=
  { v with
    pix := { v.pix with pixRx := u.pix.pixRx, rxMis := u.pix.rxMis, sigGot := u.pix.sigGot, sigRaised := u.pix.sigRaised },
    lmp := { v.lmp with scan := u.lmp.scan, lit := u.lmp.lit, run := u.lmp.run, drv := u.lmp.drv, trim := u.lmp.trim } }

/-- What raising events of part p leaves of the state. -/
structure Calm (p : Part) (s t : State) : Prop where
  rd : ∀ q a, q ≠ p ∨ calmReg a = true → t.rd q a = s.rd q a
  pend : ∀ id, id < 0x600 → s.pendBit p id = true → t.pendBit p id = true
  other : ∀ q, q ≠ p → t.chip q = s.chip q
  safe : s.safe p = true → t.rd p Reg.FLT_STAT = s.rd p Reg.FLT_STAT
  acc : (s.chip p).acc.valid = true → (t.chip p).acc.valid = true ∧ (t.chip p).acc.record = (s.chip p).acc.record ∧
    (t.chip p).acc.pos = (s.chip p).acc.pos
  phase : ∀ q, (t.chip q).phase = (s.chip q).phase
  dmem : ∀ q, (t.chip q).dmem = (s.chip q).dmem
  flash : ∀ q, (t.chip q).flash = (s.chip q).flash
  count : ∀ q, (t.chip q).count = (s.chip q).count
  cycles : ∀ q, (t.chip q).cycles = (s.chip q).cycles
  rxq : ∀ q, (t.chip q).rxq = (s.chip q).rxq
  commit : ∀ q, (t.chip q).commit = (s.chip q).commit
  ports : ∀ q, (t.chip q).ports = (s.chip q).ports
  txq : ∀ q, (t.chip q).txq = (s.chip q).txq
  nextLatch : ∀ q, (t.chip q).nextLatch = (s.chip q).nextLatch
  nextOrigin : ∀ q, (t.chip q).nextOrigin = (s.chip q).nextOrigin
  upd : ∀ q, (t.chip q).upd = (s.chip q).upd
  tap : ∀ q, (t.chip q).tap = (s.chip q).tap
  cores : ∀ q n, Core.Calm (s.core q n) (t.core q n)
  coreCount : ∀ q, (t.chip q).cores.length = (s.chip q).cores.length
  thm : ∀ q, (t.chip q).thm = (s.chip q).thm
  origins : ∀ q, (t.chip q).origins = (s.chip q).origins
  vfy : ∀ q, (t.chip q).vfy = (s.chip q).vfy
  host : { t.host with pba := s.host.pba } = s.host
  snd : { t.snd with ras := s.snd.ras, comps := s.snd.comps, pv := s.snd.pv, release := s.snd.release } = s.snd
  til : TileUnit.keptOf s.til t.til = s.til
  pvd : t.pvd = s.pvd
  draws : t.draws = s.draws
  pending : t.pending = s.pending
  out : ∃ l : List Nat, t.out = s.out ++ l.map Output.msix ∧ (p = .tile → l = [])

/-- The state t is u with events of part p raised since, those of `ids` among them: what raising leaves is as in u, and
each of them is pending, unless the boundary has taken the balls (R509). -/
def Raises (p : Part) (ids : List Nat) (u t : State) : Prop :=
  Calm p u t ∧ (u.tapTakes p = false → ∀ id ∈ ids, t.pendBit p id = true)

/-! ### Conditions and results in whose terms the statements are made -/

/-- A core issues an instruction: it is released, neither halted nor stalled, its PC lies in its instruction memory, and
it is not stepped by the host (R64, R79). -/
def Ready (c : CoreId) (s : State) : Prop :=
  s.issues c = true ∧ (s.pc c).toNat < imemSize c.part ∧ (s.core c.part c.idx).stepping = false

/-- The state after an instruction that writes g[d] and goes on at the next word (R71). -/
def State.wrote (c : CoreId) (d : BitVec 5) (v : Word) (s : State) : State :=
  s.upCore c fun k => { k.setGpr d v with pc := k.pc + 4 }

/-- The state after an instruction that only moves the PC. -/
def State.moved (c : CoreId) (pc : Word) (s : State) : State := s.upCore c fun k => { k with pc := pc }

/-- The state after an instruction that stalls its core (R46, R50, R82 to R84). -/
def State.waits (c : CoreId) (st : Stall) (s : State) : State := s.upCore c fun k => { k with stall := st }

/-- The state in which a stalled core's instruction has completed with g[d] written (R71). -/
def State.woke (c : CoreId) (d : BitVec 5) (v : Word) (s : State) : State :=
  s.upCore c fun k => { k.setGpr d v with pc := k.pc + 4, stall := .none }

/-- The state in which a stalled core's instruction has completed. -/
def State.passed (c : CoreId) (s : State) : State := s.upCore c fun k => { k with pc := k.pc + 4, stall := .none }

/-- A core of a part that runs is stalled in an instruction, not stepped by the host. -/
def Stalled (c : CoreId) (st : Stall) (s : State) : Prop :=
  s.alive c.part = true ∧ (s.core c.part c.idx).stall = st ∧ (s.core c.part c.idx).stepping = false

/-- A byte of a part's data memory. -/
def State.dmemByte (p : Part) (a : Nat) (s : State) : Byte := SMap.get zeroByte (s.chip p).dmem a

/-- A core has faulted with a code (R104, R105): it is halted with CAUSE 2 at the instruction, the SYS registers say
why, CORE_FAULT is pending unless the boundary has taken the balls (R509), and no general register, memory, queue or
folio value outside events has changed. -/
structure Faulted (c : CoreId) (code : Nat) (addr : Word) (s t : State) : Prop where
  halted : (t.core c.part c.idx).halted = true
  cause : (t.core c.part c.idx).cause = 2
  pc : t.pc c = s.pc c
  gprs : ∀ r, t.gpr c r = s.gpr c r
  posted : (t.core c.part c.idx).posted = (s.core c.part c.idx).posted
  xfer : (t.core c.part c.idx).xfer = (s.core c.part c.idx).xfer
  fcode : t.rd c.part (Reg.SYS_CORE_FCODE c.idx) = BitVec.ofNat 32 (2 ^ 31 + code)
  fpc : t.rd c.part (Reg.SYS_CORE_FPC c.idx) = s.pc c
  faddr : t.rd c.part (Reg.SYS_CORE_FADDR c.idx) = addr
  event : s.tapTakes c.part = false → t.pendBit c.part (Ev.CORE_FAULT c.part c.idx) = true
  regs : ∀ q a, q ≠ c.part ∨ (calmReg a = true ∧ a ≠ Reg.SYS_CORE_FCODE c.idx ∧ a ≠ Reg.SYS_CORE_FPC c.idx ∧
    a ≠ Reg.SYS_CORE_FADDR c.idx) → t.rd q a = s.rd q a
  dmem : ∀ q a, t.dmemByte q a = s.dmemByte q a
  flash : ∀ q, (t.chip q).flash = (s.chip q).flash
  queues : ∀ q, (t.chip q).rxq = (s.chip q).rxq ∧ (t.chip q).txq = (s.chip q).txq ∧
    (t.chip q).commit = (s.chip q).commit
  others : ∀ q n, q ≠ c.part ∨ n ≠ c.idx → Core.Calm (s.core q n) (t.core q n)
  pending : t.pending = s.pending

/-- A core has halted for a cause that is no fault (R62, R69): CORE_HALT is pending, unless the boundary has taken the
balls. -/
structure Halted (c : CoreId) (cause : Nat) (pc : Word) (s t : State) : Prop where
  halted : (t.core c.part c.idx).halted = true
  cause : (t.core c.part c.idx).cause = cause
  pc : t.pc c = pc
  gprs : ∀ r, t.gpr c r = s.gpr c r
  posted : (t.core c.part c.idx).posted = (s.core c.part c.idx).posted
  event : s.tapTakes c.part = false → t.pendBit c.part (Ev.CORE_HALT c.part c.idx) = true
  regs : ∀ q a, q ≠ c.part ∨ calmReg a = true → t.rd q a = s.rd q a
  dmem : ∀ q a, t.dmemByte q a = s.dmemByte q a
  commit : ∀ q, (t.chip q).commit = (s.chip q).commit
  others : ∀ q n, q ≠ c.part ∨ n ≠ c.idx → Core.Calm (s.core q n) (t.core q n)

/-- An RW register with the defined bits m, whose reads and writes do nothing else (R7, R8). -/
def PlainRw (p : Part) (a m : Nat) : Prop :=
  a < 0x800000 ∧ ∃ r ix, findReg p a = some (r, ix) ∧ r.acc = .rw ∧ r.hook = .none ∧ r.mask = m

/-- The shadow image of a register whose defined bits are m (R44). -/
def ShadowImage (p : Part) (a m : Nat) : Prop :=
  a < 0x800000 ∧ findReg p a = none ∧ ∃ r ix, findShadow p a = some (r, ix) ∧ r.mask = m

/-- A tile port takes a packet: it reaches the port, its header and CRC are sound, and the tile consumes it (R283). -/
def TileTakes (i : Nat) (pkt : Packet) (s : State) : Prop :=
  s.hears .tile i = true ∧ (s.port .tile i).unframed = false ∧ Pkt.hcrcOk pkt = true ∧ Pkt.lenOk pkt = true ∧
    Pkt.crcOk pkt = true ∧ s.consumes pkt = true

/-- The state in which a packet that a tile port takes acts: a broadcast has gone on (R283), and the words of any other
have left the outbound free (R285). -/
def State.heard (i : Nat) (pkt : Packet) (s : State) : State :=
  if Pkt.dest pkt = destAll && !Pkt.alwaysConsumed pkt then s.fwd i pkt else s.notFwd i pkt false

/-- The state in which a packet that either part takes acts. -/
def State.came (port : LnkPort) (pkt : Packet) (s : State) : State :=
  match port.part with
  | .sender => s
  | .tile => s.heard port.idx pkt

/-- A chain port takes a packet that the sender does not discard (R283). -/
def SenderTakes (k : Nat) (pkt : Packet) (s : State) : Prop :=
  s.hears .sender k = true ∧ (s.port .sender k).unframed = false ∧ Pkt.hcrcOk pkt = true ∧ Pkt.lenOk pkt = true ∧
    Pkt.crcOk pkt = true ∧ s.discards pkt = false

/-- Commands that may write data memory: stores and lock words, received messages, transfers, register writes and full
resets by whichever command, and the boot (R42, R80, R95, R98, R457, R478). -/
def touchesDmem (i : Instr) : Bool :=
  match i with
  | .ldw .. => true
  | .stw .. => true
  | .trcv .. => true
  | .cmtq .. => true
  | .folioWriteArrival .. => true
  | .xferDone .. => true
  | .dbgLdw .. => true
  | .dbgStw .. => true
  | .hostCoreStep .. => true
  | .registerWrite .. => true
  | .cmdWrite .. => true
  | .boot .. => true
  | .por .. => true
  | .pinReset .. => true
  | .brownout .. => true
  | .softReset .. => true
  | .coreRestart .. => true
  | .wakeN .. => true
  | .hostPerst .. => true
  | .lowPowerEntry .. => true
  | .netRxFrame .. => true
  | _ => false

/-- Commands that may write flash: those of the update and the punty loader, folio flash writes, register writes by
whichever command, and the boot (R456, R459 to R469). -/
def touchesFlash (i : Instr) : Bool :=
  match i with
  | .boot .. => true
  | .updEraseDone .. => true
  | .updLoadDone .. => true
  | .updDataProgrammed .. => true
  | .updVerifyDone .. => true
  | .updActivate .. => true
  | .updConfirm .. => true
  | .puntyBlockCopied .. => true
  | .puntyCopyDone .. => true
  | .updFwDone .. => true
  | .cmtq .. => true
  | .folioWriteArrival .. => true
  | .xferDone .. => true
  | .hostCoreStep .. => true
  | .registerWrite .. => true
  | .cmdWrite .. => true
  | _ => false

/-- An update command reaches its part and the part is not busy: from a core; or as the CONTROL packet of its OP, from a
sender that R54 allows (R458, R460). -/
def UpdRuns (src : UpdSrc) (op : Nat) (s : State) : Prop :=
  s.updBusy src.part = false ∧
  match src with
  | .core p => s.alive p = true
  | .packet port pkt => port.part = .tile ∧ TileTakes port.idx pkt s ∧ Pkt.is pkt tUPD 2 = true ∧
      (Pkt.w pkt 3).toNat / 2 ^ 16 = op ∧ s.fromHolder (letterOfPort port.idx) = true

/-- The state in which a command of either kind acts. -/
def State.updHeard (src : UpdSrc) (s : State) : State :=
  match src with
  | .core _ => s
  | .packet port pkt => s.heard port.idx pkt

end Sys2Proof.Machine
end

