-- ==== Sys2Proof/WellFormed.lean ====
section
/-!
DEFINITION. Which commands are well formed: the operands that the spec gives the row. A command that is not well formed
still has a meaning; the meaning ignores what the row does not take, or takes the fault the spec names.
-/

namespace Sys2Proof

open Sys2Proof.Machine

/-- A packet of a type. -/
def Packet.ofType (pkt : Packet) (t : Nat) : Bool := Pkt.type pkt == t

/-- A mailbox message has 1 to 64 words (R62). -/
def lenWf (len : BitVec 7) : Bool := 1 ≤ len.toNat && len.toNat ≤ 64

/-- A pad of the tile with its voltage in mV (R373). -/
def padOk (x : Nat × Nat) : Bool := decide (x.1 < 3072)

/-- The target of a register write is aligned (R62, R80). -/
def targetWf : WriteTarget → Bool
  | .folio p a => folioMapped p a.toNat && a.toNat % 4 == 0
  | .bar0 off => off.toNat % 4 == 0

/-- A packet that carries an update command is a UPD CONTROL (R460). -/
def srcWf : UpdSrc → Bool
  | .core _ => true
  | .packet _ pkt => Pkt.is pkt tUPD 2

/-- The operands of a command are as its row takes them. -/
def Instr.wf (i : Instr) : Bool :=
  match i with
  | .add _ _ _ _ => true
  | .sub _ _ _ _ => true
  | .and _ _ _ _ => true
  | .or _ _ _ _ => true
  | .xor _ _ _ _ => true
  | .shl _ _ _ _ => true
  | .shr _ _ _ _ => true
  | .sar _ _ _ _ => true
  | .mul _ _ _ _ => true
  | .mulhu _ _ _ _ => true
  | .min _ _ _ _ => true
  | .max _ _ _ _ => true
  | .slt _ _ _ _ => true
  | .sltu _ _ _ _ => true
  | .clz _ _ _ => true
  | .addi _ _ _ _ => true
  | .andi _ _ _ _ => true
  | .ori _ _ _ _ => true
  | .xori _ _ _ _ => true
  | .lui _ _ _ => true
  | .shi _ _ _ imm => decide (imm.toNat < 0x60)
  | .ldw _ _ _ _ => true
  | .stw _ _ _ _ => true
  | .frd _ _ _ _ => true
  | .fwr _ _ _ _ => true
  | .beq _ _ _ _ => true
  | .bne _ _ _ _ => true
  | .blt _ _ _ _ => true
  | .bge _ _ _ _ => true
  | .bltu _ _ _ _ => true
  | .bgeu _ _ _ _ => true
  | .jmp _ _ => true
  | .call _ _ => true
  | .jr _ _ _ => true
  | .illegalOpcode c w => (decodeFolko c 0 w).isNone
  | .ifetch _ => true
  | .waitt _ _ => true
  | .waittWake _ => true
  | .waiteTimed c _ _ ev => decide (ev.toNat ≤ evMax c.part)
  | .waiteNotime c _ ev => decide (ev.toNat ≤ evMax c.part)
  | .waitePoll c _ ev => decide (ev.toNat ≤ evMax c.part)
  | .waiteWake p ev => decide (ev.toNat ≤ evMax p)
  | .cmt _ _ _ _ => true
  | .cmtComplete _ => true
  | .cmtq _ _ _ _ => true
  | .bcst c _ _ _ => c.part == .sender
  | .tsnd _ _ _ _ => true
  | .tsndCommandSend _ => true
  | .trcv _ _ _ => true
  | .evset _ reg a ev => if reg then ev == 0 else a == 0
  | .evack _ reg a ev => if reg then ev == 0 else a == 0
  | .xfer _ _ _ => true
  | .xferDone _ _ => true
  | .fence _ => true
  | .fenceDone _ => true
  | .folioWriteArrival _ => true
  | .frdReturn _ => true
  | .nowWall _ _ _ => true
  | .nowFrame _ _ => true
  | .nowCycles _ _ => true
  | .brk _ _ => true
  | .trap _ _ => true
  | .coreHalt _ => true
  | .hostDoorbell len => lenWf len
  | .hostMbxOutAck => true
  | .sysMbxInAck => true
  | .sysMbxOutSend len => lenWf len
  | .hostCoreHalt _ => true
  | .hostCoreStep _ => true
  | .hostCoreResume _ => true
  | .hostCorePcWrite _ v => v.toNat % 4 == 0
  | .dbgReadReg _ => true
  | .dbgWriteReg _ => true
  | .dbgLdw => true
  | .dbgStw => true
  | .dbgFrd => true
  | .dbgFwr => true
  | .hostImemWrite _ off _ => off.toNat % 4 == 0
  | .hostFrameWindow _ off _ => off.toNat % 4 == 0
  | .msixUnmask _ => true
  | .registerWrite t _ => targetWf t
  | .cmdWrite _ pkt => Pkt.is pkt tCMD 1
  | .cmdRead _ pkt => Pkt.is pkt tCMD 2
  | .cmdClose _ pkt => Pkt.is pkt tCMD 3
  | .cmdSwap _ pkt => Pkt.is pkt tCMD 5
  | .cmdMsg _ pkt => Pkt.is pkt tCMD 4
  | .telMsg _ pkt => Pkt.is pkt tTEL 4
  | .telReadData _ pkt => Pkt.is pkt tTEL 5
  | .telReport _ pkt => Pkt.is pkt tTEL 6
  | .telEventRecords _ pkt => Pkt.is pkt tTEL 7
  | .netLink _ _ _ _ _ _ _ _ => true
  | .netRxFrame _ _ _ _ => true
  | .flowMergeTimeout _ => true
  | .flowPathTimeout _ _ => true
  | .ringTailWrite _ _ => true
  | .netSnap _ => true
  | .flowSnap => true
  | .netTxrTailWrite _ _ _ => true
  | .txFrameSent _ _ _ => true
  | .rsFecCodeword _ _ => true
  | .timeNowRead _ => true
  | .timeSrvOfsWrite _ => true
  | .timeSet _ => true
  | .timeSrcChange _ => true
  | .timeTxqPop _ => true
  | .ppsEdge => true
  | .ppsMissing => true
  | .servoHoldover => true
  | .refLost => true
  | .refResume => true
  | .timeTx => true
  | .timeRxTile _ pkt => Pkt.is pkt tTIME 0
  | .timeRxSender _ pkt => Pkt.is pkt tTIME 0
  | .timeSrcLost => true
  | .probeSend _ _ _ => true
  | .probe _ pkt _ => Pkt.is pkt tTIME 1
  | .echo _ pkt _ => Pkt.is pkt tTIME 2
  | .phaseEdge _ => true
  | .phaseLost _ => true
  | .frameOrigin _ => true
  | .crossLinkSync _ pkt => Packet.ofType pkt tSYNC
  | .drcEnable => true
  | .drcDisable => true
  | .drcCfgWrite _ => true
  | .drcTrainAttemptEnd _ _ _ _ _ => true
  | .drcTrack _ _ _ => true
  | .drcMr4Poll _ _ _ _ _ => true
  | .drcRefresh _ _ => true
  | .dramReadRequest _ _ _ _ => true
  | .dramWriteRequest _ _ _ data => data.length == 64
  | .dramIssue _ _ => true
  | .dramReadComplete _ _ => true
  | .drcBwWindow => true
  | .drcTestFill => true
  | .drcTestCheck => true
  | .testDone => true
  | .compositionStart _ _ => true
  | .layerFetch _ _ _ => true
  | .layerUnitParity _ _ => true
  | .pipeEccError _ => true
  | .previewStart _ => true
  | .pvFrame _ => true
  | .rasterLineStart _ => true
  | .frameLatch => true
  | .lnkEnable _ _ => true
  | .lnkRestart _ => true
  | .lnkTxSleepWrite _ _ => true
  | .detectAttempt _ _ _ _ => true
  | .lnkNopeer _ => true
  | .trainEntryMeasured _ _ _ _ _ _ => true
  | .lnkTrainFail _ => true
  | .lockTimeout _ => true
  | .alignmentBlock _ _ _ _ _ => true
  | .exch _ pkt => Pkt.type pkt == tIDLE && fld (Pkt.w pkt 1) 31 24 == 1
  | .exchSend _ => true
  | .exchangeTimeout _ => true
  | .laneFail _ _ => true
  | .laneSwap _ _ => true
  | .spareRestore _ _ _ _ => true
  | .lnkEqWeak _ _ _ => true
  | .lnkSleep _ => true
  | .lnkWakeStart _ _ => true
  | .lnkWake _ _ => true
  | .lnkRefLost _ => true
  | .refRestored _ => true
  | .packetForward _ _ => true
  | .lnkDiscard _ _ => true
  | .ownPacketSend _ _ _ => true
  | .pvGo _ => true
  | .pvAbort _ => true
  | .pvRetry _ => true
  | .pvResponse _ _ => true
  | .pvNoAnswer _ => true
  | .pvBias _ => true
  | .pvRequestEnd _ => true
  | .pingPresenceSample _ _ => true
  | .porvalCollisionSeen _ => true
  | .rollReset _ => true
  | .ping _ => true
  | .note _ => true
  | .ident _ => true
  | .accRead _ => true
  | .challenge _ => true
  | .fetch _ => true
  | .wake _ => true
  | .renewSend _ => true
  | .claimSend _ => true
  | .releaseSend _ => true
  | .loanRenew _ pkt => Pkt.is pkt tLOAN 0
  | .loanClaim _ pkt => Pkt.is pkt tLOAN 1
  | .loanRelease _ pkt => Pkt.is pkt tLOAN 2
  | .loanReleased => true
  | .loanExpired => true
  | .loanOrphan => true
  | .stateSend => true
  | .loanState _ pkt => Pkt.is pkt tLOAN 3
  | .seenTimeout _ _ => true
  | .beatSend => true
  | .beat _ pkt => Packet.ofType pkt tBEAT
  | .chainBeatLost _ => true
  | .xpathLost => true
  | .loanXbeat _ => true
  | .loanExclWrite _ _ _ => true
  | .loanStkGo _ => true
  | .stocktakeDue _ => true
  | .stocktakeCheck _ => true
  | .stocktakeResult _ => true
  | .pix _ pkt => Packet.ofType pkt tPIX
  | .abort _ pkt => Packet.ofType pkt tABORT
  | .sync _ pkt => Packet.ofType pkt tSYNC
  | .sig _ pkt => Packet.ofType pkt tSIG
  | .pixSwap => true
  | .slotWindowStart _ _ => true
  | .tileLatchPoint => true
  | .pixelCorrect _ _ _ _ _ => true
  | .corScrub _ => true
  | .pixDarkClr _ => true
  | .correctionWindowWrite addr _ => decide (0x800000 ≤ addr.toNat) && addr.toNat % 4 == 0
  | .corCopyGo => true
  | .corCopyDone => true
  | .identityFillDone => true
  | .lineSlot obs => obs.volts.all padOk && obs.probeVolts.all padOk
  | .lampUnmeasured _ _ => true
  | .diagSgOffWrite _ => true
  | .diagFlistClr => true
  | .trimCycleStart _ _ _ => true
  | .trimI2cTransfer _ => true
  | .trimI2cErr => true
  | .trimI2cRetry => true
  | .thmConversion p counts => counts.length == sensorCount p
  | .thmLehrExitWrite _ => true
  | .evtLogPop => true
  | .evtTlogPop => true
  | .evtRouteWrite p i _ => decide (i ≤ evMax p)
  | .telBatchSend => true
  | .fltEscalated _ _ => true
  | .fltSafeCmd _ _ => true
  | .fltClrFirst _ => true
  | .collCheck _ _ _ => true
  | .nodeBlock _ _ => true
  | .nodeRegion _ _ => true
  | .fabricErr _ _ _ => true
  | .fabricChip => true
  | .idnChalGo _ => true
  | .chalDone _ => true
  | .idnVfyHash _ => true
  | .idnVfyChallenge _ _ => true
  | .vfyDone _ => true
  | .idnRandRead _ => true
  | .idnGenWrite _ _ => true
  | .catReady _ => true
  | .idnDigChain _ => true
  | .idnDigRequest _ => true
  | .digestRequest _ pkt => Pkt.is pkt tDIGEST 0
  | .digestChain _ pkt => Pkt.is pkt tDIGEST 2
  | .digestCatalogue _ pkt => Pkt.is pkt tDIGEST 1
  | .updOpen src _ => srcWf src
  | .updEraseDone _ _ => true
  | .updLoad => true
  | .updLoadDone _ => true
  | .updData _ pkt => Pkt.is pkt tUPD 0
  | .updDataProgrammed _ => true
  | .updQuery _ pkt => Pkt.is pkt tUPD 2
  | .updVerify src => srcWf src
  | .updVerifyDone _ => true
  | .updActivate src => srcWf src
  | .puntyBlockCopied _ => true
  | .puntyCopyDone _ => true
  | .updConfirm src => srcWf src
  | .updAbort src => srcWf src
  | .confirmTimeout _ => true
  | .updAck _ pkt => Pkt.is pkt tUPD 1
  | .updTxData _ => true
  | .updTxControl _ => true
  | .updTxTimeout _ _ => true
  | .updOwnerFuse _ _ => true
  | .updSetAccept _ => true
  | .updFwErase _ => true
  | .updFwProgram _ nw => decide (1 ≤ nw.toNat ∧ nw.toNat ≤ 64)
  | .updFwDone _ _ => true
  | .boot _ => true
  | .por _ _ => true
  | .pinReset _ _ => true
  | .brownout _ _ => true
  | .softReset _ _ => true
  | .coreRestart _ _ => true
  | .internalResetRelease _ _ => true
  | .lowPowerEntry _ => true
  | .wakeN _ => true
  | .hostPerst _ => true
  | .railWarn _ => true
  | .railToleranceChange _ _ _ => true
  | .uRefFirstEdge => true
  | .porvalDomainPor => true
  | .wakeOutPulseEnd => true
  | .bypass _ => true
  | .samplePreload _ => true
  | .extest _ => true
  | .idcode _ => true
  | .clamp _ => true
  | .highz _ => true
  | .tapReset _ => true
  | .commitWReached _ => true
  | .waiteTimeout _ => true

end Sys2Proof
end

