-- ==== Sys2Proof/Certificates/Slice0/Obligations.lean ====
section
/-!
DEFINITION. The statements for the provers.
-/

open Sys2Proof (Instr CoreId LnkPort Letter Word Byte Packet WriteTarget UpdSrc)
open Sys2Proof.Machine

/-- A step runs the command at the front of the queue, on the state with the rest of the queue. -/
def Obligations.StepRunsFrontCommand : Prop :=
  ∀ (i : Instr) (l : List Instr) (s : State), s.pending = i :: l → step s = exec i { s with pending := l }

/-- No step faults and no step refuses: every command has a next state in every state. R142, with the model's choice
(log entry 3, DESIGN CHOICE) that an empty queue lets one TIMEC cycle pass: each part whose TIMEC runs counts 2 ns ×
(1 + y × 2⁻³²), a tile less what its slew removes. While the host steps no core, registers and memories stay, and no
posted write of a core is lost or overtaken; nothing leaves the block but forwarded packets that waited in a bypass
buffer. -/
def Obligations.EveryStepAnswersOrCountsTime : Prop :=
  (∀ s : State, ∃ t : State, step s = .next t) ∧
  (∀ s : State, s.pending = [] → ∃ t : State, step s = .next t ∧ t.pending = [] ∧
     (s.alive .sender = true →
       (t.sender.count : Int) = (s.sender.count + 2 * (2 ^ 32 + (s.rd .sender Reg.TIME_RATE).toInt)) % 2 ^ 96) ∧
     (s.alive .sender = false → t.sender = s.sender) ∧
     (s.alive .tile = true → s.til.refSeen = true →
       (t.tile.count : Int) =
         (s.tile.count + (2 * (2 ^ 32 + (s.rd .tile Reg.TIME_RATE).toInt) - s.slewAmount)) % 2 ^ 64) ∧
     (s.alive .tile = true → s.til.refSeen = false → t.tile.count = s.tile.count) ∧
     (s.alive .tile = false → t.tile = s.tile) ∧
     ((∀ c : CoreId, (s.core c.part c.idx).stepping = false) →
       (∀ p a, t.rd p a = s.rd p a) ∧ (∀ p a, t.dmemByte p a = s.dmemByte p a) ∧
       ((∀ i : Fin 2, (s.port .tile i.val).byp = []) → t.out = s.out) ∧
       ∀ c : CoreId, (∀ x v, (s.core c.part c.idx).stall ≠ .fwr x v) → (s.core c.part c.idx).dbgFwr = [] →
         (t.core c.part c.idx).transit ++ (t.core c.part c.idx).posted =
           (s.core c.part c.idx).transit ++ (s.core c.part c.idx).posted))

/-- R42, R47, R51, R411, R426, R478: right after power-on reset both parts hold their internal reset, every register
but `SYS_RST_CAUSE` reads its reset value, data memory and lock words read 0, no event is pending, no commit waits,
the accession record is empty and nothing waits in the queue; and this state is sound. -/
def Obligations.ResetLeaves : Prop :=
  State.reset.pending = [] ∧ State.reset.out = [] ∧
    Sound State.reset ∧ ∀ p : Sys2Proof.Part,
      (State.reset.chip p).phase = .held ∧ State.reset.rd p Reg.SYS_RST_CAUSE = 0x10000001 ∧
      (∀ a, a ≠ Reg.SYS_RST_CAUSE → State.reset.rd p a = regReset p a) ∧
      (∀ a, State.reset.dmemByte p a = 0) ∧ (∀ id, id < 0x600 → State.reset.pendBit p id = false) ∧
      (State.reset.chip p).commit = none ∧ (State.reset.chip p).acc = Accession.empty

/-- R76: the results of the arithmetic, logic and shift instructions, register and immediate. -/
def Obligations.ArithmeticResults : Prop :=
  ∀ (c : CoreId) (d a b : BitVec 5) (imm : BitVec 16) (s : State), Ready c s →
    let x := s.gpr c a
    let y := s.gpr c b
    let n := y.toNat % 32
    let z : Word := imm.setWidth 32
    let k := imm.toNat / 32
    exec (.add c d a b) s = .next (s.wrote c d (x + y)) ∧
    exec (.sub c d a b) s = .next (s.wrote c d (x - y)) ∧
    exec (.and c d a b) s = .next (s.wrote c d (x &&& y)) ∧
    exec (.or c d a b) s = .next (s.wrote c d (x ||| y)) ∧
    exec (.xor c d a b) s = .next (s.wrote c d (x ^^^ y)) ∧
    exec (.shl c d a b) s = .next (s.wrote c d (BitVec.ofNat 32 (x.toNat * 2 ^ n))) ∧
    exec (.shr c d a b) s = .next (s.wrote c d (BitVec.ofNat 32 (x.toNat / 2 ^ n))) ∧
    exec (.sar c d a b) s = .next (s.wrote c d (BitVec.ofInt 32 (x.toInt / 2 ^ n))) ∧
    exec (.mul c d a b) s = .next (s.wrote c d (BitVec.ofNat 32 (x.toNat * y.toNat))) ∧
    exec (.mulhu c d a b) s = .next (s.wrote c d (BitVec.ofNat 32 (x.toNat * y.toNat / 2 ^ 32))) ∧
    exec (.min c d a b) s = .next (s.wrote c d (if x.toInt < y.toInt then x else y)) ∧
    exec (.max c d a b) s = .next (s.wrote c d (if y.toInt < x.toInt then x else y)) ∧
    exec (.slt c d a b) s = .next (s.wrote c d (if x.toInt < y.toInt then 1 else 0)) ∧
    exec (.sltu c d a b) s = .next (s.wrote c d (if x.toNat < y.toNat then 1 else 0)) ∧
    (∃ m, m ≤ 32 ∧ x.toNat < 2 ^ (32 - m) ∧ (m = 32 ∨ 2 ^ (31 - m) ≤ x.toNat) ∧
      exec (.clz c d a) s = .next (s.wrote c d (BitVec.ofNat 32 m))) ∧
    exec (.addi c d a imm) s = .next (s.wrote c d (x + BitVec.ofInt 32 imm.toInt)) ∧
    exec (.andi c d a imm) s = .next (s.wrote c d (x &&& z)) ∧
    exec (.ori c d a imm) s = .next (s.wrote c d (x ||| z)) ∧
    exec (.xori c d a imm) s = .next (s.wrote c d (x ^^^ z)) ∧
    exec (.lui c d imm) s = .next (s.wrote c d (BitVec.ofNat 32 (imm.toNat * 2 ^ 16))) ∧
    (imm.toNat < 0x60 → exec (.shi c d a imm) s = .next (s.wrote c d
      (if k = 0 then BitVec.ofNat 32 (x.toNat * 2 ^ (imm.toNat % 32))
       else if k = 1 then BitVec.ofNat 32 (x.toNat / 2 ^ (imm.toNat % 32))
       else BitVec.ofInt 32 (x.toInt / 2 ^ (imm.toNat % 32)))))

/-- R70, R71: the frame of an instruction that writes g[d]: g0 still reads 0, every other general register, every
other core, memory, register, event and flag is as before, and the PC has moved on by 4. -/
def Obligations.RegisterWriteFrame : Prop :=
  ∀ (c : CoreId) (d : BitVec 5) (v : Word) (s : State), Ready c s →
    let t := s.wrote c d v
    t.gpr c d = (if d = 0 then 0 else v) ∧ (∀ r, r ≠ d → t.gpr c r = s.gpr c r) ∧ t.pc c = s.pc c + 4 ∧
    (∀ p n, p ≠ c.part ∨ n ≠ c.idx → t.core p n = s.core p n) ∧
    (t.core c.part c.idx).posted = (s.core c.part c.idx).posted ∧
    (t.core c.part c.idx).xfer = (s.core c.part c.idx).xfer ∧
    (t.core c.part c.idx).imem = (s.core c.part c.idx).imem ∧
    (∀ p a, t.rd p a = s.rd p a) ∧ (∀ p a, t.dmemByte p a = s.dmemByte p a) ∧
    (∀ p, (t.chip p).flash = (s.chip p).flash ∧ (t.chip p).count = (s.chip p).count ∧ (t.chip p).log = (s.chip p).log ∧
      (t.chip p).commit = (s.chip p).commit) ∧
    t.host = s.host ∧ t.snd = s.snd ∧ t.til = s.til ∧ t.pvd = s.pvd ∧ t.out = s.out ∧ t.draws = s.draws ∧
    t.pending = s.pending

/-- R78, with the targets of R73 and R79: branches compare g[a] with g[b] and continue at PC + 4 × off16 or at PC +
4; JMP and CALL continue at PC + 4 × off26, CALL with PC + 4 in g31; JR continues at an aligned g[a] with PC + 4 in
g[d]. Nothing else changes. -/
def Obligations.BranchesAndJumps : Prop :=
  ∀ (c : CoreId) (a b d : BitVec 5) (off : BitVec 16) (o : BitVec 26) (s : State), Ready c s →
    let x := s.gpr c a
    let y := s.gpr c b
    let pc := s.pc c
    let go := fun (taken : Prop) [Decidable taken] =>
      s.moved c (if taken then pc + BitVec.ofInt 32 (4 * off.toInt) else pc + 4)
    let far := pc + BitVec.ofInt 32 (4 * o.toInt)
    exec (.beq c a b off) s = .next (go (x = y)) ∧
    exec (.bne c a b off) s = .next (go (x ≠ y)) ∧
    exec (.blt c a b off) s = .next (go (x.toInt < y.toInt)) ∧
    exec (.bge c a b off) s = .next (go (y.toInt ≤ x.toInt)) ∧
    exec (.bltu c a b off) s = .next (go (x.toNat < y.toNat)) ∧
    exec (.bgeu c a b off) s = .next (go (y.toNat ≤ x.toNat)) ∧
    exec (.jmp c o) s = .next (s.moved c far) ∧
    exec (.call c o) s = .next ((s.wrote c 31 (pc + 4)).moved c far) ∧
    (x.toNat % 4 = 0 → exec (.jr c d a) s = .next ((s.wrote c d (pc + 4)).moved c x))

/-- R5, R39, R80: LDW of an aligned word inside data memory loads it, and STW stores g[d] in the four bytes at g[a]
+ sext(imm16), least significant first; every other byte of memory reads as before. R42: an LDW from a lock word
returns its value, and when that is 0 the same access sets it to the reading core's number plus 1; an STW stores the
written value. -/
def Obligations.LoadsStoresAndLockWords : Prop :=
  (∀ (c : CoreId) (d a : BitVec 5) (off : BitVec 16) (s : State), Ready c s →
     let x := s.gpr c a + BitVec.ofInt 32 off.toInt
     x.toNat < dmemSize c.part → x.toNat % 4 = 0 →
     ((c.part = .tile ∨ x.toNat < 0x7FF80) →
       exec (.ldw c d a off) s = .next (s.wrote c d (s.dmemByte c.part (x.toNat + 3) ++ s.dmemByte c.part (x.toNat + 2) ++
         s.dmemByte c.part (x.toNat + 1) ++ s.dmemByte c.part x.toNat))) ∧
     ∃ t : State, exec (.stw c d a off) s = .next t ∧ t.pc c = s.pc c + 4 ∧ (∀ r, t.gpr c r = s.gpr c r) ∧
       (∀ i, i < 4 → t.dmemByte c.part (x.toNat + i) = ((s.gpr c d) >>> (8 * i)).setWidth 8) ∧
       (∀ p y, (p ≠ c.part ∨ y < x.toNat ∨ x.toNat + 4 ≤ y) → t.dmemByte p y = s.dmemByte p y) ∧
       (∀ p y, t.rd p y = s.rd p y) ∧ t.host = s.host ∧ t.snd = s.snd ∧ t.til = s.til ∧ t.out = s.out ∧
       t.pending = s.pending) ∧
  (∀ (n : Fin 4) (d a : BitVec 5) (off : BitVec 16) (s : State), Ready (.sender n) s →
     let x := s.gpr (.sender n) a + BitVec.ofInt 32 off.toInt
     0x7FF80 ≤ x.toNat → x.toNat < 0x80000 → x.toNat % 4 = 0 →
     (∃ t : State, exec (.ldw (.sender n) d a off) s = .next t ∧
       t.gpr (.sender n) d = (if d = 0 then 0 else s.dmemRd .sender x.toNat) ∧
       t.dmemRd .sender x.toNat =
         (if s.dmemRd .sender x.toNat = 0 then BitVec.ofNat 32 (n.val + 1) else s.dmemRd .sender x.toNat) ∧
       (∀ p y, (p = .tile ∨ y < x.toNat ∨ x.toNat + 4 ≤ y) → t.dmemByte p y = s.dmemByte p y) ∧
       (∀ r, r ≠ d → t.gpr (.sender n) r = s.gpr (.sender n) r) ∧ (∀ p y, t.rd p y = s.rd p y)) ∧
     ∃ t : State, exec (.stw (.sender n) d a off) s = .next t ∧ t.dmemRd .sender x.toNat = s.gpr (.sender n) d)

/-- R46, R80, R81, R82: an FRD of an aligned, mapped address stalls its core; an FWR enters the posted-write queue,
or stalls while its 16 entries (8 in the tile) are taken; a FENCE stalls. Nothing else changes. R46, R81, R82: with
every earlier FWR out of the queue, and those to its block arrived, the value of a plain register or of a shadow
image returns into g[d] and the FRD completes; a FENCE completes once all have arrived. R7, R8, R44, R46, R51: the
oldest write of a core that has not arrived reaches its block; a plain register or an image that is not locked takes
its defined bits, a locked image keeps its value, the write is counted in `SYS_CMT_LOCKDROP` and SHADOW_LOCKED is
raised. The writes behind it stay in their order. -/
def Obligations.FolioAccesses : Prop :=
  (∀ (c : CoreId) (d a : BitVec 5) (off : BitVec 16) (s : State), Ready c s →
     let x := s.gpr c a + BitVec.ofInt 32 off.toInt
     let cap := if c.part = .tile then 8 else 16
     (folioMapped c.part x.toNat = true → x.toNat % 4 = 0 →
       exec (.frd c d a off) s = .next (s.waits c (.frd d x)) ∧
       ((s.core c.part c.idx).posted.length < cap →
         exec (.fwr c d a off) s = .next (s.upCore c fun k =>
           { k with posted := k.posted ++ [(x, s.gpr c d)], pc := k.pc + 4 })) ∧
       (cap ≤ (s.core c.part c.idx).posted.length →
         exec (.fwr c d a off) s = .next (s.waits c (.fwr x (s.gpr c d))))) ∧
     exec (.fence c) s = .next (s.waits c .fence)) ∧
  (∀ (c : CoreId) (d : BitVec 5) (x : Word) (m : Nat) (s : State), (s.core c.part c.idx).posted = [] →
     (Stalled c (.frd d x) s → PlainRw c.part x.toNat m ∨ ShadowImage c.part x.toNat m →
       (∀ w ∈ (s.core c.part c.idx).transit, blockOf w.1.toNat ≠ blockOf x.toNat) →
       exec (.frdReturn c) s = .next (s.woke c d (s.rd c.part x.toNat))) ∧
     (Stalled c .fence s → (s.core c.part c.idx).transit = [] → exec (.fenceDone c) s = .next (s.passed c))) ∧
  (∀ (c : CoreId) (x v : Word) (l : List (Word × Word)) (m : Nat) (s : State),
     s.alive c.part = true → (s.core c.part c.idx).transit ++ (s.core c.part c.idx).posted = (x, v) :: l →
     (s.core c.part c.idx).stall = .none → (s.core c.part c.idx).dbgFwr = [] →
     ((PlainRw c.part x.toNat m ∨ (ShadowImage c.part x.toNat m ∧ s.lockedAt c.part x.toNat = false)) →
       ∃ t : State, exec (.folioWriteArrival c) s = .next t ∧
         (t.core c.part c.idx).transit ++ (t.core c.part c.idx).posted = l ∧
         t.rd c.part x.toNat = v &&& BitVec.ofNat 32 m ∧
         (∀ q a, q ≠ c.part ∨ a ≠ x.toNat → t.rd q a = s.rd q a) ∧ (∀ r, t.gpr c r = s.gpr c r) ∧ t.pc c = s.pc c ∧
         (∀ q a, t.dmemByte q a = s.dmemByte q a)) ∧
     (ShadowImage c.part x.toNat m → s.lockedAt c.part x.toNat = true →
       ∃ t : State, exec (.folioWriteArrival c) s = .next t ∧
         (t.core c.part c.idx).transit ++ (t.core c.part c.idx).posted = l ∧
         t.rd c.part Reg.SYS_CMT_LOCKDROP = s.rd c.part Reg.SYS_CMT_LOCKDROP + 1 ∧
         (s.tapTakes c.part = false → t.pendBit c.part Ev.SHADOW_LOCKED = true) ∧
         (∀ q a, q ≠ c.part ∨ (calmReg a = true ∧ a ≠ Reg.SYS_CMT_LOCKDROP) → t.rd q a = s.rd q a)))

/-- R79, R80, R103 to R106: the faults of the memory, folio and jump instructions, of unassigned words and of TRAP,
each with its code and the value of `SYS_CORE_FADDR`; the lower code is reported. R79, R104: a fetch from outside
instruction memory faults with IFETCH at its address. R62, R64, R102: BRK halts its core with CAUSE 1 at the address
after itself; a requested halt takes effect between instructions with CAUSE 0. -/
def Obligations.FaultsAndHalts : Prop :=
  (∀ (c : CoreId) (d a : BitVec 5) (off : BitVec 16) (w : Word) (code : BitVec 26) (s : State), Ready c s →
     let x := s.gpr c a + BitVec.ofInt 32 off.toInt
     let faults := fun (i : Instr) (n : Nat) (v : Word) => ∃ t : State, exec i s = .next t ∧ Faulted c n v s t
     (dmemSize c.part ≤ x.toNat → faults (.ldw c d a off) 3 x ∧ faults (.stw c d a off) 3 x) ∧
     (x.toNat < dmemSize c.part → x.toNat % 4 ≠ 0 → faults (.ldw c d a off) 4 x ∧ faults (.stw c d a off) 4 x) ∧
     (folioMapped c.part x.toNat = false → faults (.frd c d a off) 5 x ∧ faults (.fwr c d a off) 5 x) ∧
     (folioMapped c.part x.toNat = true → x.toNat % 4 ≠ 0 →
       faults (.frd c d a off) 6 x ∧ faults (.fwr c d a off) 6 x) ∧
     ((s.gpr c a).toNat % 4 ≠ 0 → faults (.jr c d a) 2 (s.gpr c a)) ∧
     (decodeFolko c 0 w = none → faults (.illegalOpcode c w) 1 w) ∧
     faults (.trap c code) 8 (BitVec.ofNat 32 code.toNat)) ∧
  (∀ (c : CoreId) (s : State), s.issues c = true → imemSize c.part ≤ (s.pc c).toNat →
     ∃ t : State, exec (.ifetch c) s = .next t ∧ Faulted c 2 (s.pc c) s t) ∧
  (∀ (c : CoreId) (code : BitVec 26) (s : State),
     (Ready c s → ∃ t : State, exec (.brk c code) s = .next t ∧ Halted c 1 (s.pc c + 4) s t) ∧
     (s.alive c.part = true → c.idx < (s.chip c.part).cores.length → (s.core c.part c.idx).haltReq = true →
       (s.core c.part c.idx).halted = false → (s.core c.part c.idx).stall = .none →
       ∃ t : State, exec (.coreHalt c) s = .next t ∧ Halted c 0 (s.pc c) s t))

/-- R59: WAITT of a wall time that is reached goes on at once, of another it stalls; it resumes once W − now as a
signed value is 0 or less. -/
def Obligations.WaitsForTime : Prop :=
  ∀ (c : CoreId) (a : BitVec 5) (w : Word) (s : State), s.timeRuns c.part = true →
    (Ready c s → (s.gpr c a - s.wall c.part).toInt ≤ 0 →
      exec (.waitt c a) s = .next (s.moved c (s.pc c + 4))) ∧
    (Ready c s → 0 < (s.gpr c a - s.wall c.part).toInt →
      exec (.waitt c a) s = .next (s.waits c (.waitt (s.gpr c a)))) ∧
    (Stalled c (.waitt w) s → (w - s.wall c.part).toInt ≤ 0 → exec (.waittWake c) s = .next (s.passed c)) ∧
    (Stalled c (.waitt w) s → 0 < (w - s.wall c.part).toInt → exec (.waittWake c) s = .next s)

/-- R60, R84, R85: WAITE of a pending event that the core sees gives 0 at once; the timed mode gives 1 when its time
is reached, and otherwise stalls, as NOTIME does; POLL tells at once; an event that becomes pending wins over the
time; an event ID above the part's range is an EVENTID fault. R416: in the sender, an event that becomes pending
wakes every core that waits on it and whose CORES bit is 1, and no other core. R86, R87: EVSET raises a software
event, which is then pending; EVACK clears the pending state of an edge event and leaves a level event as it is;
both then go on at the next word, and an ID out of range is an EVENTID fault. R101: NOW writes to g[d] a wall time
at most 8 ns old, the frame that ends at the next latch point (the current frame number while no schedule runs), or
the count of CORE cycles. -/
def Obligations.EventsAndTimeOfPrograms : Prop :=
  (∀ (c : CoreId) (d a : BitVec 5) (ev : BitVec 12) (w : Word) (s : State),
     let e := ev.toNat
     let pend := s.pendBit c.part e && s.bitOf c.part (Reg.EVT_ROUTE e) c.idx
     let top := if c.part = .tile then 0x43F else 0x5FF
     (Ready c s → e ≤ top →
       (pend = true → exec (.waiteTimed c d a ev) s = .next (s.wrote c d 0) ∧
         exec (.waiteNotime c d ev) s = .next (s.wrote c d 0) ∧ exec (.waitePoll c d ev) s = .next (s.wrote c d 0)) ∧
       (pend = false → exec (.waiteNotime c d ev) s = .next (s.waits c (.waite d e none)) ∧
         exec (.waitePoll c d ev) s = .next (s.wrote c d 1) ∧
         (s.timeRuns c.part = true →
           exec (.waiteTimed c d a ev) s = .next
             (if (s.gpr c a - s.wall c.part).toInt ≤ 0 then s.wrote c d 1
              else s.waits c (.waite d e (some (s.gpr c a))))))) ∧
     (Ready c s → top < e → ∀ i ∈ ([.waiteTimed c d a ev, .waiteNotime c d ev, .waitePoll c d ev] : List Instr),
       ∃ t : State, exec i s = .next t ∧ Faulted c 7 (BitVec.ofNat 32 e) s t) ∧
     (Stalled c (.waite d e (some w)) s → s.timeRuns c.part = true → (w - s.wall c.part).toInt ≤ 0 →
       exec (.waiteTimeout c) s = .next (s.woke c d (if pend = true then 0 else 1))) ∧
     (c = .tile → Stalled c (.waite d e (some w)) s → pend = true →
       exec (.waiteWake .tile ev) s = .next (s.woke c d 0))) ∧
  (∀ (ev : BitVec 12) (s : State), s.alive .sender = true → s.sender.cores.length = 4 →
     (∀ n : Fin 4, (s.core .sender n.val).stepping = false) → s.pendBit .sender ev.toNat = true →
     ∃ t : State, exec (.waiteWake .sender ev) s = .next t ∧
       ∀ n : Fin 4,
         (∀ d w, (s.core .sender n.val).stall = .waite d ev.toNat w →
           s.bitOf .sender (Reg.EVT_ROUTE ev.toNat) n.val = true →
             t.gpr (.sender n) d = 0 ∧ t.pc (.sender n) = s.pc (.sender n) + 4 ∧
             (t.core .sender n.val).stall = .none) ∧
         ((∀ d w, (s.core .sender n.val).stall ≠ .waite d ev.toNat w) → t.core .sender n.val = s.core .sender n.val) ∧
         (s.bitOf .sender (Reg.EVT_ROUTE ev.toNat) n.val = false → t.core .sender n.val = s.core .sender n.val)) ∧
  (∀ (c : CoreId) (reg : Bool) (a : BitVec 5) (ev : BitVec 12) (s : State), Ready c s →
     (if reg = true then ev = 0 else a = 0) →
     let id := if reg = true then (s.gpr c a).toNat % 4096 else ev.toNat
     let lo := if c.part = .tile then 0x430 else 0x5E0
     let hi := if c.part = .tile then 0x43F else 0x5FF
     (lo ≤ id → id ≤ hi → s.tapTakes c.part = false →
       ∃ t : State, exec (.evset c reg a ev) s = .next t ∧ t.pendBit c.part id = true ∧ t.pc c = s.pc c + 4 ∧
         (∀ r, t.gpr c r = s.gpr c r) ∧ (∀ q y, q ≠ c.part ∨ calmReg y = true → t.rd q y = s.rd q y)) ∧
     (id ≤ hi → evLevel c.part id = false →
       ∃ t : State, exec (.evack c reg a ev) s = .next t ∧ t.pendBit c.part id = false ∧ t.pc c = s.pc c + 4 ∧
         (∀ j, j ≠ id → j < 0x600 → t.pendBit c.part j = s.pendBit c.part j) ∧
         (∀ r, t.gpr c r = s.gpr c r) ∧ (∀ q y, q ≠ c.part ∨ calmReg y = true → t.rd q y = s.rd q y)) ∧
     (id ≤ hi → evLevel c.part id = true →
       exec (.evack c reg a ev) s = .next (s.moved c (s.pc c + 4))) ∧
     ((id < lo ∨ hi < id) →
       ∃ t : State, exec (.evset c reg a ev) s = .next t ∧ Faulted c 7 (BitVec.ofNat 32 id) s t) ∧
     (hi < id → ∃ t : State, exec (.evack c reg a ev) s = .next t ∧ Faulted c 7 (BitVec.ofNat 32 id) s t)) ∧
  (∀ (c : CoreId) (d : BitVec 5) (lag : Fin 9) (s : State), Ready c s →
     exec (.nowWall c d lag) s = .next (s.wrote c d (s.wall c.part - BitVec.ofNat 32 lag.val)) ∧
     (s.schedOn c.part = true → exec (.nowFrame c d) s = .next (s.wrote c d (s.chip c.part).nextLatch)) ∧
     (s.schedOn c.part = false → exec (.nowFrame c d) s = .next (s.wrote c d (s.frameNum c.part))) ∧
     exec (.nowCycles c d) s = .next (s.wrote c d (BitVec.ofNat 32 (s.chip c.part).cycles)))

/-- R50, R51, R88: CMT stalls its core. When its validation completes, an accepted mask becomes the pending commit
with the frame number that the schedule gives, and g[d] holds bits [30:0] of that number; a rejection gives its
result word in g[d], counts in `SYS_CMT_REJ`, raises CMT_REJECTED, and leaves a pending commit as it was. R52: the
general checks of a validation, in their order: an empty mask, a mask that names a block the part does not have, a
commit already pending, the sender's safe state; each gives bit 31, source 0x7F and its code. R48, R49: while a
schedule runs, the frame number of a commit is one more than the number of the first frame, from the next latch
point on, whose latch point lies both at or after W and at least 1,000 ns after now; while none runs it is the
current frame number. The distance of the next latch point is the signed difference of wall times, and that of every
other one agrees with it modulo 2³² and lies within 2³¹ ns of what the schedule gives. The model looks at most 1,024
latch points ahead (log entry 44, the reading of the model). R89: CMTQ first acts as a FENCE; then it gives the
result that CMT would give, whatever it is, and commits and locks nothing. -/
def Obligations.CommitAnswers : Prop :=
  (∀ (c : CoreId) (d a b : BitVec 5) (mask w : Word) (s : State),
     let p := c.part
     let f := s.cmtFrame p w
     let at' := if (w - s.wall p).toInt ≤ 0 then s.wall p else w
     (Ready c s → exec (.cmt c d a b) s = .next (s.waits c (.cmt d (s.gpr c a) (s.gpr c b)))) ∧
     (Stalled c (.cmt d mask w) s → (s.core p c.idx).posted = [] → (s.core p c.idx).transit = [] →
       (s.validate p mask f at' = none →
         ∃ t : State, exec (.cmtComplete c) s = .next t ∧
           (t.chip p).commit = some ⟨mask, f, .byTime at' ((s.chip p).count + 1000 * 2 ^ 32), false, 0⟩ ∧
           t.rd p Reg.SYS_CMT_STAT = 0x80000000 ∧ t.rd p Reg.SYS_CMT_MASK = mask ∧ t.rd p Reg.SYS_CMT_PFRAME = f ∧
           t.rd p Reg.SYS_CMT_LAST = f &&& 0x7FFFFFFF ∧ (d ≠ 0 → t.gpr c d = f &&& 0x7FFFFFFF) ∧
           t.pc c = s.pc c + 4 ∧ (t.core p c.idx).stall = .none ∧
           (∀ q x, q ≠ p ∨ x ∉ ([Reg.SYS_CMT_STAT, Reg.SYS_CMT_MASK, Reg.SYS_CMT_PFRAME, Reg.SYS_CMT_LAST] : List Nat) →
             t.rd q x = s.rd q x)) ∧
       (∀ r, s.validate p mask f at' = some r →
         ∃ t : State, exec (.cmtComplete c) s = .next t ∧ (t.chip p).commit = (s.chip p).commit ∧
           t.rd p Reg.SYS_CMT_LAST = r ∧ t.rd p Reg.SYS_CMT_REJ = s.rd p Reg.SYS_CMT_REJ + 1 ∧
           (s.tapTakes p = false → t.pendBit p Ev.CMT_REJECTED = true) ∧ (d ≠ 0 → t.gpr c d = r) ∧
           t.pc c = s.pc c + 4 ∧
           (∀ q x, q ≠ p ∨ (calmReg x = true ∧ x ≠ Reg.SYS_CMT_LAST ∧ x ≠ Reg.SYS_CMT_REJ) → t.rd q x = s.rd q x)))) ∧
  (∀ (p : Sys2Proof.Part) (mask f at' : Word) (s : State),
     let own : Word := if p = .tile then 0x00007E0F else 0x000001FF
     (mask = 0 → s.validate p mask f at' = some 0xFF000001) ∧
     (mask ≠ 0 → mask &&& ~~~own ≠ 0 → s.validate p mask f at' = some 0xFF000002) ∧
     (mask ≠ 0 → mask &&& ~~~own = 0 → (s.chip p).commit ≠ none → s.validate p mask f at' = some 0xFF000003) ∧
     (mask ≠ 0 → mask &&& ~~~own = 0 → (s.chip p).commit = none → p = .sender → s.bitOf .sender Reg.FLT_STAT 31 = true →
       s.validate p mask f at' = some 0xFF000004)) ∧
  (∀ (p : Sys2Proof.Part) (w : Word) (k : Nat) (s : State),
     let now := s.wall p
     let first := (s.chip p).nextLatch
     let n := fun (j : Nat) => first + BitVec.ofNat 32 j
     let ok := fun (j : Nat) => 1000 ≤ s.latchDist p (n j) ∧ (w - now).toInt ≤ s.latchDist p (n j)
     s.latchDist p first = (s.latchAt p first - now).toInt ∧
     (∀ m : Word, BitVec.ofInt 32 (s.latchDist p m) = s.latchAt p m - now ∧
       s.latchDist p m - (s.latchDist p first + ((s.sched p).offset m - (s.sched p).offset first)) < 2 ^ 31 ∧
       -(2 ^ 31) ≤ s.latchDist p m - (s.latchDist p first + ((s.sched p).offset m - (s.sched p).offset first))) ∧
     (s.schedOn p = true → k < 1024 → ok k → (∀ j, j < k → ¬ ok j) → s.cmtFrame p w = n k + 1) ∧
     (s.schedOn p = false → s.cmtFrame p w = s.rd p Reg.TIME_FRM_NUM)) ∧
  (∀ (c : CoreId) (d a b : BitVec 5) (s : State), Ready c s →
     let p := c.part
     let k := s.core p c.idx
     let u := drain c (k.posted.length + k.transit.length) s
     let mask := u.gpr c a
     let w := u.gpr c b
     let f := u.cmtFrame p w
     let at' := if (w - u.wall p).toInt ≤ 0 then u.wall p else w
     (k.posted = [] → k.transit = [] → u = s) ∧
     (Ready c u → u.validate p mask f at' = none → exec (.cmtq c d a b) s = .next (u.wrote c d (f &&& 0x7FFFFFFF))) ∧
     (Ready c u → ∀ r, u.validate p mask f at' = some r → exec (.cmtq c d a b) s = .next (u.wrote c d r)))

/-- R47, R49: while no schedule runs, a pending commit applies once its wall time is reached: nothing is pending any
more, CMT_APPLIED is raised and the commit counted; of a commit that names SIG alone, in a part whose lehr state
does not end with it, every shadowed register of SIG takes its shadow value, each image keeps its value, and no
other register changes but those of the commit itself, the catalogue status and those that events move. R52, R57,
R90: BCST outside the safe state, of a sound descriptor, sends SWAP with the tag, tile mask and frame on every named
chain whose transmit direction is ACTIVE (it also wakes a named chain that sleeps), and g[d] and `SYS_CMT_LAST` hold
the frame number; its rejections send nothing; a descriptor outside data memory or not aligned is a fault, as BCST
in the tile is. -/
def Obligations.CommitLandsAndBroadcasts : Prop :=
  (∀ (p : Sys2Proof.Part) (q : Pending) (w : Word) (e : Nat) (s : State),
     s.alive p = true → s.schedOn p = false → (s.chip p).commit = some q → q.landing = .byTime w e →
     (w - s.wall p).toInt ≤ 0 →
     (∃ t evs, s.land p q.mask q.frame = (t, (Ev.CMT_APPLIED, 0) :: evs) ∧
       exec (.commitWReached p) s = .next (t.raiseAll p ((Ev.CMT_APPLIED, 0) :: evs))) ∧
     (q.mask = 8 → s.lehrMayExit p = false → ∃ t : State, exec (.commitWReached p) s = .next t ∧ (t.chip p).commit = none ∧
       t.rd p Reg.SYS_CMT_STAT = 0 ∧ t.rd p Reg.SYS_CMT_GEN = s.rd p Reg.SYS_CMT_GEN + 1 ∧
       (s.tapTakes p = false → t.pendBit p Ev.CMT_APPLIED = true) ∧
       (∀ a m, a / 0x10000 = 0x28 → ShadowImage p (a + 0x8000) m →
         t.rd p a = s.rd p (a + 0x8000) ∧ t.rd p (a + 0x8000) = s.rd p (a + 0x8000)) ∧
       (∀ a, (findShadow p (a + 0x8000) = none ∨ a / 0x10000 ≠ 0x28) → calmReg a = true →
         a ≠ Reg.SYS_CMT_STAT → a ≠ Reg.SYS_CMT_GEN → a ≠ Reg.IDN_CAT_STAT → t.rd p a = s.rd p a))) ∧
  (∀ (n : Fin 4) (d a b : BitVec 5) (s : State),
     let c := CoreId.sender n
     let x := s.gpr c b
     let chains := s.dmemRd .sender x.toNat &&& 0xFFFF
     let tmask := s.dmemRd .sender (x.toNat + 4)
     let tag := (s.dmemRd .sender (x.toNat + 8)).toNat % 65536
     let bad := tag = 0 ∨ tmask = 0 ∨ tmask &&& ~~~0x00007E0F ≠ 0
     let notChain := ∃ k : Fin 16, chains.getLsbD k.val = true ∧ s.isChain k.val = false
     let f := if s.schedOn .sender then s.chooseFrame .sender (s.gpr c a) 50000 else s.rd .sender Reg.TIME_FRM_NUM
     (Ready c s → x.toNat % 4 = 0 → x.toNat + 12 ≤ 0x80000 →
       (s.safe .sender = true → ∃ t : State, exec (.bcst c d a b) s = .next t ∧
         t.rd .sender Reg.SYS_CMT_LAST = 0xFF000004 ∧ (d ≠ 0 → t.gpr c d = 0xFF000004) ∧ t.pc c = s.pc c + 4) ∧
       (s.safe .sender = false → notChain → ∃ t : State, exec (.bcst c d a b) s = .next t ∧
         t.rd .sender Reg.SYS_CMT_LAST = 0xFF000020 ∧ (d ≠ 0 → t.gpr c d = 0xFF000020) ∧ t.pc c = s.pc c + 4) ∧
       (s.safe .sender = false → ¬ notChain → bad → ∃ t : State, exec (.bcst c d a b) s = .next t ∧
         t.rd .sender Reg.SYS_CMT_LAST = 0xFF000021 ∧ (d ≠ 0 → t.gpr c d = 0xFF000021) ∧ t.pc c = s.pc c + 4) ∧
       (s.safe .sender = false → ¬ notChain → ¬ bad → ∃ t : State, exec (.bcst c d a b) s = .next t ∧
         t.rd .sender Reg.SYS_CMT_LAST = f &&& 0x7FFFFFFF ∧ (d ≠ 0 → t.gpr c d = f &&& 0x7FFFFFFF) ∧
         t.pc c = s.pc c + 4 ∧
         ((∀ k : Fin 16, chains.getLsbD k.val = true → ¬ (s.lnkSt .sender k.val = 5 ∧ s.lnkTx .sender k.val = 2)) →
         t.out = s.out ++ (List.finRange 16).filterMap (fun k =>
           if chains.getLsbD k.val = true ∧ s.txActive .sender k.val = true then
             some (.packet (.chain k) (mkPacket 3 0x7F 0 0x7E (BitVec.ofNat 32 (5 * 2 ^ 28 + tag * 2 ^ 8)) [tmask, f]))
           else none)))) ∧
     (Ready c s → 0x80000 < x.toNat + 12 → ∃ t : State, exec (.bcst c d a b) s = .next t ∧ Faulted c 3 x s t) ∧
     (Ready c s → x.toNat + 12 ≤ 0x80000 → x.toNat % 4 ≠ 0 →
       ∃ t : State, exec (.bcst c d a b) s = .next t ∧ Faulted c 4 x s t) ∧
     (Ready .tile s → ∃ t : State, exec (.bcst .tile d a b) s = .next t ∧
       Faulted .tile 0xA (BitVec.ofNat 32 (0x24 * 2 ^ 26 + d.toNat * 2 ^ 21 + a.toNat * 2 ^ 16 + b.toNat * 2 ^ 11)) s t))

/-- R93, R94: TSND gives 2 for a descriptor or destination that breaks R91 or R92, 3 when the transmit direction is
not ACTIVE (or the port is no chain), 1 when the queue is full, and otherwise copies the descriptor into the queue
and gives 0; the head of a chain port's queue then leaves as a CMD packet, and the head of the tile's queue in a TEL
packet; the port then sleeps if that is asked for. R95: TRCV of an empty queue gives 0; otherwise the oldest message
leaves the queue for data memory at g[a], its header word for g[d], and TRCV_READY is pending exactly while messages
wait; a message that does not fit is a DMEM fault and stays. R97 to R99: XFER gives 1 while the engine is busy, 2
for a descriptor that breaks R97 or R98, and otherwise starts the engine and gives 0; a transfer within data memory
leaves its words at the destination, and XFER_DONE is raised; one that meets an unmapped folio address or a flash
read error at its first word stops with all its words left, and raises XFER_ERR as well. -/
def Obligations.MessagesAndTransfers : Prop :=
  ((∀ (c : CoreId) (d a b : BitVec 5) (s : State), Ready c s →
     let p := c.part
     let x := s.gpr c a
     let n := (s.dmemRd p x.toNat).toNat / 2 ^ 16 % 256
     let desc := s.dmemRds p x.toNat (3 + n)
     let dst := s.gpr c b
     let i := txIndex p dst
     let ok := descOk desc = true ∧
       (if p = .tile then descMsg desc = true ∧ dst.toNat < 3 else s.dstOkS desc dst = true)
     let up := if p = .tile then s.txActive .tile (portToward (s.dstLetter dst)) = true
       else s.isChain i = true ∧ s.txActive .sender i = true
     let q := (s.chip p).txq.getD i []
     let cap := if p = .tile then 8 else 16
     x.toNat % 4 = 0 → x.toNat + 4 * (3 + n) ≤ dmemSize p →
       (¬ ok → exec (.tsnd c d a b) s = .next (s.wrote c d 2)) ∧
       (ok → ¬ up → exec (.tsnd c d a b) s = .next (s.wrote c d 3)) ∧
       (ok → up → cap ≤ q.length → exec (.tsnd c d a b) s = .next (s.wrote c d 1)) ∧
       (ok → up → q.length < cap → ∃ t : State, exec (.tsnd c d a b) s = .next t ∧
         (t.chip p).txq = (s.chip p).txq.set i (q ++ [⟨desc, dst⟩]) ∧ (d ≠ 0 → t.gpr c d = 0) ∧
         t.pc c = s.pc c + 4 ∧ (∀ y z, t.rd y z = s.rd y z) ∧ (∀ y z, t.dmemByte y z = s.dmemByte y z))) ∧
   (∀ (k : Fin 16) (m : TxCmd) (l : List TxCmd) (s : State), s.alive .sender = true → s.safe .sender = false →
     s.txActive .sender k.val = true → s.sender.txq.getD k.val [] = m :: l →
     ∃ t : State, exec (.tsndCommandSend (.chain k)) s = .next t ∧ t.sender.txq.getD k.val [] = l ∧
       (∃ rest, t.out = s.out ++ .packet (.chain k) (txPacket m) :: rest) ∧
       (s.sleepAsked .sender k.val = false →
         t.out = s.out ++ [.packet (.chain k) (txPacket m)] ∧ (∀ y z, t.rd y z = s.rd y z))) ∧
   (∀ (port : LnkPort) (m : TxCmd) (l : List TxCmd) (s : State), s.alive .tile = true → port.part = .tile →
     s.tile.txq.getD 0 [] = m :: l → portToward (s.dstLetter m.dst) = port.idx → s.txActive .tile port.idx = true →
     ∃ t : State, exec (.tsndCommandSend port) s = .next t ∧ t.tile.txq.getD 0 [] = l ∧
       t.til.telSeq = (s.til.telSeq + 1) % 256)) ∧
  (∀ (c : CoreId) (d a : BitVec 5) (m : List Word) (l : List (List Word)) (s : State), Ready c s →
     let p := c.part
     let x := s.gpr c a
     (x.toNat % 4 = 0 → x.toNat < dmemSize p → (s.chip p).rxq = [] →
       exec (.trcv c d a) s = .next (s.wrote c d 0)) ∧
     (x.toNat % 4 = 0 → x.toNat < dmemSize p → x.toNat + 4 * m.length ≤ dmemSize p → (s.chip p).rxq = m :: l →
       ∃ t : State, exec (.trcv c d a) s = .next t ∧ (t.chip p).rxq = l ∧ (d ≠ 0 → t.gpr c d = m.getD 0 0) ∧
         t.pc c = s.pc c + 4 ∧ (∀ i, i < m.length → t.dmemRd p (x.toNat + 4 * i) = m.getD i 0) ∧
         (∀ y z, y ≠ p ∨ z < x.toNat ∨ x.toNat + 4 * m.length ≤ z → t.dmemByte y z = s.dmemByte y z) ∧
         (t.pendBit p Ev.TRCV_READY = true ↔ l ≠ [])) ∧
     (x.toNat < dmemSize p → dmemSize p < x.toNat + 4 * m.length → (s.chip p).rxq = m :: l →
       ∃ t : State, exec (.trcv c d a) s = .next t ∧ Faulted c 3 x s t) ∧
     (dmemSize p ≤ x.toNat → ∃ t : State, exec (.trcv c d a) s = .next t ∧ Faulted c 3 x s t)) ∧
  (∀ (c : CoreId) (d a : BitVec 5) (j : XferJob) (s : State),
     let p := c.part
     let x := s.gpr c a
     let job := xferOf p (s.dmemRd p x.toNat) (s.dmemRd p (x.toNat + 4)) (s.dmemRd p (x.toNat + 8))
     (Ready c s → x.toNat % 4 = 0 → x.toNat + 12 ≤ dmemSize p →
       ((s.core p c.idx).xfer ≠ none → exec (.xfer c d a) s = .next (s.wrote c d 1)) ∧
       ((s.core p c.idx).xfer = none → job = none → exec (.xfer c d a) s = .next (s.wrote c d 2)) ∧
       ((s.core p c.idx).xfer = none → job = some j → ∃ t : State, exec (.xfer c d a) s = .next t ∧
         (t.core p c.idx).xfer = some j ∧ t.rd p (Reg.SYS_XFER_STAT c.idx) = BitVec.ofNat 32 (2 ^ 31 + j.len) ∧
         (d ≠ 0 → t.gpr c d = 0) ∧ t.pc c = s.pc c + 4)) ∧
     (s.alive p = true → (s.core p c.idx).xfer = some j →
       (j.ssp = 0 → j.dsp = 0 → j.len = 1 → ∃ t : State, exec (.xferDone c none) s = .next t ∧
         t.dmemRd p j.dst = s.dmemRd p j.src ∧ (t.core p c.idx).xfer = none ∧
         t.rd p (Reg.SYS_XFER_STAT c.idx) = 0 ∧ (s.tapTakes p = false → t.pendBit p (Ev.XFER_DONE p c.idx) = true) ∧
         (∀ y z, y ≠ p ∨ z < j.dst ∨ j.dst + 4 ≤ z → t.dmemByte y z = s.dmemByte y z)) ∧
       (j.len ≠ 0 → (j.ssp = 1 ∧ folioMapped p j.src = false) →
         ∃ t : State, exec (.xferDone c none) s = .next t ∧ (t.core p c.idx).xfer = none ∧
           t.rd p (Reg.SYS_XFER_STAT c.idx) = BitVec.ofNat 32 (2 ^ 30 + 1 * 2 ^ 24 + j.len) ∧
           (s.tapTakes p = false → t.pendBit p (Ev.XFER_DONE p c.idx) = true ∧ t.pendBit p (Ev.XFER_ERR p c.idx) = true)) ∧
       (j.len ≠ 0 → j.ssp = 3 →
         ∃ t : State, exec (.xferDone c (some 0)) s = .next t ∧ (t.core p c.idx).xfer = none ∧
           t.rd p (Reg.SYS_XFER_STAT c.idx) = BitVec.ofNat 32 (2 ^ 30 + 3 * 2 ^ 24 + j.len) ∧
           (s.tapTakes p = false → t.pendBit p (Ev.XFER_DONE p c.idx) = true ∧ t.pendBit p (Ev.XFER_ERR p c.idx) = true))))

/-- R66, R67: the mailbox. A doorbell with LEN 1 to 64 while BUSY is 0 makes MBX_IN pending with BUSY 1; the core's
ACK clears BUSY and MBX_IN and sends MSI-X vector 1, or notes it while the vector is masked; SEND sets FULL and LEN
and uses vector 0; the host's ACK clears FULL and raises MBX_OUT_ACK. R66: a doorbell while BUSY is 1, or with LEN 0
or above 64, is discarded: OVR is set, BUSY stays, and no event is raised. An ACK while BUSY is 0 changes nothing. -/
def Obligations.MailboxAndDoorbell : Prop :=
  (∀ (len : BitVec 7) (s : State), s.hosted = true →
     let notice := fun (v : Nat) (u t : State) =>
       (s.msixMasked v = false → t.out = u.out ++ [.msix v]) ∧
       (s.msixMasked v = true → t.out = u.out ∧ bit (SMap.get (fun _ => 0) t.host.pba (v / 32)) (v % 32) = true)
     (bit s.host.mbxIn 31 = false → 1 ≤ len.toNat → len.toNat ≤ 64 →
       ∃ t : State, exec (.hostDoorbell len) s = .next t ∧ bit t.host.mbxIn 31 = true ∧
         t.host.mbxIn.toNat % 128 = len.toNat ∧ t.pendBit .sender Ev.MBX_IN = true ∧
         bit t.host.mbxIn 30 = bit s.host.mbxIn 30) ∧
     (bit s.host.mbxIn 31 = true →
       ∃ t : State, exec .sysMbxInAck s = .next t ∧ bit t.host.mbxIn 31 = false ∧
         t.host.mbxIn.toNat % 128 = s.host.mbxIn.toNat % 128 ∧ t.pendBit .sender Ev.MBX_IN = false ∧ notice 1 s t) ∧
     (bit (s.rd .sender Reg.SYS_MBX_OUT_CTRL) 31 = false →
       ∃ t : State, exec (.sysMbxOutSend len) s = .next t ∧ bit (t.rd .sender Reg.SYS_MBX_OUT_CTRL) 31 = true ∧
         (t.rd .sender Reg.SYS_MBX_OUT_CTRL).toNat % 128 = len.toNat ∧ notice 0 s t ∧
         (∀ p a, p ≠ .sender ∨ a ≠ Reg.SYS_MBX_OUT_CTRL → t.rd p a = s.rd p a)) ∧
     (bit (s.rd .sender Reg.SYS_MBX_OUT_CTRL) 31 = true →
       ∃ t : State, exec .hostMbxOutAck s = .next t ∧ bit (t.rd .sender Reg.SYS_MBX_OUT_CTRL) 31 = false ∧
         (s.tapTakes .sender = false → t.pendBit .sender Ev.MBX_OUT_ACK = true) ∧
         (∀ p a, p ≠ .sender ∨ (calmReg a = true ∧ a ≠ Reg.SYS_MBX_OUT_CTRL) → t.rd p a = s.rd p a))) ∧
  (∀ (len : BitVec 7) (s : State), s.hosted = true →
     (bit s.host.mbxIn 31 = true ∨ len = 0 ∨ 64 < len.toNat →
       ∃ t : State, exec (.hostDoorbell len) s = .next t ∧ bit t.host.mbxIn 30 = true ∧
         bit t.host.mbxIn 31 = bit s.host.mbxIn 31 ∧ t.sender = s.sender ∧ t.tile = s.tile ∧ t.out = s.out) ∧
     (bit s.host.mbxIn 31 = false → exec .sysMbxInAck s = .next s))

/-- R62, R64, R107: HALT of a core that runs is requested; RESUME lets a halted core go on at its PC and ends its
fault; the PC of a halted core can be written, that of a core that runs cannot. R62: STEP lets a halted core execute
the one instruction at its PC; with the instruction word of ADDI there, g[d] takes the sum, and the core is halted
again with CAUSE 3 at the next word. R63: the debug window of a halted core. Reads leave the value in
`HOST_DBG_DATA` and set DONE; writes act as the core's own; an FRD and an FWR go through the core's own queue. R63,
R105: a debug access that would fault changes nothing but `HOST_DBG_STAT`, which holds DONE, ERR and the fault code;
any debug command on a core that runs sets ERR alone (the model's reading, log entry 40, DEDUCED). -/
def Obligations.HostDebug : Prop :=
  (∀ (n : Fin 4) (v : Word) (s : State), s.hosted = true → n.val < s.sender.cores.length →
     let k := s.core .sender n.val
     (k.halted = false →
       exec (.hostCoreHalt n) s = .next (s.updCore .sender n.val fun k => { k with haltReq := true }) ∧
       exec (.hostCoreResume n) s = .next s ∧ exec (.hostCorePcWrite n v) s = .next s ∧
       exec (.hostCoreStep n) s = .next s) ∧
     (k.halted = true →
       exec (.hostCoreHalt n) s = .next s ∧
       exec (.hostCorePcWrite n v) s = .next (s.updCore .sender n.val fun k => { k with pc := v }) ∧
       ∃ t : State, exec (.hostCoreResume n) s = .next t ∧ t.core .sender n.val = { k with halted := false } ∧
         bit (t.rd .sender (Reg.SYS_CORE_FCODE n.val)) 31 = false ∧
         (∀ p a, p ≠ .sender ∨ a ≠ Reg.SYS_CORE_FCODE n.val → t.rd p a = s.rd p a) ∧
         (∀ p a, t.dmemByte p a = s.dmemByte p a))) ∧
  (∀ (n : Fin 4) (d a : BitVec 5) (imm : BitVec 16) (s : State), s.hosted = true →
     let k := s.core .sender n.val
     k.halted = true → k.held = false → k.haltReq = false → k.stall = .none → k.pc.toNat < 0x20000 →
     s.fetched (.sender n) = wordI 0x01 d a imm →
     ∃ t : State, exec (.hostCoreStep n) s = .next t ∧
       (d ≠ 0 → t.gpr (.sender n) d = s.gpr (.sender n) a + BitVec.ofInt 32 imm.toInt) ∧
       (∀ r, r ≠ d → t.gpr (.sender n) r = s.gpr (.sender n) r) ∧ t.pc (.sender n) = k.pc + 4 ∧
       (t.core .sender n.val).halted = true ∧ (t.core .sender n.val).cause = 3 ∧
       (s.tapTakes .sender = false → t.pendBit .sender (Ev.CORE_HALT .sender n.val) = true)) ∧
  (∀ (idx : BitVec 5) (s : State), s.hosted = true →
     let n := s.dbgCore
     let c := CoreId.sender n
     let x := s.host.dbgAddr
     let v := s.host.dbgData
     n.val < s.sender.cores.length → (s.core .sender n.val).halted = true →
     (exec (.dbgReadReg idx) s = .next (s.updHost fun h => { h with dbgData := s.gpr c idx, dbgStat := 1 })) ∧
     (∃ t : State, exec (.dbgWriteReg idx) s = .next t ∧ (idx ≠ 0 → t.gpr c idx = v) ∧
       (∀ r, r ≠ idx → t.gpr c r = s.gpr c r) ∧ t.host.dbgStat = 1) ∧
     (x.toNat < 0x7FF80 → x.toNat % 4 = 0 →
       exec .dbgLdw s = .next (s.updHost fun h => { h with dbgData := s.dmemRd .sender x.toNat, dbgStat := 1 })) ∧
     (x.toNat < 0x80000 → x.toNat % 4 = 0 →
       ∃ t : State, exec .dbgStw s = .next t ∧ t.dmemRd .sender x.toNat = v ∧ t.host.dbgStat = 1 ∧
         (∀ p y, p = .tile ∨ y < x.toNat ∨ x.toNat + 4 ≤ y → t.dmemByte p y = s.dmemByte p y)) ∧
     (folioMapped .sender x.toNat = true → x.toNat % 4 = 0 →
       (∃ t : State, exec .dbgFrd s = .next t ∧ (t.core .sender n.val).dbgFrd = some x ∧ t.host.dbgStat = 0) ∧
       ((s.core .sender n.val).dbgFwr = [] → (s.core .sender n.val).posted.length < 16 →
         ∃ t : State, exec .dbgFwr s = .next t ∧ t.host.dbgStat = 1 ∧
           (t.core .sender n.val).posted = (s.core .sender n.val).posted ++ [(x, v)])) ∧
     (∀ m, (s.core .sender n.val).dbgFrd = some x → (s.core .sender n.val).posted = [] →
       (∀ w ∈ (s.core .sender n.val).transit, blockOf w.1.toNat ≠ blockOf x.toNat) →
       (s.core .sender n.val).stall = .none → PlainRw .sender x.toNat m →
       ∃ t : State, exec (.frdReturn c) s = .next t ∧ t.host.dbgData = s.rd .sender x.toNat ∧ t.host.dbgStat = 1 ∧
         (t.core .sender n.val).dbgFrd = none)) ∧
  (∀ (idx : BitVec 5) (s : State), s.hosted = true →
     let x := s.host.dbgAddr
     let stat := fun (w : Word) => (.next (s.updHost fun h => { h with dbgStat := w }) : Host.Outcome State Fault Refusal)
     ((s.core .sender s.dbgCore.val).halted = true →
       (0x80000 ≤ x.toNat → exec .dbgLdw s = stat 0x303 ∧ exec .dbgStw s = stat 0x303) ∧
       (x.toNat < 0x80000 → x.toNat % 4 ≠ 0 → exec .dbgLdw s = stat 0x403 ∧ exec .dbgStw s = stat 0x403) ∧
       (folioMapped .sender x.toNat = false → exec .dbgFrd s = stat 0x503 ∧ exec .dbgFwr s = stat 0x503) ∧
       (folioMapped .sender x.toNat = true → x.toNat % 4 ≠ 0 → exec .dbgFrd s = stat 0x603 ∧ exec .dbgFwr s = stat 0x603)) ∧
     ((s.core .sender s.dbgCore.val).halted = false →
       ∀ i ∈ ([.dbgReadReg idx, .dbgWriteReg idx, .dbgLdw, .dbgStw, .dbgFrd, .dbgFwr] : List Instr), exec i s = stat 2))

/-- R61, R65, R68: an instruction memory takes a word while its core is halted and else discards it with
HOST_DENIED; the frame-memory window reads and writes the byte that `HOST_DMA_SEL` and the offset name, and beyond
the installed memory discards a write and gives all ones to a read; unmasking a vector sends the message that waits.
R7, R8, R43, R44: a write of a plain RW register stores its defined bits, of an image that no commit locks likewise,
a plain W1C register clears the bits written as 1, an RO register and the active value of an SH register ignore it,
and an address that is not mapped or not aligned takes nothing; the host's write of `HOST_DMA_SEL` stores its 5
bits. -/
def Obligations.WindowsAndWrites : Prop :=
  (∀ (n : Fin 4) (off : BitVec 17) (o : BitVec 30) (v : Word) (vec : Fin 64) (s : State), s.hosted = true →
     let m := s.core .sender n.val
     let a := s.host.dmaSel.toNat % 32 * 2 ^ 30 + o.toNat
     (n.val < s.sender.cores.length → off.toNat % 4 = 0 → m.halted = true →
       ∃ t : State, exec (.hostImemWrite n off v) s = .next t ∧
         (t.core .sender n.val).imem = Mem.writeWord zeroByte m.imem off.toNat v ∧
         Mem.readWord zeroByte (t.core .sender n.val).imem off.toNat = v ∧
         (∀ y, y < off.toNat ∨ off.toNat + 4 ≤ y →
           SMap.get zeroByte (t.core .sender n.val).imem y = SMap.get zeroByte m.imem y)) ∧
     (off.toNat % 4 = 0 → m.halted = false →
       ∃ t : State, exec (.hostImemWrite n off v) s = .next t ∧ (t.core .sender n.val).imem = m.imem ∧
         (s.tapTakes .sender = false → t.pendBit .sender Ev.HOST_DENIED = true)) ∧
     (o.toNat % 4 = 0 → a + 4 ≤ s.installed →
       (∃ (t : State) (w : Word), exec (.hostFrameWindow false o v) s = .next t ∧
         t.out = s.out ++ [.hostRead w (s.hostPoison a)] ∧ (s.hostPoison a = false → w = s.fmWord a) ∧
         (∀ x, t.fmByte x = s.fmByte x) ∧
         t.rd .sender (Reg.DRC_PORT_UNITS 9) = s.rd .sender (Reg.DRC_PORT_UNITS 9) + 1) ∧
       (∃ t : State, exec (.hostFrameWindow true o v) s = .next t ∧ t.fmWord a = v ∧ t.out = s.out ∧
         (∀ x, x < a ∨ a + 4 ≤ x → t.fmByte x = s.fmByte x))) ∧
     (o.toNat % 4 = 0 → s.installed < a + 4 →
       ∃ t : State, exec (.hostFrameWindow true o v) s = .next t ∧
         exec (.hostFrameWindow false o v) s = .next (t.emit (.hostRead 0xFFFFFFFF false)) ∧ t.snd.dram = s.snd.dram ∧
         (s.tapTakes .sender = false → t.pendBit .sender Ev.HOST_DENIED = true)) ∧
     (∃ t : State, exec (.msixUnmask vec) s = .next t ∧ t.msixMasked vec.val = false ∧
       (bit (SMap.get (fun _ => 0) s.host.pba (vec.val / 32)) (vec.val % 32) = true →
         t.out = s.out ++ [.msix vec.val] ∧ bit (SMap.get (fun _ => 0) t.host.pba (vec.val / 32)) (vec.val % 32) = false) ∧
       (bit (SMap.get (fun _ => 0) s.host.pba (vec.val / 32)) (vec.val % 32) = false → t.out = s.out))) ∧
  (∀ (p : Sys2Proof.Part) (a v : Word) (m : Nat) (s : State),
     (s.alive p = true → folioMapped p a.toNat = true → a.toNat % 4 = 0 →
       ((PlainRw p a.toNat m ∨ (ShadowImage p a.toNat m ∧ s.lockedAt p a.toNat = false)) →
         exec (.registerWrite (.folio p a) v) s = .next (s.wr p a.toNat (v &&& BitVec.ofNat 32 m))) ∧
       (∀ r ix, a.toNat < 0x800000 → findReg p a.toNat = some (r, ix) →
         ((r.acc = .ro ∨ r.acc = .rc ∨ r.acc = .sh) → exec (.registerWrite (.folio p a) v) s = .next s) ∧
         (r.acc = .w1c → r.hook = .none → exec (.registerWrite (.folio p a) v) s =
           .next (s.wr p a.toNat (s.rd p a.toNat &&& ~~~(v &&& BitVec.ofNat 32 r.mask)))))) ∧
     (folioMapped p a.toNat = false ∨ a.toNat % 4 ≠ 0 → exec (.registerWrite (.folio p a) v) s = .next s) ∧
     (s.hosted = true → exec (.registerWrite (.bar0 4) v) s = .next (s.updHost fun h => { h with dmaSel := v &&& 0x1F })))

/-- R54, R55, R281: a CMD WRITE of one word from the loan holder, outside the tile's safe state, writes the register
as an FWR would, and moves the tag state: a new tag opens with its count and sequence number, the next number of the
open tag counts, a gap or a tag that is not open breaks it. From any other sender it changes nothing. R54 to R56,
R95, R96, R281: READ answers with the word, CLOSE with the tag state, which becomes CLOSED when the declared count
is that of the open tag and BROKEN otherwise; a SWAP under the closed tag of its writer becomes the pending commit
for its frame, and a refused one is counted, raises SWAP_REFUSED and is reported; a MSG enters the receive queue, or
is dropped when its 16 entries are taken. -/
def Obligations.RemoteAccess : Prop :=
  (∀ (port : LnkPort) (pkt : Packet) (m : Nat) (s : State), port.part = .tile → TileTakes port.idx pkt s →
     Pkt.is pkt 3 1 = true →
     let u := s.heard port.idx pkt
     let l := letterOfPort port.idx
     let x := Pkt.w pkt 2
     let seq := (Pkt.w pkt 3).toNat % 65536
     let tag := Pkt.tag pkt
     let st := s.fldOf .tile Reg.SYS_RW_STAT 31 30
     let cur := st ≠ 0 ∧ s.fldOf .tile Reg.SYS_RW_STAT 15 0 = tag
     (s.fromHolder l = false ∨ u.safe .tile = true → exec (.cmdWrite port pkt) s = .next u) ∧
     (s.fromHolder l = true → u.safe .tile = false → pkt.length = 6 → PlainRw .tile x.toNat m →
       folioMapped .tile x.toNat = true → x.toNat % 4 = 0 →
       ∃ t : State, exec (.cmdWrite port pkt) s = .next t ∧ (calmReg x.toNat = true → t.rd .tile x.toNat = Pkt.w pkt 4 &&& BitVec.ofNat 32 m) ∧
         (tag = 0 → t.rd .tile Reg.SYS_RW_STAT = s.rd .tile Reg.SYS_RW_STAT) ∧
         (tag ≠ 0 → ¬ cur →
           t.rd .tile Reg.SYS_RW_STAT = BitVec.ofNat 32 (2 ^ 30 + letterBit l * 2 ^ 29 + tag) ∧
           t.rd .tile Reg.SYS_RW_COUNT = 1 ∧ t.til.rwSeq = seq) ∧
         (tag ≠ 0 → cur → st = 1 → seq = (s.til.rwSeq + 1) % 65536 →
           t.rd .tile Reg.SYS_RW_COUNT = s.rd .tile Reg.SYS_RW_COUNT + 1 ∧ t.til.rwSeq = seq ∧
           t.rd .tile Reg.SYS_RW_STAT = s.rd .tile Reg.SYS_RW_STAT) ∧
         (tag ≠ 0 → cur → st = 1 → seq ≠ (s.til.rwSeq + 1) % 65536 →
           t.fldOf .tile Reg.SYS_RW_STAT 31 30 = 3 ∧
           (s.tapTakes .tile = false → t.pendBit .tile Ev.RW_GAP = true)) ∧
         (tag ≠ 0 → cur → st ≠ 1 → t.fldOf .tile Reg.SYS_RW_STAT 31 30 = 3))) ∧
  (∀ (port : LnkPort) (pkt : Packet) (s : State), port.part = .tile → TileTakes port.idx pkt s →
     let u := s.heard port.idx pkt
     let l := letterOfPort port.idx
     let tag := Pkt.tag pkt
     let st := s.fldOf .tile Reg.SYS_RW_STAT 31 30
     let cur := st ≠ 0 ∧ s.fldOf .tile Reg.SYS_RW_STAT 15 0 = tag
     let report := fun (w f : Word) (v : State) =>
       v.telForm l 6 tag [v.rd .tile Reg.SYS_RW_STAT, v.rd .tile Reg.SYS_RW_COUNT, w, f]
     let refused := fun (code : Nat) => ∃ v : State,
       exec (.cmdSwap port pkt) s = .next (report (BitVec.ofNat 32 (0xFF000000 + code)) (Pkt.w pkt 3) v) ∧
       v.rd .tile Reg.SYS_CMT_LAST = BitVec.ofNat 32 (0xFF000000 + code) ∧
       v.rd .tile Reg.SYS_CMT_REJ = s.rd .tile Reg.SYS_CMT_REJ + 1 ∧ v.tile.commit = s.tile.commit ∧
       v.rd .tile Reg.SYS_RW_STAT = s.rd .tile Reg.SYS_RW_STAT ∧
       (s.tapTakes .tile = false → v.pendBit .tile Ev.SWAP_REFUSED = true)
     (∀ m, Pkt.is pkt 3 2 = true → (Pkt.w pkt 3).toNat / 65536 = 1 → PlainRw .tile (Pkt.w pkt 2).toNat m →
       folioMapped .tile (Pkt.w pkt 2).toNat = true → (Pkt.w pkt 2).toNat % 4 = 0 →
       exec (.cmdRead port pkt) s = .next (u.telForm l 5 tag [u.rd .tile (Pkt.w pkt 2).toNat])) ∧
     (s.fromHolder l = true → u.safe .tile = false →
       (Pkt.is pkt 3 3 = true →
         (cur → st = 1 → s.rd .tile Reg.SYS_RW_COUNT = Pkt.w pkt 2 → ∃ v : State,
           exec (.cmdClose port pkt) s = .next (report 0 0 v) ∧ v.fldOf .tile Reg.SYS_RW_STAT 31 30 = 2) ∧
         (cur → ¬ (st = 1 ∧ s.rd .tile Reg.SYS_RW_COUNT = Pkt.w pkt 2) → ∃ v : State,
           exec (.cmdClose port pkt) s = .next (report 0 0 v) ∧ v.fldOf .tile Reg.SYS_RW_STAT 31 30 = 3) ∧
         (¬ cur → exec (.cmdClose port pkt) s = .next (report 0 0 u))) ∧
       (Pkt.is pkt 3 5 = true →
         let writer := s.bitOf .tile Reg.SYS_RW_STAT 29
         let same := writer = true ↔ l = .b
         (¬ cur → refused 0x12) ∧
         (cur → ¬ same → refused 0x13) ∧
         (cur → same → st ≠ 2 → refused 0x10) ∧
         (cur → same → st = 2 → s.tile.commit ≠ none → refused 3) ∧
         (cur → same → st = 2 → s.tile.commit = none → s.schedOn .tile = true → u.swapLate (Pkt.w pkt 3) = true →
           refused 0x11) ∧
         (cur → same → st = 2 → s.tile.commit = none → s.schedOn .tile = true → u.swapLate (Pkt.w pkt 3) = false →
           u.validate .tile (Pkt.w pkt 2) (Pkt.w pkt 3) (u.wall .tile) = none →
           ∃ t : State, exec (.cmdSwap port pkt) s = .next t ∧
             t.tile.commit = some ⟨Pkt.w pkt 2, Pkt.w pkt 3, .byFrame, true, BitVec.ofNat 32 tag⟩ ∧
             t.rd .tile Reg.SYS_RW_STAT = 0 ∧ t.rd .tile Reg.SYS_RW_COUNT = 0 ∧
             t.rd .tile Reg.SYS_CMT_STAT = BitVec.ofNat 32 (0xC0000000 + tag)))) ∧
     (Pkt.is pkt 3 4 = true →
       let n := (Pkt.w pkt 3).toNat / 65536 % 256
       let ws := ((Pkt.body pkt).drop 2).take n
       (s.tile.rxq.length < 16 → ∃ t : State, exec (.cmdMsg port pkt) s = .next t ∧
         t.tile.rxq = s.tile.rxq ++ [BitVec.ofNat 32 (4 * 2 ^ 28 + ws.length % 256 * 2 ^ 16 + tag % 65536) ::
           BitVec.ofNat 32 (letterBit l * 2 ^ 8 + 0x7E) :: ws] ∧ t.pendBit .tile Ev.TRCV_READY = true) ∧
       (16 ≤ s.tile.rxq.length → ∃ t : State, exec (.cmdMsg port pkt) s = .next t ∧ t.tile.rxq = s.tile.rxq ∧
         t.rd .tile Reg.SYS_TRCV_DROP = s.rd .tile Reg.SYS_TRCV_DROP + 1 ∧
         (s.tapTakes .tile = false → t.pendBit .tile Ev.TRCV_OVF = true))))

/-- R69, R95, R96, R418: TEL packets of KIND 4, 5 and 6 enter the sender's receive queue with header and source
words, or are dropped when its 256 entries are taken; the report of a refused swap raises SWAP_REPORT; a SEQ that
does not follow the last one of that position raises TEL_SEQ_GAP. R418, R419: the tile log takes the records of a
TEL packet of KIND 7 with their source word, in order, while it has room; a pop removes the oldest record of a log,
whose READY event is pending exactly while records wait; a batch that is due takes up to 16 records out of the
tile's queue into a TEL packet. -/
def Obligations.TileAnswersAndLogs : Prop :=
  (∀ (k : Fin 16) (pkt : Packet) (s : State), SenderTakes k.val pkt s →
     let ws := telPayload pkt
     let msg := BitVec.ofNat 32 (Pkt.kind pkt * 2 ^ 28 + ws.length % 256 * 2 ^ 16 + Pkt.tag pkt % 65536) ::
       BitVec.ofNat 32 (k.val * 2 ^ 16 + Pkt.src pkt) :: ws
     let takes := fun (i : Instr) =>
       (s.sender.rxq.length < 256 → ∃ t : State, exec i s = .next t ∧ t.sender.rxq = s.sender.rxq ++ [msg] ∧
         t.pendBit .sender Ev.TRCV_READY = true ∧
         (∀ v, AMap.find s.snd.telSeq (128 * k.val + Pkt.src pkt) = some v →
           (v + 1) % 256 ≠ (Pkt.w pkt 2).toNat / 2 ^ 24 → s.tapTakes .sender = false →
           t.pendBit .sender Ev.TEL_SEQ_GAP = true)) ∧
       (256 ≤ s.sender.rxq.length → ∃ t : State, exec i s = .next t ∧ t.sender.rxq = s.sender.rxq ∧
         t.rd .sender Reg.SYS_TRCV_DROP = s.rd .sender Reg.SYS_TRCV_DROP + 1)
     (Pkt.is pkt 4 4 = true → takes (.telMsg k pkt)) ∧
     (Pkt.is pkt 4 5 = true → takes (.telReadData k pkt)) ∧
     (Pkt.is pkt 4 6 = true → takes (.telReport k pkt) ∧
       (bit (ws.getD 2 0) 31 = true → s.tapTakes .sender = false → ∃ t : State, exec (.telReport k pkt) s = .next t ∧
         t.pendBit .sender Ev.SWAP_REPORT = true))) ∧
  ((∀ (k : Fin 16) (pkt : Packet) (s : State), SenderTakes k.val pkt s → Pkt.is pkt 4 7 = true →
     let rs := telRecords (telPayload pkt)
     s.snd.tlog.length + rs.length ≤ 1024 → s.snd.tlogLost = false →
     ∃ t : State, exec (.telEventRecords k pkt) s = .next t ∧
       t.snd.tlog = s.snd.tlog ++ rs.map fun r => (r, s.tlogSrc k.val pkt)) ∧
   (∀ s : State, s.alive .sender = true →
     (∃ t : State, exec .evtLogPop s = .next t ∧
       (s.pendBit .sender Ev.LOG_READY = true ∨ s.sender.log.drop 1 = [] → t.sender.log = s.sender.log.drop 1) ∧
       (t.pendBit .sender Ev.LOG_READY = false ↔ s.sender.log.drop 1 = [])) ∧
     (∃ t : State, exec .evtTlogPop s = .next t ∧ t.snd.tlog = s.snd.tlog.drop 1 ∧
       (t.pendBit .sender Ev.TLOG_READY = true ↔ s.snd.tlog.drop 1 ≠ []))) ∧
   (∀ s : State, s.alive .tile = true → s.telDue = true → s.txActive .tile (portToward s.followed) = true →
     exec .telBatchSend s = .next ((s.upd .tile fun c => { c with log := c.log.drop 16 }).telForm s.followed 7 0
       ((s.tile.log.take 16).flatMap fun r => [r.w0, r.w1, r.w2, r.w3]))))

/-- R411, R417, R430: a raised event that is no level event is pending, and the events pending before it still are;
a write of a route keeps LOG of LOG_OVF and TLOG_OVF and TEL of TEL_DROP at 0. -/
def Obligations.RaisedEventIsPending : Prop :=
  (∀ (p : Sys2Proof.Part) (id : Nat) (detail : Word) (s : State), id < 0x600 → s.tapTakes p = false →
    (evLevel p id = false → (s.raise p id detail).pendBit p id = true) ∧
    (∀ j, j < 0x600 → s.pendBit p j = true → (s.raise p id detail).pendBit p j = true)) ∧
  (∀ (i : Nat) (v : Word) (s : State),
    (s.alive .sender = true → i < 0x600 → exec (.evtRouteWrite .sender i v) s =
      .next (s.wr .sender (Reg.EVT_ROUTE i) (if i = Ev.LOG_OVF ∨ i = Ev.TLOG_OVF then v &&& 0xA03F000F else v &&& 0xE03F000F))) ∧
    (s.alive .tile = true → i < 0x440 → exec (.evtRouteWrite .tile i v) s =
      .next (s.wr .tile (Reg.EVT_ROUTE i) (if i = Ev.TEL_DROP then v &&& 0x80000001 else v &&& 0xC0000001))))

/-- R421, R423, R424, R426, R428: an ATTEND slot whose due time is reached raises FLT_ESCALATED; the safe-state
command puts the part into the safe state with CAUSE 4 and raises SAFE_STATE; clearing the accession record empties
it; a failed self-check of the collector enters the safe state with CAUSE 3 and latches its fault; it raises no
event, but for those of what the safe state stops (a core that halts, a loan state that changes); a check that finds
nothing changes nothing. R429: the node and fabric faults. A parity error of a block raises NODE_BLOCK; of a region,
NODE_REGION, which is FATAL and enters the safe state; a fabric error shuts the named chain ports of its quadrant
and raises FABRIC_ERR; an error between quadrants raises FABRIC_CHIP, also FATAL. -/
def Obligations.SafeStateAndFaultNodes : Prop :=
  (∀ (p : Sys2Proof.Part) (a : Fin 16) (x : AttSlot) (sound : Bool) (s : State), s.alive p = true →
     (AMap.find (s.chip p).att a.val = some x → (x.due - s.wall p).toInt ≤ 0 → s.tapTakes p = false →
       ∃ t : State, exec (.fltEscalated p a) s = .next t ∧ t.pendBit p (Ev.FLT_ESCALATED p) = true) ∧
     (AMap.find (s.chip p).att a.val = some x → 0 < (x.due - s.wall p).toInt → exec (.fltEscalated p a) s = .next s) ∧
     (s.safe p = false → ∃ t : State, exec (.fltSafeCmd p 0x5AFE) s = .next t ∧ t.rd p Reg.FLT_STAT = 0xC0000000 ∧
       (s.tapTakes p = false → t.pendBit p (Ev.SAFE_STATE p) = true) ∧
       (p = .tile → s.tile.phase = .up → (s.core .tile 0).halted = false → s.tile.cores.length = 1 →
         (t.core .tile 0).halted = true ∧ (t.core .tile 0).cause = 2)) ∧
     (s.safe p = true → exec (.fltSafeCmd p 0x5AFE) s = .next s) ∧
     (∀ v, v ≠ 0x5AFE → exec (.fltSafeCmd p v) s = .next s) ∧
     (∃ t : State, exec (.fltClrFirst p) s = .next t ∧ (t.chip p).acc = Accession.empty ∧ (∀ q y, t.rd q y = s.rd q y)) ∧
     exec (.collCheck p false sound) s = .next s ∧
     (s.safe p = false → ∃ t : State, exec (.collCheck p true sound) s = .next t ∧
       t.rd p Reg.FLT_STAT = BitVec.ofNat 32 (0x80000000 + 3 * 2 ^ 28 + Ev.COLL_CHECK p) ∧
       ((p = .tile → (s.core .tile 0).halted = true) → (p = .sender → s.fldOf .sender Reg.LOAN_STAT 31 30 = 2) →
         (∀ id, id < 0x600 → t.pendBit p id = s.pendBit p id) ∧
         (sound = false → (s.chip p).acc.valid = (t.chip p).acc.valid)) ∧
       (sound = true → (s.chip p).acc.valid = false → (t.chip p).acc.valid = true ∧
         (t.chip p).acc.record.w0 = BitVec.ofNat 32 (4 * 2 ^ 29 + Ev.COLL_CHECK p)))) ∧
  (∀ (p : Sys2Proof.Part) (n : Fin 64) (r q : Fin 4) (chains : BitVec 4) (s : State),
     (s.alive p = true → s.tapTakes p = false →
       (p = .tile ∨ 17 ≤ n.val → ∃ t : State, exec (.nodeBlock p n) s = .next t ∧ t.pendBit p (Ev.NODE_BLOCK p) = true) ∧
       (p = .sender → n.val < 17 → exec (.nodeBlock p n) s =
         .next ((s.pipeFail n.val).1.raiseAll .sender ((Ev.NODE_BLOCK .sender, BitVec.ofNat 32 n.val) :: (s.pipeFail n.val).2))) ∧
       (∃ t : State, exec (.nodeRegion p r) s = .next t ∧ t.pendBit p (Ev.NODE_REGION p) = true ∧ t.safe p = true)) ∧
     (s.alive .sender = true → s.tapTakes .sender = false →
       (∃ t : State, exec (.fabricErr q chains false) s = .next t ∧ t.pendBit .sender (Ev.FABRIC_ERR q.val) = true ∧
         ∀ k : Fin 4, chains.getLsbD k.val = true →
           bit (t.rd .sender (Reg.LNK_CTRL (4 * q.val + k.val))) 31 = false) ∧
       (∃ t : State, exec .fabricChip s = .next t ∧ t.pendBit .sender Ev.FABRIC_CHIP = true ∧ t.safe .sender = true)))

/-- R143, R145, R151, R147: a read of `TIME_NOW_LO` latches the upper half of the count and its fraction; a write of
`TIME_SET_LO` sets the count where a step is allowed, and raises TIME_STEP_BLOCKED elsewhere; a pop removes the head
of a port's time-stamp queue, and TXQ_READY is pending exactly while stamps wait. R153, R154: a PPS edge is
captured; with SRC 1 one within `TIME_PPS_WIN` of the expected time is a sample and moves the expected time on by 1
s, any other is an outlier; an expected edge that has not come raises PPS_MISSING. The 10 MHz reference is reported
lost and present. R165, R166, R168: an edge less than half a period times DIV after the last accepted one is
ignored; an accepted edge is captured, and with EN 1 leads a lost input to ACQUIRE; an input without an edge for 2 ×
DIV periods becomes LOST. With the cross-link as the source, SYNC from its port gives the current offsets of its
slots. -/
def Obligations.TimeAndPhaseInputs : Prop :=
  ((∀ (p : Sys2Proof.Part) (s : State), s.alive p = true →
     ∃ t : State, exec (.timeNowRead p) s = .next t ∧
       t.rd p Reg.TIME_NOW_HI = (if p = .tile then 0 else BitVec.ofNat 32 (s.sender.count / 2 ^ 64)) ∧
       t.rd p Reg.TIME_NOW_FRAC = BitVec.ofNat 32 ((s.chip p).count % 2 ^ 32) &&& 0xFFFF0000 ∧
       (∀ q a, q ≠ p ∨ (a ≠ Reg.TIME_NOW_HI ∧ a ≠ Reg.TIME_NOW_FRAC) → t.rd q a = s.rd q a)) ∧
   (∀ (lo : Word) (s : State), s.alive .sender = true →
     (s.stepAllowed = true → ∃ t : State, exec (.timeSet lo) s = .next t ∧
       t.sender.count = s.snd.setHi.toNat * 2 ^ 64 + lo.toNat * 2 ^ 32 + s.sender.count % 2 ^ 32 ∧
       (∀ q a, t.rd q a = s.rd q a)) ∧
     (s.stepAllowed = false → ∃ t : State, exec (.timeSet lo) s = .next t ∧ t.sender.count = s.sender.count ∧
       (s.tapTakes .sender = false → t.pendBit .sender Ev.TIME_STEP_BLOCKED = true))) ∧
   (∀ (i : Fin 4) (s : State), s.alive .sender = true → i.val < s.snd.txStamps.length →
     (s.snd.txStamps.getD i.val [] ≠ [] → ∃ t : State, exec (.timeTxqPop i) s = .next t ∧
       t.snd.txStamps.getD i.val [] = (s.snd.txStamps.getD i.val []).drop 1 ∧
       (t.pendBit .sender (Ev.TXQ_READY i.val) = true ↔ (s.snd.txStamps.getD i.val []).drop 1 ≠ [])) ∧
     (s.snd.txStamps.getD i.val [] = [] → exec (.timeTxqPop i) s = .next s))) ∧
  (∀ s : State, s.alive .sender = true →
     let src := s.fldOf .sender Reg.TIME_CTRL 1 0
     let cap := s.wall .sender
     let exp := s.rd .sender Reg.TIME_PPS_EXP
     let win := s.rd .sender Reg.TIME_PPS_WIN
     let free := s.tapTakes .sender = false
     (∃ t : State, exec .ppsEdge s = .next t ∧ t.rd .sender Reg.TIME_PPS_CAP = cap ∧
       (free → t.pendBit .sender Ev.PPS_EDGE = true) ∧
       (src = 1 → (cap - exp).toInt.natAbs ≤ win.toNat → t.rd .sender Reg.TIME_PPS_EXP = exp + 1000000000 ∧
         t.rd .sender Reg.TIME_LAST_OFS = cap - s.rd .sender Reg.TIME_PPS_DLY - exp) ∧
       (src = 1 → win.toNat < (cap - exp).toInt.natAbs → t.rd .sender Reg.TIME_PPS_EXP = exp ∧
         (free → t.pendBit .sender Ev.PPS_OUTLIER = true)) ∧
       (src ≠ 1 → t.rd .sender Reg.TIME_PPS_EXP = exp)) ∧
     (src = 1 → (exp + win - cap).toInt ≤ 0 → ∃ t : State, exec .ppsMissing s = .next t ∧
       t.rd .sender Reg.TIME_PPS_EXP = exp + 1000000000 ∧ (free → t.pendBit .sender Ev.PPS_MISSING = true)) ∧
     (src ≠ 1 ∨ 0 < (exp + win - cap).toInt → exec .ppsMissing s = .next s) ∧
     (bit (s.rd .sender Reg.TIME_STAT) 4 = true → ∃ t : State, exec .refLost s = .next t ∧
       bit (t.rd .sender Reg.TIME_STAT) 4 = false ∧ (free → t.pendBit .sender Ev.REF_LOST = true)) ∧
     (∃ t : State, exec .refResume s = .next t ∧ bit (t.rd .sender Reg.TIME_STAT) 4 = true)) ∧
  ((∀ (j : Fin 4) (s : State), s.alive .sender = true → j.val < s.snd.phSeen.length →
     let st := s.fldOf .sender (Reg.TIME_PH_STAT j.val) 1 0
     let en := bit (s.rd .sender (Reg.TIME_PH_CFG j.val)) 31
     (s.tooEarly j.val (s.wall .sender) = true → exec (.phaseEdge j) s = .next s) ∧
     (s.tooEarly j.val (s.wall .sender) = false → en = false → ∃ t : State, exec (.phaseEdge j) s = .next t ∧
       t.rd .sender (Reg.TIME_PH_CAP j.val) = s.wall .sender ∧ t.snd.phSeen.getD j.val false = true ∧
       (s.snd.winDue = [] → ∀ q a, q ≠ .sender ∨ a ≠ Reg.TIME_PH_CAP j.val → t.rd q a = s.rd q a)) ∧
     (s.tooEarly j.val (s.wall .sender) = false → en = true → s.schedOn .sender = false → st = 3 →
       ∃ t : State, exec (.phaseEdge j) s = .next t ∧ t.rd .sender (Reg.TIME_PH_CAP j.val) = s.wall .sender ∧
         t.fldOf .sender (Reg.TIME_PH_STAT j.val) 1 0 = 1 ∧
         (s.tapTakes .sender = false → t.pendBit .sender (Ev.PHASE_STATE j.val) = true)) ∧
     let silent := 2 * s.fldOf .sender (Reg.TIME_PH_CFG j.val) 19 16 * ((s.rd .sender Reg.TIME_FRM_PER).toNat * 2 ^ 32 +
       (s.rd .sender Reg.TIME_FRM_PERF).toNat) ≤ (s.elapsed .sender - s.snd.phAt.getD j.val 0) * 2 ^ 32
     (st = 1 ∨ st = 2 → silent → ∃ t : State, exec (.phaseLost j) s = .next t ∧
       t.fldOf .sender (Reg.TIME_PH_STAT j.val) 1 0 = 3 ∧
       (s.tapTakes .sender = false → t.pendBit .sender (Ev.PHASE_STATE j.val) = true)) ∧
     (st = 0 ∨ st = 3 ∨ ¬ silent → exec (.phaseLost j) s = .next s)) ∧
   (∀ (k : Fin 16) (pkt : Packet) (s : State), SenderTakes k.val pkt s → Pkt.type pkt = 2 →
     let mine := s.fldOf .sender Reg.TIME_CTRL 1 0 = 2 ∧ s.fldOf .sender Reg.TIME_CTRL 11 8 = k.val
     (mine → ∃ t : State, exec (.crossLinkSync k pkt) s = .next t ∧
       ∀ i, i < Pkt.kind pkt → t.rd .sender (Reg.TIME_SLOT_CUR i) =
         Pkt.w pkt (4 + 2 * i) - s.baseOf .sender (Pkt.w pkt 2)) ∧
     (¬ mine → exec (.crossLinkSync k pkt) s = .next s)))

/-- R149 to R152: a write of `TIME_SRV_OFS` with SRC 0 is a servo sample. Its products are rounded to the nearest, I
and y are clamped to ±`TIME_RATE_MAX`, and FREE and HOLDOVER lead to ACQUIRE; a sample above `TIME_STEP_THR` steps
the count by −e where a step is allowed, and the loop then takes 0, and elsewhere raises TIME_STEP_BLOCKED. R152: a
change of SRC to 3 leads ACQUIRE and LOCKED to HOLDOVER, where y = −I; another change leads LOCKED to ACQUIRE; a
source that has given no sample for `TIME_HOLD_TO` ms leads ACQUIRE and LOCKED to HOLDOVER too. Each change of state
raises TIME_STATE. -/
def Obligations.Servo : Prop :=
  (∀ (v : Word) (s : State), s.alive .sender = true →
     let e := v.toInt
     let thr := (s.rd .sender Reg.TIME_STEP_THR).toNat
     let big := thr < e.natAbs
     let lim : Int := (s.rd .sender Reg.TIME_RATE_MAX).toNat % 2 ^ 24
     let x := if big ∧ s.stepAllowed = true then 0 else e
     let mul := fun (k : Word) => (((k.toNat % 2 ^ 24 : Nat) : Int) * x + 128) / 256
     let i := max (-lim) (min ((s.rd .sender Reg.TIME_INTEG).toInt + mul (s.rd .sender Reg.TIME_KI)) lim)
     let y := max (-lim) (min (-(mul (s.rd .sender Reg.TIME_KP) + i)) lim)
     let st := s.fldOf .sender Reg.TIME_STAT 2 0
     (s.fldOf .sender Reg.TIME_CTRL 1 0 = 0 → ∃ t : State, exec (.timeSrvOfsWrite v) s = .next t ∧
       t.rd .sender Reg.TIME_INTEG = BitVec.ofInt 32 i ∧ t.rd .sender Reg.TIME_RATE = BitVec.ofInt 32 y ∧
       t.rd .sender Reg.TIME_LAST_OFS = v ∧
       (st = 0 ∨ st = 3 → t.fldOf .sender Reg.TIME_STAT 2 0 = 1) ∧
       (st = 1 → 15 ≤ s.snd.lockRun → e.natAbs ≤ (s.rd .sender Reg.TIME_LOCK_THR).toNat →
         t.fldOf .sender Reg.TIME_STAT 2 0 = 2) ∧
       (st = 2 → 4 * (s.rd .sender Reg.TIME_LOCK_THR).toNat < e.natAbs → t.fldOf .sender Reg.TIME_STAT 2 0 = 1) ∧
       (big → s.stepAllowed = true → (t.sender.count : Int) = (s.sender.count - e * 2 ^ 32) % 2 ^ 96 ∧
         (s.tapTakes .sender = false → t.pendBit .sender Ev.TIME_STEP = true)) ∧
       (big → s.stepAllowed = false → t.sender.count = s.sender.count ∧
         (s.tapTakes .sender = false → t.pendBit .sender Ev.TIME_STEP_BLOCKED = true)) ∧
       (¬ big → t.sender.count = s.sender.count)) ∧
     (s.fldOf .sender Reg.TIME_CTRL 1 0 ≠ 0 → exec (.timeSrvOfsWrite v) s = .next s)) ∧
  (∀ (src : BitVec 2) (s : State), s.alive .sender = true →
     let old := s.fldOf .sender Reg.TIME_CTRL 1 0
     let st := s.fldOf .sender Reg.TIME_STAT 2 0
     let held := fun (t : State) => t.fldOf .sender Reg.TIME_STAT 2 0 = 3 ∧
       t.rd .sender Reg.TIME_RATE = -(s.rd .sender Reg.TIME_INTEG) ∧
       (s.tapTakes .sender = false → t.pendBit .sender Ev.TIME_STATE = true)
     (∃ t : State, exec (.timeSrcChange src) s = .next t ∧ t.fldOf .sender Reg.TIME_CTRL 1 0 = src.toNat ∧
       (src.toNat ≠ old → src = 3 → st = 1 ∨ st = 2 → held t) ∧
       (src.toNat ≠ old → src ≠ 3 → st = 2 → t.fldOf .sender Reg.TIME_STAT 2 0 = 1 ∧
         (s.tapTakes .sender = false → t.pendBit .sender Ev.TIME_STATE = true)) ∧
       (src.toNat = old ∨ st = 0 ∨ st = 3 → t.fldOf .sender Reg.TIME_STAT 2 0 = st)) ∧
     let silent := s.snd.sampleAt + 1000000 * (s.rd .sender Reg.TIME_HOLD_TO).toNat ≤ s.elapsed .sender
     (st = 1 ∨ st = 2 → silent → ∃ t : State, exec .servoHoldover s = .next t ∧ held t) ∧
     ((st ≠ 1 ∧ st ≠ 2) ∨ ¬ silent → exec .servoHoldover s = .next s))

/-- R156 to R158, R170: TIME goes out of every ACTIVE chain port with the sender's wall time and rate. The tile
takes the rate of a TIME packet from its source, slews half its error away, or steps the count above
`TIME_STEP_THR`; every TIME goes onward as the tile's own; the sender takes a sample only from its source port, of a
peer whose time is not FREE. A source that has sent nothing for 4 × `TIME_TXINT` is lost: the tile goes to HOLD, and
either part raises TIME_SRC_LOST. R155: a PROBE leaves with its identifier and its send time is kept; one that
arrives is answered by an ECHO with the turnaround time; an ECHO of the probe under way adds a result, of which the
last 16 give `TIME_HOP`. -/
def Obligations.TimeOnTheChain : Prop :=
  ((∀ s : State, s.alive .sender = true →
     ∃ t : State, exec .timeTx s = .next t ∧
       t.out = s.out ++ (List.finRange 16).filterMap (fun k =>
         if s.txActive .sender k.val = true then
           some (.packet (.chain k) (mkPacket 5 0x7F 0 0x7E 0 [s.wall .sender, s.rateWord,
             BitVec.ofNat 32 (letterBit s.letter * 2 ^ 31 +
               (decide (s.fldOf .sender Reg.TIME_STAT 2 0 = 0)).toNat * 2 ^ 30)]))
         else none) ∧
       (bit (s.rd .sender Reg.LNK_SSC) 31 = false → s.rateWord = s.rd .sender Reg.TIME_RATE)) ∧
   (∀ (port : LnkPort) (pkt : Packet) (s : State), port.part = .tile → TileTakes port.idx pkt s →
     Pkt.is pkt 5 0 = true →
     let l := letterOf (Pkt.w pkt 4)
     let e := s.timeError .tile port.idx (Pkt.w pkt 2)
     let big := ((s.rd .tile Reg.TIME_STEP_THR).toNat : Int) * (1000 * 2 ^ 32) < e.natAbs
     (l = s.followed → portToward l = port.idx → ∃ t : State, exec (.timeRxTile port pkt) s = .next t ∧
       t.rd .tile Reg.TIME_RATE = Pkt.w pkt 3 ∧ t.til.timeTaken = true ∧
       t.rd .tile Reg.TIME_LAST_OFS = BitVec.ofInt 32 (openDiv 1 e (1000 * 2 ^ 32)) ∧
       (¬ big → t.tile.count = s.tile.count ∧ t.til.slew = openDiv 2 e 1000 / 2 ∧
         t.til.slewLeft = 500 * (s.rd .tile Reg.TIME_TXINT).toNat) ∧
       (big → (t.tile.count : Int) = (s.tile.count - openDiv 2 e 1000) % 2 ^ 64 ∧
         (s.tapTakes .tile = false → t.pendBit .tile Ev.TIME_STEP = true))) ∧
     (l ≠ s.followed ∨ portToward l ≠ port.idx → exec (.timeRxTile port pkt) s = .next ((s.heard port.idx pkt).timeOnward port.idx pkt))) ∧
   (∀ (k : Fin 16) (pkt : Packet) (s : State), SenderTakes k.val pkt s → Pkt.is pkt 5 0 = true →
     let mine := s.fldOf .sender Reg.TIME_CTRL 1 0 = 2 ∧ s.fldOf .sender Reg.TIME_CTRL 11 8 = k.val
     let u := s.updSnd fun t => { t with linkAt := some (s.elapsed .sender) }
     (mine → bit (Pkt.w pkt 4) 30 = true → exec (.timeRxSender k pkt) s = .next u) ∧
     (mine → bit (Pkt.w pkt 4) 30 = false → exec (.timeRxSender k pkt) s =
       .next (u.servoSample (openDiv 4 (s.timeError .sender k.val (Pkt.w pkt 2)) (1000 * 2 ^ 32)) [])) ∧
     (¬ mine → exec (.timeRxSender k pkt) s = .next s)) ∧
   (∀ s : State,
     let tile := s.alive .tile = true ∧ s.til.timeTaken = true ∧ s.fldOf .tile Reg.TIME_STAT 2 0 ≠ 2 ∧
       s.til.timeAt + 4000 * (s.rd .tile Reg.TIME_TXINT).toNat ≤ s.elapsed .tile
     let link := s.alive .sender = true ∧ s.fldOf .sender Reg.TIME_CTRL 1 0 = 2 ∧ ∃ x, s.snd.linkAt = some x ∧
       x + 4000 * (s.rd .sender Reg.TIME_TXINT).toNat ≤ s.elapsed .sender
     (tile → ∃ t : State, exec .timeSrcLost s = .next t ∧
       t.fldOf .tile Reg.TIME_STAT 2 0 = 2 ∧ (s.tapTakes .tile = false → t.pendBit .tile Ev.TIME_SRC_LOST = true ∧
         t.pendBit .tile Ev.TIME_STATE = true)) ∧
     (link → ∃ t : State, exec .timeSrcLost s = .next t ∧ t.snd.linkAt = none ∧
       (s.tapTakes .sender = false → t.pendBit .sender Ev.TIME_SRC_LOST = true)) ∧
     (¬ tile → ¬ link → exec .timeSrcLost s = .next s))) ∧
  (∀ (port : LnkPort) (id turn : Word) (t1 t4 : BitVec 64) (pkt : Packet) (s : State),
     let p := port.part
     let i := port.idx
     (s.alive p = true → s.fldOf p (Reg.LNK_STAT i) 31 29 = 4 → i < (s.chip p).ports.length →
       ∃ t : State, exec (.probeSend port id t1) s = .next t ∧ (t.port p i).probe = some (id, t1.toNat) ∧
         t.out = s.out ++ [.packet port (mkPacket 5 0x7F 0 (s.srcOf p) 0x10000000 [id])]) ∧
     ((p = .tile ∧ TileTakes i pkt s ∨ p = .sender ∧ SenderTakes i pkt s) →
       (Pkt.is pkt 5 1 = true → s.fldOf p (Reg.LNK_STAT i) 31 29 = 4 → exec (.probe port pkt turn) s =
         .next ((s.came port pkt).emit (.packet port (mkPacket 5 0x7F 0 (s.srcOf p) 0x20000000 [Pkt.w pkt 2, turn])))) ∧
       (Pkt.is pkt 5 2 = true →
         (∀ x, (s.port p i).probe = some (Pkt.w pkt 2, x) → s.fldOf p (Reg.LNK_STAT i) 31 29 = 5 →
           i < (s.chip p).ports.length →
           let hops := ((t4.toNat - x - (Pkt.w pkt 3).toNat) :: (s.port p i).hops).take 16
           ∃ t : State, exec (.echo port pkt t4) s = .next t ∧ (t.port p i).hops = hops ∧
             t.fldOf p (Reg.TIME_HOP i) 23 0 = (hopMean hops).toNat % 2 ^ 24 ∧ (t.port p i).probe = none) ∧
         ((s.port p i).probe = none → exec (.echo port pkt t4) s = .next (s.came port pkt)))))

/-- R160, R162: when the next frame origin is reached, `TIME_FRM_NUM` takes its number and FRAME_ORIGIN is raised;
before, nothing happens. When the next latch point is reached, FRAME_LATCH is raised with the events of what the
latch point does; before, nothing happens. R160: the base of a frame is START plus the frames since SNUM times the
period, rounded to the nearest nanosecond with halves upward; the next frame's base follows within one nanosecond of
the period. -/
def Obligations.FrameScheduleAndBase : Prop :=
  ((∀ (p : Sys2Proof.Part) (s : State), s.alive p = true →
     let n := (s.chip p).nextOrigin
     let o := (s.originPair p n).2
     (s.schedOn p = true → (o - s.wall p).toInt ≤ 0 → ∃ t : State, exec (.frameOrigin p) s = .next t ∧
       t.rd p Reg.TIME_FRM_NUM = n ∧ t.rd p Reg.TIME_FRM_ORIGIN = o ∧ (t.chip p).nextOrigin = n + 1 ∧
       (s.tapTakes p = false → t.pendBit p Ev.FRAME_ORIGIN = true)) ∧
     (s.schedOn p = false ∨ 0 < (o - s.wall p).toInt → exec (.frameOrigin p) s = .next s)) ∧
   (∀ s : State, s.alive .sender = true →
     let n := s.sender.nextLatch
     let at' := s.senderLatch n
     (s.schedOn .sender = true → (at' - s.wall .sender).toInt ≤ 0 → ∃ t evs, s.senderLatchPoint n = (t, evs) ∧
       exec .frameLatch s = .next (t.raiseAll .sender ((Ev.FRAME_LATCH, 0) :: evs))) ∧
     (s.schedOn .sender = false ∨ 0 < (at' - s.wall .sender).toInt → exec .frameLatch s = .next s)) ∧
   (∀ s : State, s.alive .tile = true →
     let n := s.tile.nextLatch
     let at' := s.tileLatch n
     (s.schedOn .tile = true → (at' - s.wall .tile).toInt ≤ 0 → ∃ t evs, s.tileLatchPoint n = (t, evs) ∧
       exec .tileLatchPoint s = .next (t.raiseAll .tile ((Ev.FRAME_LATCH, 0) :: evs))) ∧
     (s.schedOn .tile = false ∨ 0 < (at' - s.wall .tile).toInt → exec .tileLatchPoint s = .next s))) ∧
  (∀ (p : Sys2Proof.Part) (n : Word) (s : State),
     let per : Int := (s.rd p Reg.TIME_FRM_PER).toNat * 2 ^ 32 + (s.rd p Reg.TIME_FRM_PERF).toNat
     let k := (n - s.rd p Reg.TIME_FRM_SNUM).toInt
     s.baseOf p n = s.rd p Reg.TIME_FRM_START + BitVec.ofInt 32 ((k * per + 2 ^ 31) / 2 ^ 32) ∧
     (k < 2 ^ 31 - 1 → ∃ g : Int, s.baseOf p (n + 1) = s.baseOf p n + BitVec.ofInt 32 g ∧
       (g = per / 2 ^ 32 ∨ g = per / 2 ^ 32 + 1)))

/-- R112 to R115, R119: the link of a port follows its conditions, and a change raises NET_LINK; a frame that is too
short, too long, damaged, a pause frame or for another station counts in its own counter and goes no further, but
for the buffers of its ring that a damaged one has filled (R139); one that R124 sends to a ring with room fills its
buffers, moves HEAD, counts and raises RING_READY; RS-FEC errors are counted. While its link is down a port sends
remote fault for a local fault, else idles. While the port is not enabled, or its link is down, no frame does
anything. R130 to R132: an open frame whose merge time has run out closes: it becomes the latest, with its
timestamp, buffer and wall time, counts, and raises FLOW_FRAME; a path that has had no packet for its time-out is no
longer live, and FLOW_PATH is raised. Before, nothing happens. -/
def Obligations.NetReceiveAndTimeouts : Prop :=
  (∀ (i : Fin 4) (s : State), s.alive .sender = true →
     let on := s.bitOf .sender (Reg.NET_CTRL i.val) 0
     let cnt := fun (j : Nat) => s.rd .sender (Reg.NET_CNT i.val j)
     let drc := fun (a : Nat) => a = Reg.DRC_PORT_UNITS 6 ∨
       ∃ c, c < 8 ∧ (a = Reg.DRC_PAGE_HIT c ∨ a = Reg.DRC_PAGE_MISS c)
     let only := fun (j : Nat) (t : State) => t.rd .sender (Reg.NET_CNT i.val j) = cnt j + 1 ∧ t.snd.dram = s.snd.dram ∧
       t.snd.flows = s.snd.flows ∧ ∀ q a, q ≠ .sender ∨ (calmReg a = true ∧ a ≠ Reg.NET_CNT i.val j ∧
         a ≠ Reg.NET_HALF0 i.val) → t.rd q a = s.rd q a
     (∀ (lanes : BitVec 4) (align fec hiBer lf rf inRx : Bool),
       let up := decide (lanes = 15) && align && fec && !hiBer && !lf && !rf
       let was := s.rd .sender (Reg.NET_STAT i.val)
       (on = true → ∃ t : State, exec (.netLink i lanes align fec hiBer lf rf inRx) s = .next t ∧
         t.rd .sender (Reg.NET_STAT i.val) = BitVec.ofNat 32 (rf.toNat * 1024 + lf.toNat * 512 + hiBer.toNat * 256 +
           lanes.toNat * 16 + align.toNat * 2 + up.toNat) ∧
         (s.tapTakes .sender = false → bit was 0 ≠ up → t.pendBit .sender (Ev.NET_LINK i.val) = true) ∧
         (up = true → ∃ l : List Nat, t.out = s.out ++ l.map Output.msix) ∧
         (up = false → ∃ l : List Nat, t.out = s.out ++ .netFill i.val lf :: l.map Output.msix) ∧
         (s.tapTakes .sender = false → hiBer = true → bit was 8 = false → t.pendBit .sender (Ev.NET_RX_ERR i.val) = true) ∧
         t.rd .sender (Reg.NET_CNT i.val 16) = (if bit was 0 = true ∧ up = false ∧ inRx = true then cnt 16 + 1 else cnt 16)) ∧
       (on = false → exec (.netLink i lanes align fec hiBer lf rf inRx) s = .next s)) ∧
     (∀ (fr : List Byte) (fcs : Bool) (lag : Word),
       let len := fr.length + 4
       let counts := fun (j : Nat) => ∃ t : State, exec (.netRxFrame i fr fcs lag) s = .next t ∧ only j t
       let bad := fun (j : Nat) => ∃ t : State, exec (.netRxFrame i fr fcs lag) s = .next t ∧
         t.rd .sender (Reg.NET_CNT i.val j) = cnt j + 1 ∧ t.snd.flows = s.snd.flows ∧
         (∀ q a, q ≠ .sender ∨ (calmReg a = true ∧ a ≠ Reg.NET_CNT i.val j ∧ a ≠ Reg.NET_HALF0 i.val ∧ ¬ drc a) →
           t.rd q a = s.rd q a) ∧
         (s.netTakes i.val fr = false ∨ (s.flowMatch i.val fr).isSome = true ∨ s.ringOf i.val fr = none →
           t.snd.dram = s.snd.dram)
       let whole := 64 ≤ len ∧ len ≤ s.maxLen i.val
       let good := whole ∧ fcs = true ∧ Fr.type fr ≠ 0x8808
       let own := Fr.group fr = true ∨ Fr.dst fr = s.netMac i.val
       (s.netUp i.val = false → exec (.netRxFrame i fr fcs lag) s = .next s) ∧
       (s.netUp i.val = true →
         (len < 64 → bad (if fcs = true then 17 else 18)) ∧
         (64 ≤ len → s.maxLen i.val < len → bad (if fcs = true then 19 else 20)) ∧
         (whole → fcs = false → bad 16) ∧
         (whole → fcs = true → Fr.type fr = 0x8808 → counts 15) ∧
         (good → ¬ own → ∃ t : State, exec (.netRxFrame i fr fcs lag) s = .next t ∧
           t.rd .sender (Reg.NET_CNT i.val 24) = cnt 24 + 1 ∧ t.rd .sender (Reg.NET_CNT i.val 0) = cnt 0 + 1 ∧
           t.rd .sender (Reg.NET_CNT i.val 1) = cnt 1 + BitVec.ofNat 32 len ∧ t.snd.dram = s.snd.dram ∧
           t.snd.flows = s.snd.flows) ∧
         (∀ e, good → own → s.flowMatch i.val fr = none → (List.range 32).find? (fun e => s.filterHit i.val fr e) = some e →
           let r := s.fldOf .sender (Reg.FLOW_RF e) 21 16
           let c := s.rd .sender (Reg.RING_CFG r)
           let m := 2 ^ fld c 3 0
           let head := s.fldOf .sender (Reg.RING_HEAD r) 11 0 % m
           let free := (s.fldOf .sender (Reg.RING_TAIL r) 11 0 + m - head) % m
           let need := (fr.length + 64 * fld c 15 8 - 1) / (64 * fld c 15 8)
           s.ringOn r = true → need ≤ free → need ≤ fld c 27 24 + 1 →
           ∃ t : State, exec (.netRxFrame i fr fcs lag) s = .next t ∧
             t.rd .sender (Reg.RING_HEAD r) = BitVec.ofNat 32 ((head + need) % m) ∧
             t.rd .sender (Reg.RING_CNT r 0) = s.rd .sender (Reg.RING_CNT r 0) + 1 ∧
             (s.tapTakes .sender = false → t.pendBit .sender (Ev.RING_READY r) = true)))) ∧
     (on = true → (∃ t : State, exec (.rsFecCodeword i .corrected) s = .next t ∧ only 22 t) ∧
       (∃ t : State, exec (.rsFecCodeword i .badBlock) s = .next t ∧ only 21 t) ∧
       (∃ t : State, exec (.rsFecCodeword i .uncorrectable) s = .next t ∧ only 23 t ∧
         (s.tapTakes .sender = false → t.pendBit .sender (Ev.NET_RX_ERR i.val) = true))) ∧
     (on = false → ∀ e, exec (.rsFecCodeword i e) s = .next s)) ∧
  (∀ (f : Fin 16) (two : Bool) (s : State), s.alive .sender = true → s.snd.flows.length = 16 →
     let last := if two = true then (s.flow f.val).at2 else (s.flow f.val).at1
     let due := last + BitVec.ofNat 32 (1000 * s.fldOf .sender (Reg.FLOW_MERGE f.val) 31 16)
     (s.mergeDue f.val = none → exec (.flowMergeTimeout f) s = .next s) ∧
     (∀ o, s.mergeDue f.val = some o → ∃ t : State, exec (.flowMergeTimeout f) s = .next t ∧
       t.rd .sender (Reg.FLOW_LATEST_TS f.val) = o.ts ∧ t.rd .sender (Reg.FLOW_LATEST_WT f.val) = s.wall .sender ∧
       t.fldOf .sender (Reg.FLOW_STAT f.val) 19 16 = o.buf % 16 ∧
       bit (t.rd .sender (Reg.FLOW_LATEST_STALE f.val)) 31 = true ∧
       t.rd .sender (Reg.FLOW_CNT f.val 6) = s.rd .sender (Reg.FLOW_CNT f.val 6) + 1 ∧
       (t.flow f.val).frames = (s.flow f.val).frames.filter (fun x => x.ts ≠ o.ts) ∧
       (∀ g, g ≠ f.val → t.flow g = s.flow g) ∧
       (s.tapTakes .sender = false → t.pendBit .sender (Ev.FLOW_FRAME f.val) = true)) ∧
     (s.live f.val two = true → (due - s.wall .sender).toInt ≤ 0 →
       ∃ t : State, exec (.flowPathTimeout f two) s = .next t ∧ t.live f.val two = false ∧
         t.live f.val (!two) = s.live f.val (!two) ∧
         (s.tapTakes .sender = false → t.pendBit .sender (Ev.FLOW_PATH f.val) = true)) ∧
     (s.live f.val two = false ∨ 0 < (due - s.wall .sender).toInt → exec (.flowPathTimeout f two) s = .next s))

/-- R116, R117, R121, R136, R138: the ring indices that software writes; a snapshot copies the counters and clears
them; of the transmit rings with a frame waiting TXR0 goes first, and TXR1 after a preview packet that is due; a
frame above the limit is refused, and another leaves padded to 60 bytes, with a bad FCS where it is poisoned. -/
def Obligations.NetTransmitAndSnapshots : Prop :=
  ∀ s : State, s.alive .sender = true →
    (∀ (r : Fin 64) (v : Word), exec (.ringTailWrite r v) s = .next (s.wr .sender (Reg.RING_TAIL r.val) (v &&& 0xFFF))) ∧
    (∀ (i : Fin 4) (k : Fin 2) (v : Word),
      exec (.netTxrTailWrite i k v) s = .next (s.wr .sender (Reg.NET_TXR_TAIL i.val k.val) (v &&& 0xFFF))) ∧
    (∀ i : Fin 4, ∃ t : State, exec (.netSnap i) s = .next t ∧
      (∀ j, j < 64 → t.rd .sender (Reg.NET_SNAPV i.val j) = s.rd .sender (Reg.NET_CNT i.val j) ∧
        t.rd .sender (Reg.NET_CNT i.val j) = 0) ∧
      t.rd .sender (Reg.NET_SNAP_GEN i.val) = s.rd .sender (Reg.NET_SNAP_GEN i.val) + 1 ∧
      (s.tapTakes .sender = false → t.pendBit .sender (Ev.NET_SNAP_DONE i.val) = true)) ∧
    (∃ t : State, exec .flowSnap s = .next t ∧
      (∀ j, j < 512 → t.rd .sender (0x95000 + 4 * j) = s.rd .sender (0x94000 + 4 * j) ∧
        t.rd .sender (0x94000 + 4 * j) = 0) ∧
      (∀ q a, q ≠ .sender ∨ a < 0x94000 ∨ 0x95800 ≤ a → t.rd q a = s.rd q a)) ∧
    (∀ (i : Fin 4) (bad : Bool) (lag : Word),
      (s.netUp i.val = false ∨ (s.txWaits i.val 0 = false ∧ s.txWaits i.val 1 = false ∧ s.pvDue i.val = none) →
        exec (.txFrameSent i bad lag) s = .next s) ∧
      (∀ k : Fin 2, s.netUp i.val = true → s.txWaits i.val k.val = true → (k = 1 → s.txWaits i.val 0 = false ∧ s.pvDue i.val = none) →
        let m := 2 ^ fld (s.rd .sender (Reg.NET_TXR_CFG i.val k.val)) 3 0
        let head := s.fldOf .sender (Reg.NET_TXR_HEAD i.val k.val) 11 0 % m
        let d := 16 * (s.rd .sender (Reg.NET_TXR_BASE i.val k.val)).toNat + 16 * head
        let len := fld (s.fmWord (d + 4)) 13 0
        let moves := fun (t : State) => t.rd .sender (Reg.NET_TXR_HEAD i.val k.val) = BitVec.ofNat 32 ((head + 1) % m)
        (s.maxLen i.val - 4 < len → ∃ t : State, exec (.txFrameSent i bad lag) s = .next t ∧ moves t ∧
          t.rd .sender (Reg.NET_CNT i.val 47) = s.rd .sender (Reg.NET_CNT i.val 47) + 1 ∧
          ∃ l : List Nat, t.out = s.out ++ l.map Output.msix) ∧
        (len ≤ s.maxLen i.val - 4 → ∃ t : State, exec (.txFrameSent i bad lag) s = .next t ∧ moves t ∧
          (bad = true → t.rd .sender (Reg.NET_CNT i.val 47) = s.rd .sender (Reg.NET_CNT i.val 47) + 1) ∧
          (bad = false → t.rd .sender (Reg.NET_CNT i.val 32) = s.rd .sender (Reg.NET_CNT i.val 32) + 1) ∧
          ∃ l : List Nat, t.out = s.out ++ .frame i.val (State.fmBytes (16 * (s.fmWord d).toNat) s len ++
            List.replicate (60 - len) 0) bad :: l.map Output.msix)))

/-- R172, R174 to R177, R179: enabling starts training, which clears READY and leaves the contents open; a channel
whose four eyes are found passes, and the last one raises DRC_READY; a third failed attempt fails the channel. An
eye is the longest run of passing taps, at least 16. Disabling empties every queue. `DRC_CFG` can be written only
while EN is 0. A read-eye check moves each lane's centre by at most one tap toward the middle. -/
def Obligations.DramTraining : Prop :=
  (∀ s : State, s.alive .sender = true →
    let ctrl := s.rd .sender Reg.DRC_CTRL
    (s.dramReady = false → ∃ t : State, exec .drcEnable s = .next t ∧ t.rd .sender Reg.DRC_CTRL = (ctrl ||| 1) &&& 3 ∧
      t.rd .sender Reg.DRC_STAT = 0 ∧ t.installed = 0 ∧ t.snd.dram.mem = [] ∧ t.snd.dram.fill = none ∧
      t.snd.dram.epoch = s.snd.dram.epoch + 1 ∧
      (∀ i, i < 8 → t.rd .sender (Reg.DRC_CH_STAT i) = s.rd .sender (Reg.DRC_CH_STAT i) &&& 0x00FFFFFF)) ∧
    (s.dramReady = true → exec .drcEnable s = .next (s.wr .sender Reg.DRC_CTRL ((ctrl ||| 1) &&& 3))) ∧
    (bit ctrl 0 = true → ∃ t : State, exec .drcDisable s = .next t ∧ t.rd .sender Reg.DRC_CTRL = ctrl &&& 2 ∧
      t.dramReady = false ∧ t.fldOf .sender Reg.DRC_STAT 15 8 = 0 ∧
      (∀ c ∈ t.snd.dram.chans, c.wq = [] ∧ c.stalled = [] ∧ c.reads = [] ∧ c.flight = []) ∧ t.snd.dram.behind = [] ∧
      (∀ i, i < 8 → bit (t.rd .sender (Reg.DRC_CH_STAT i)) 31 = false)) ∧
    (bit ctrl 0 = false → exec .drcDisable s = .next (s.wr .sender Reg.DRC_CTRL (ctrl &&& 2))) ∧
    (∀ v : Word, (bit ctrl 0 = true → ∃ t : State, exec (.drcCfgWrite v) s = .next t ∧
        Raises .sender [Ev.DRC_CFG_DENIED] s t) ∧
      (bit ctrl 0 = false → exec (.drcCfgWrite v) s = .next (s.wr .sender Reg.DRC_CFG (v &&& 0x3137))))) ∧
  (∀ (ch : Fin 8) (r0 r1 w0 w1 : BitVec 256) (s : State), s.alive .sender = true →
    let n := s.fldOf .sender (Reg.DRC_CH_STAT ch.val) 27 24
    let st := fun (t : State) => t.rd .sender (Reg.DRC_CH_STAT ch.val)
    (s.training ch.val = false → exec (.drcTrainAttemptEnd ch r0 r1 w0 w1) s = .next s) ∧
    (∀ a b c d, s.training ch.val = true → eyeOf r0 = some a → eyeOf r1 = some b → eyeOf w0 = some c → eyeOf w1 = some d →
      ∃ t : State, exec (.drcTrainAttemptEnd ch r0 r1 w0 w1) s = .next t ∧ bit (st t) 31 = true ∧
        t.rd .sender (Reg.DRC_TRN_RD ch.val 0) = eyeWord a ∧ t.rd .sender (Reg.DRC_TRN_RD ch.val 1) = eyeWord b ∧
        t.rd .sender (Reg.DRC_TRN_WR ch.val 0) = eyeWord c ∧ t.rd .sender (Reg.DRC_TRN_WR ch.val 1) = eyeWord d ∧
        bit (t.rd .sender Reg.DRC_STAT) (8 + ch.val) = true ∧
        ((∀ i, i < 8 → i ≠ ch.val → bit (s.rd .sender Reg.DRC_STAT) (8 + i) = true) → t.dramReady = true ∧
          (s.tapTakes .sender = false → t.pendBit .sender Ev.DRC_READY = true))) ∧
    (s.training ch.val = true → (eyeOf r0 = none ∨ eyeOf r1 = none ∨ eyeOf w0 = none ∨ eyeOf w1 = none) →
      ∃ t : State, exec (.drcTrainAttemptEnd ch r0 r1 w0 w1) s = .next t ∧ bit (st t) 31 = false ∧
        fld (st t) 27 24 = (n + 1) % 16 ∧ t.dramReady = false ∧
        (n < 2 → bit (st t) 30 = false) ∧ (2 ≤ n → bit (st t) 30 = true ∧
          bit (t.rd .sender Reg.DRC_STAT) (16 + ch.val) = true ∧
          (s.tapTakes .sender = false → t.pendBit .sender Ev.DRC_TRAIN_FAIL = true)))) ∧
  (∀ (m : BitVec 256) (a b c : Nat), eyeOf m = some (a, b, c) → b < 256 ∧ a + 15 ≤ b ∧ c = (a + b) / 2 ∧
    (∀ k, a ≤ k → k ≤ b → m.getLsbD k = true) ∧
    (∀ x n, (∀ k, k < n → x + k < 256 ∧ m.getLsbD (x + k) = true) → n ≤ b + 1 - a)) ∧
  (∀ (ch : Fin 8) (m0 m1 : BitVec 9) (s : State), s.alive .sender = true →
    let on := s.dramReady = true ∧ bit (s.rd .sender Reg.DRC_CTRL) 1 = true
    let c := fun (l : Nat) => s.fldOf .sender (Reg.DRC_TRK ch.val) (8 * l + 7) (8 * l)
    let moved := fun (m : BitVec 9) (c : Nat) => if trackMid m < 4 then c - 1 else if 4 < trackMid m then min 255 (c + 1) else c
    let far := fun (l x : Nat) => 8 < ((x : Int) - (s.fldOf .sender (Reg.DRC_TRN_RD ch.val l) 7 0 : Nat)).natAbs
    (¬ on → exec (.drcTrack ch m0 m1) s = .next s) ∧
    (on → ∃ t : State, exec (.drcTrack ch m0 m1) s = .next t ∧
      t.fldOf .sender (Reg.DRC_TRK ch.val) 7 0 = moved m0 (c 0) ∧ t.fldOf .sender (Reg.DRC_TRK ch.val) 15 8 = moved m1 (c 1) ∧
      (∀ q a, q ≠ .sender ∨ (calmReg a = true ∧ a ≠ Reg.DRC_TRK ch.val) → t.rd q a = s.rd q a) ∧
      (s.tapTakes .sender = false → (far 0 (moved m0 (c 0)) ∧ ¬ far 0 (c 0)) ∨ (far 1 (moved m1 (c 1)) ∧ ¬ far 1 (c 1)) →
        t.pendBit .sender (Ev.DRC_DRIFT ch.val) = true)))

/-- R186 to R188, R193, R196: an MR4 poll keeps the code and raises the multiplier at once; a refresh that falls due
while a request of urgency 3 waits is postponed, up to 8, and otherwise closes its bank's page and those postponed;
a bandwidth window, which ends at a latch point, or after a millisecond while no schedule runs, reports its average
to one MB/s; FILL makes every installed byte the pattern, CHECK names the first unit that is not, and nothing is
written while BUSY is 1. -/
def Obligations.DramUpkeep : Prop :=
  (∀ (ch : Fin 8) (code : BitVec 3) (m : Fin 3) (hot : Bool) (wrEcc : Word) (bank : Fin 32) (s : State),
    s.alive .sender = true → s.snd.dram.chans.length = 8 →
    let need := if hot = true then 2 else m.val
    let post := (s.dch ch.val).postponed
    (s.dramReady = false → exec (.drcMr4Poll ch code m hot wrEcc) s = .next s ∧ exec (.drcRefresh ch bank) s = .next s) ∧
    (s.dramReady = true →
      (∃ t : State, exec (.drcMr4Poll ch code m hot wrEcc) s = .next t ∧
        t.fldOf .sender (Reg.DRC_CH_STAT ch.val) 10 8 = code.toNat ∧
        t.rd .sender (Reg.DRC_WR_ECC ch.val) = s.rd .sender (Reg.DRC_WR_ECC ch.val) + wrEcc ∧
        (t.dch ch.val).mr4 = need ∧
        t.dramM ch.val = (if s.schedOn .sender = true then max (s.dramM ch.val) need else max s.bandMult need) ∧
        (hot = true → s.tapTakes .sender = false → t.pendBit .sender (Ev.DRC_DRAM_HOT ch.val) = true)) ∧
      (s.urgent3 ch.val = false → ∃ t : State, exec (.drcRefresh ch bank) s = .next t ∧ (t.dch ch.val).postponed = [] ∧
        (∀ r, (bank.val, r) ∉ (t.dch ch.val).pages) ∧ (∀ b ∈ post, ∀ r, (b, r) ∉ (t.dch ch.val).pages)) ∧
      (s.urgent3 ch.val = true → post.length < 8 → ∃ t : State, exec (.drcRefresh ch bank) s = .next t ∧
        (t.dch ch.val).postponed = post ++ [bank.val] ∧ (t.dch ch.val).pages = (s.dch ch.val).pages ∧
        t.fldOf .sender (Reg.DRC_REF_POST ch.val) 3 0 = post.length + 1))) ∧
  (∀ s : State, s.alive .sender = true →
    let now := s.wall .sender
    let d := s.snd.dram
    let age := (now - d.windowAt).toInt.toNat
    let reports := fun (n ns : Nat) (t : State) => ∃ avg : Nat,
      (avg = min 0xFFFFF (64000 * n / ns) ∨ avg = min 0xFFFFF (64000 * n / ns + 1)) ∧
      t.rd .sender Reg.DRC_BW_LAST = BitVec.ofNat 32 avg ∧
      t.rd .sender Reg.DRC_BW_MAX = BitVec.ofNat 32 (max avg (s.rd .sender Reg.DRC_BW_MAX).toNat) ∧
      (s.tapTakes .sender = false → s.fldOf .sender Reg.DRC_BW_LIM 19 0 < avg → t.pendBit .sender Ev.DRC_BW_OVER = true)
    (∀ n ns, d.window = some (n, ns) → ∃ t : State, exec .drcBwWindow s = .next t ∧ reports n ns t ∧
      t.snd.dram.window = none ∧ t.snd.dram.moved = d.moved ∧ t.snd.dram.windowAt = d.windowAt) ∧
    (d.window = none → s.schedOn .sender = true ∨ age < 1000000 → exec .drcBwWindow s = .next s) ∧
    (d.window = none → s.schedOn .sender = false → 1000000 ≤ age → ∃ t : State, exec .drcBwWindow s = .next t ∧
      reports d.moved age t ∧ t.snd.dram.moved = 0 ∧ t.snd.dram.windowAt = now) ∧
    (0 < age → s.bwLatch.1.snd.dram.window = some (d.moved, age) ∧ s.bwLatch.1.snd.dram.moved = 0)) ∧
  (∀ s : State, s.alive .sender = true →
    let p := s.rd .sender Reg.DRC_TEST_PAT
    let holds := fun (u : Nat) => ∀ j, j < 64 → s.fmByte (64 * u + j) = byteOf p (j % 4)
    (s.testBusy = true → exec .drcTestFill s = .next s ∧ exec .drcTestCheck s = .next s ∧
      ∃ t : State, exec .testDone s = .next t ∧ t.testBusy = false ∧
        (s.tapTakes .sender = false → t.pendBit .sender Ev.TEST_DONE = true)) ∧
    (s.testBusy = false → exec .testDone s = .next s ∧
      (s.dramReady = true → ∃ t : State, exec .drcTestFill s = .next t ∧ t.rd .sender Reg.DRC_TEST_STAT = 0x80000000 ∧
        t.installed = s.installed ∧ ∀ a, a < s.installed → t.fmByte a = byteOf p (a % 4)) ∧
      (∃ t : State, exec .drcTestCheck s = .next t ∧ (∀ a, t.fmByte a = s.fmByte a) ∧
        ((∀ u, u < s.installed / 64 → holds u) → t.rd .sender Reg.DRC_TEST_STAT = 0x80000000) ∧
        (∀ u, u < s.installed / 64 → ¬ holds u → (∀ x, x < u → holds x) →
          t.rd .sender Reg.DRC_TEST_STAT = BitVec.ofNat 32 (3 * 2 ^ 30 + u)))))

/-- R172, R181 to R185, R189, R204: a write request beyond the installed memory is discarded; another gives the
bytes it enables to every later read, and leaves all others, unless the queue is full, when it stalls its port. A
read of a unit beyond the installed memory returns ones; another waits for its device with the bytes of the queue's
entry, or is answered from a full entry, but for one behind a read of its port and unit. A pipe asks through its
quadrant's port, for its lowest layer with units to ask for, with that line's deadline. The first request in the
order of R182 is issued; an issued read returns what the device held, under those bytes; an issued write frees its
entry for one that was stalled. -/
def Obligations.DramTraffic : Prop :=
  (∀ (port : Fin 12) (unit : BitVec 29) (en : BitVec 64) (data : List Byte) (chain : Fin 16) (dl : Word) (s : State),
    s.alive .sender = true → s.snd.dram.chans.length = 8 →
    let u := unit.toNat
    let i := (s.place u).ch
    let c := s.dch i
    let full := (c.entry u).isNone = true ∧ 64 ≤ c.wq.length
    let goes := 64 * u < s.installed ∧ s.portStalled port.val = false
    let now := s.wall .sender
    let own := 4 ≤ port.val
    let due := now + BitVec.ofNat 32 (s.target port.val)
    (s.installed ≤ 64 * u →
      exec (.dramWriteRequest port unit en data) s = .next s ∧
      (own → exec (.dramReadRequest port unit chain dl) s =
        .next (s.updDram fun d => { d with last := some ⟨port.val, u, List.replicate 64 0xFF, false⟩ }))) ∧
    (64 * u < s.installed → s.portStalled port.val = true → ∃ (t : State) (e : WqEntry),
      exec (.dramWriteRequest port unit en data) s = .next t ∧ e.unit = u ∧ e.port = port.val ∧
      t.snd.dram.behind = s.snd.dram.behind ++ [.write e] ∧ t.snd.dram.chans = s.snd.dram.chans ∧
      (∀ a, t.fmByte a = s.fmByte a) ∧ (∀ q a, t.rd q a = s.rd q a)) ∧
    (goes → full → ∃ t : State, exec (.dramWriteRequest port unit en data) s = .next t ∧
      (t.dch i).stalled.length = c.stalled.length + 1 ∧ (t.dch i).wq = c.wq ∧ (∀ a, t.fmByte a = s.fmByte a) ∧
      (∀ q a, t.rd q a = s.rd q a)) ∧
    (goes → ¬ full → ∃ t : State, exec (.dramWriteRequest port unit en data) s = .next t ∧
      (∀ j, j < 64 → t.fmByte (64 * u + j) = (if en.getLsbD j = true then data.getD j 0 else s.fmByte (64 * u + j))) ∧
      (∀ a, a / 64 ≠ u → t.fmByte a = s.fmByte a) ∧
      t.rd .sender (Reg.DRC_PORT_UNITS port.val) = s.rd .sender (Reg.DRC_PORT_UNITS port.val) + 1) ∧
    (goes → own → c.entry u = none → ∃ t : State, exec (.dramReadRequest port unit chain dl) s = .next t ∧
      (t.dch i).reads = c.reads ++ [⟨u, port.val, chain.val, none, due, now, [], []⟩] ∧ (∀ q a, t.rd q a = s.rd q a)) ∧
    (∀ e, goes → own → c.entry u = some e → sameRead port.val u (c.flight ++ c.reads) = true → ∃ t : State,
      exec (.dramReadRequest port unit chain dl) s = .next t ∧ (∀ q a, t.rd q a = s.rd q a) ∧
      (t.dch i).reads = c.reads ++ [⟨u, port.val, chain.val, none, due, now, e.bytes, []⟩]) ∧
    (port.val < 4 → (s.serving chain.val).map pipePort ≠ some port.val →
      exec (.dramReadRequest port unit chain dl) s = .next s) ∧
    (∀ (x : Comp) (l : Fetched) (ls : List Fetched), goes → (s.serving chain.val).map pipePort = some port.val →
      port.val < 4 → s.comp chain.val = some x → x.fetched = l :: ls →
      (c.entry u = none → u ∈ l.left → ∃ t : State, exec (.dramReadRequest port unit chain dl) s = .next t ∧
        (t.dch i).reads = c.reads ++ [⟨u, port.val, chain.val, some l.layer, l.deadline, now, [], []⟩] ∧
        (∀ q a, t.rd q a = s.rd q a)) ∧
      (∀ m, x.fetched.find? (fun m => m.left.contains u) = some m → l.layer < m.layer →
        exec (.dramReadRequest port unit chain dl) s = .next s)) ∧
    (∀ e, goes → own → c.entry u = some e → e.bytes.length = 64 → sameRead port.val u (c.flight ++ c.reads) = false →
      ∃ t : State, exec (.dramReadRequest port unit chain dl) s = .next t ∧ (t.dch i).reads = c.reads ∧
      t.snd.dram.last = some ⟨port.val, u, (List.range 64).map fun j => (AMap.find e.bytes j).getD 0, false⟩ ∧
      t.rd .sender (Reg.DRC_PORT_UNITS port.val) = s.rd .sender (Reg.DRC_PORT_UNITS port.val) + 1)) ∧
  (∀ (l : List Cand) (j : Nat) (x : Cand), firstCand 0 l = some (j, x) → l[j]? = some x ∧ ∀ y ∈ l, y.before x = false) ∧
  (∀ (ch : Fin 8) (ecc : Sys2Proof.Ecc) (s : State), s.alive .sender = true → s.snd.dram.chans.length = 8 →
    let c := s.dch ch.val
    (c.wq = [] → c.reads = [] → exec (.dramIssue ch ecc) s = .next s) ∧
    (∀ r, c.wq = [] → c.reads = [r] → r.fwd.length ≠ 64 → r.data = [] → ∃ t : State,
      exec (.dramIssue ch ecc) s = .next t ∧ (t.dch ch.val).reads = [] ∧
      (t.dch ch.val).flight = c.flight ++ [{ r with data := s.snd.dram.unitBytes r.unit }] ∧
      t.rd .sender (Reg.DRC_PAGE_HIT ch.val) = s.rd .sender (Reg.DRC_PAGE_HIT ch.val) +
        (if s.pageHit ch.val r.unit = true then 1 else 0) ∧
      t.rd .sender (Reg.DRC_PAGE_MISS ch.val) = s.rd .sender (Reg.DRC_PAGE_MISS ch.val) +
        (if s.pageHit ch.val r.unit = true then 0 else 1)) ∧
    (∀ r, c.wq = [] → c.reads = [r] → r.fwd.length = 64 → 4 ≤ r.port → r.port < 12 → sameRead r.port r.unit c.flight = false →
      ∃ t : State, exec (.dramIssue ch ecc) s = .next t ∧ (t.dch ch.val).reads = [] ∧ (t.dch ch.val).flight = c.flight ∧
        t.snd.dram.last = some ⟨r.port, r.unit, (List.range 64).map fun j => (AMap.find r.fwd j).getD 0, false⟩ ∧
        t.rd .sender (Reg.DRC_PORT_UNITS r.port) = s.rd .sender (Reg.DRC_PORT_UNITS r.port) + 1) ∧
    (∀ e, c.wq = [e] → c.reads = [] → s.snd.dram.behind = [] → e.bytes.length = 64 → AMap.sorted e.bytes = true →
      (∀ x ∈ e.bytes, x.1 < 64) → ∃ t : State, exec (.dramIssue ch ecc) s = .next t ∧
      (c.stalled = [] → (t.dch ch.val).wq = []) ∧
      (∀ w, c.stalled = [w] → (t.dch ch.val).wq = [w] ∧ (t.dch ch.val).stalled = []) ∧
      ∀ j, j < 64 → t.snd.dram.devByte (64 * e.unit + j) = (AMap.find e.bytes j).getD 0) ∧
    (c.flight = [] → exec (.dramReadComplete ch ecc) s = .next s) ∧
    (∀ r rs, c.flight = r :: rs → r.port < 12 → r.chain < 16 → ∃ t : State, exec (.dramReadComplete ch ecc) s = .next t ∧ (t.dch ch.val).flight = rs ∧
      t.rd .sender (Reg.DRC_PORT_UNITS r.port) = s.rd .sender (Reg.DRC_PORT_UNITS r.port) + 1 ∧
      (ecc ≠ .double → t.snd.dram.last = some ⟨r.port, r.unit, overlay r.fwd r.data, false⟩) ∧
      (ecc = .corrected → t.rd .sender (Reg.DRC_ECC_CORR ch.val) = s.rd .sender (Reg.DRC_ECC_CORR ch.val) + 1) ∧
      (ecc = .double → t.rd .sender (Reg.DRC_ERR_ADDR ch.val) = BitVec.ofNat 32 r.unit ∧
        t.rd .sender (Reg.DRC_ECC_UNCORR ch.val) = s.rd .sender (Reg.DRC_ECC_UNCORR ch.val) + 1)))

/-- R29, R200 to R202, R206, R207, R209, R247: a composition gives each layer a unit in ascending order, and a pipe
with too few units fails; a stale line that a layer fetches is counted, and so is a low-latency line that is still
incomplete; a unit with a parity error is disabled; a pipe that fails stays failed and aborts the frame of every
chain it serves. A fetched line is put among those whose units the pipe asks for, bottom layer first, with its
deadline (R29, R209, R247). R216, R243 to R246: a preview frame starts at the origin of a frame whose number PV_DIV
divides, from the latest complete write-back buffer, and one still being sent is cut short and counted; its packets
leave on its port while no frame waits on TXR0 (R117), as the registers described them at its start, and with the
last it counts. A raster line starts when its wall time is reached, and the raster then stands at the next line. -/
def Obligations.CompositionAndRaster : Prop :=
  (∀ s : State, s.alive .sender = true →
     let free := s.tapTakes .sender = false
     (∀ (k : Fin 16) (slot : Fin 8) (r : RasFrame) (st : SendSt) (p : Nat),
       let ls := s.compLayers k.val slot.val
       slot.val < s.slots .sender → s.snd.ras = some r → s.rasChain k.val = some st → st ≠ .aborted → s.serving k.val = some p →
       (ls.length ≤ (s.unitsOf p).length → ∃ t : State, exec (.compositionStart k slot) s = .next t ∧
         t.comp k.val = some ⟨r.frame, slot.val, ls.zip (s.unitsOf p), [], [], []⟩ ∧
         (∀ d ∈ ls, t.fldOf .sender (Reg.LYR_STAT d) 12 0 = 0) ∧ (∀ j, j ≠ k.val → t.comp j = s.comp j) ∧ t.out = s.out) ∧
       ((s.unitsOf p).length < ls.length → s.pipeFailed p = false → p < 17 → ∃ t : State,
         exec (.compositionStart k slot) s = .next t ∧ t.pipeFailed p = true ∧
         (free → t.pendBit .sender (Ev.CMP_PIPE_FAIL p) = true))) ∧
     (∀ (k : Fin 16) (slot : Fin 8), s.slots .sender ≤ slot.val ∨ s.rasChain k.val = none ∨
       s.rasChain k.val = some .aborted ∨ s.serving k.val = none → exec (.compositionStart k slot) s = .next s) ∧
     (∀ (k : Fin 16) (d : Fin 64) (row : BitVec 14) (c : Comp) (f b : Nat),
       let fetched := match s.rowShown d.val f b c.missed row.toNat with
         | none => s
         | some x => s.fetchLine k.val d.val row.toNat x
       s.comp k.val = some c → s.lyrFlow d.val = some f → (c.units.any fun u => u.1 = d.val) = true → s.heldBuf f = some b →
       (bit (s.lyr d.val) 29 = false ∨ ((s.snd.ras.map RasFrame.picked).getD []).contains f = true) →
       (s.heldOpen f = false → s.lineStale d.val f b [] row.toNat = true → ∃ t : State,
         exec (.layerFetch k d row) s = .next t ∧
         t.rd .sender Reg.CMP_STALE_LINES = s.rd .sender Reg.CMP_STALE_LINES + 1 ∧
         t.fldOf .sender (Reg.LYR_STAT d.val) 12 0 = (s.fldOf .sender (Reg.LYR_STAT d.val) 12 0 + 1) % 8192) ∧
       (s.heldOpen f = false → s.lineStale d.val f b [] row.toNat = false → exec (.layerFetch k d row) s = .next fetched) ∧
       (s.heldOpen f = true → s.llMiss f row.toNat = true → ∃ t : State, exec (.layerFetch k d row) s = .next t ∧
         t.rd .sender Reg.CMP_LL_MISS = s.rd .sender Reg.CMP_LL_MISS + 1) ∧
       (s.heldOpen f = true → s.llMiss f row.toNat = false → exec (.layerFetch k d row) s = .next fetched)) ∧
     (∀ (k : Fin 16) (d : Fin 64) (row : BitVec 14) (c : Comp), s.comp k.val = some c → s.lyrFlow d.val = none →
       (c.units.any fun u => u.1 = d.val) = true →
       exec (.layerFetch k d row) s = .next (s.fetchLine k.val d.val row.toNat row.toNat)) ∧
     (∀ (k d row read : Nat) (c : Comp) (w : Word) (u : Nat) (us : List Nat), s.comp k = some c →
       s.fetchDeadline k d row c.slot c.frame = some w → s.lineUnits k d read = u :: us →
       ∃ l, (s.fetchLine k d row read).comp k = some { c with fetched := l } ∧
         (∀ x, x ∈ l ↔ x ∈ c.fetched ∨ x = ⟨d, w, u :: us⟩) ∧
         (c.fetched.Pairwise (fun x y => x.layer ≤ y.layer) → l.Pairwise fun x y => x.layer ≤ y.layer)) ∧
     (∀ (k : Fin 16) (d : Fin 64) (row : BitVec 14), s.comp k.val = none → exec (.layerFetch k d row) s = .next s) ∧
     (∀ (p : Fin 17) (u : Fin 16),
       (bit (s.rd .sender (Reg.CMP_PIPE_STAT p.val)) u.val = true → ∃ t : State,
         exec (.layerUnitParity p u) s = .next t ∧ bit (t.rd .sender (Reg.CMP_PIPE_STAT p.val)) u.val = false ∧
         (∀ v : Fin 16, v ≠ u → bit (t.rd .sender (Reg.CMP_PIPE_STAT p.val)) v.val =
           bit (s.rd .sender (Reg.CMP_PIPE_STAT p.val)) v.val) ∧
         (free → t.pendBit .sender (Ev.CMP_UNIT_OFF p.val) = true)) ∧
       (bit (s.rd .sender (Reg.CMP_PIPE_STAT p.val)) u.val = false → exec (.layerUnitParity p u) s = .next s)) ∧
     (∀ p : Fin 17,
       (s.pipeFailed p.val = true → exec (.pipeEccError p) s = .next s) ∧
       (s.pipeFailed p.val = false → ∃ t : State, exec (.pipeEccError p) s = .next t ∧ t.pipeFailed p.val = true ∧
         (free → t.pendBit .sender (Ev.CMP_PIPE_FAIL p.val) = true) ∧
         ∀ k r st, (∀ j : Fin 16, s.lnkTx .sender j.val ≠ 2) → k ∈ s.servedBy p.val → s.snd.ras = some r → s.rasChain k = some st → st ≠ .aborted →
           t.rd .sender (Reg.CHN_ABORTS k) = s.rd .sender (Reg.CHN_ABORTS k) + 1 ∧
           t.rd .sender (Reg.CHN_ABORT_FRAME k) = r.frame ∧ t.fldOf .sender (Reg.CHN_STAT k) 27 24 = 2 ∧
           (s.txActive .sender k = true → Output.packet (portOf .sender k)
             (mkPacket 8 0x7F 0 0x7E 0 [r.frame, BitVec.ofNat 32 (letterBit s.letter * 2 ^ 31 + k * 2 ^ 24)]) ∈ t.out)))) ∧
  (∀ s : State, s.alive .sender = true →
     let n := s.rd .sender Reg.TIME_FRM_NUM
     let due := bit (s.rd .sender Reg.CMP_PV_CTRL) 31 = true ∧ s.rasOn = true ∧
       n.toNat % (s.fldOf .sender Reg.CMP_PV_CTRL 18 16 + 1) = 0 ∧ s.snd.pvAt ≠ some n
     let buf := s.fldOf .sender Reg.CMP_WB_STAT 17 16
     let frame := fun (r : PvRun) (j : Nat) (x : Word × Nat) (bad : Bool) =>
       let k := r.packet j x.1 x.2 (State.fmBytes (r.addr j) s (r.len j))
       Output.frame r.port (k ++ List.replicate (60 - k.length) 0) bad
     (∀ sent : Nat,
       (¬ due → exec (.previewStart sent) s = .next s) ∧
       (due → s.snd.pv = none → bit (s.rd .sender Reg.CMP_WB_STAT) 31 = true → ∃ t : State,
         exec (.previewStart sent) s = .next t ∧ t.rd .sender Reg.CMP_PV_STAT = BitVec.ofNat 32 (2 ^ 31 + buf * 2 ^ 16) ∧
         t.snd.pv = some (s.pvRun n buf) ∧ t.snd.pvSeq = s.snd.pvSeq + (s.pvRun n buf).count ∧
         t.snd.pvAt = some n ∧ t.out = s.out) ∧
       (∀ r, due → s.snd.pv = some r → ∃ t : State, exec (.previewStart sent) s = .next t ∧
         t.rd .sender Reg.CMP_PV_LATE = s.rd .sender Reg.CMP_PV_LATE + 1 ∧
         (s.tapTakes .sender = false → t.pendBit .sender Ev.PV_LATE = true))) ∧
     (∀ bad : List Nat,
       (s.snd.pv = none → exec (.pvFrame bad) s = .next s) ∧
       (∀ r, s.snd.pv = some r → s.netUp r.port = false ∨ s.txWaits r.port 0 = true → exec (.pvFrame bad) s = .next s) ∧
       (∀ r, s.snd.pv = some r → s.netUp r.port = true → s.txWaits r.port 0 = false →
         ∃ (t : State) (l : List Nat) (x : Nat → Word × Nat), exec (.pvFrame bad) s = .next t ∧ t.snd.pv = none ∧
         t.rd .sender Reg.CMP_PV_SENT = s.rd .sender Reg.CMP_PV_SENT + 1 ∧
         t.out = s.out ++ ((List.range (r.count - r.next)).map fun i => frame r (r.next + i) (x i) (bad.contains (r.next + i)))
           ++ l.map Output.msix ∧
         (s.tapTakes .sender = false → t.pendBit .sender Ev.PV_FRAME = true))) ∧
     (∀ (i : Fin 4) (bad : Bool) (lag : Word) (r : PvRun), s.netUp i.val = true → s.txWaits i.val 0 = false →
       s.pvDue i.val = some r → r.next + 1 < r.count → ∃ (t : State) (l : List Nat) (x : Word × Nat),
         exec (.txFrameSent i bad lag) s = .next t ∧ t.out = s.out ++ frame r r.next x bad :: l.map Output.msix ∧
         (t.snd.pv = some { r with next := r.next + 1 } ∨ t.safe .sender = true)) ∧
     (∀ levels : List Nat,
       (s.rasOn = false ∨ s.snd.ras = none → exec (.rasterLineStart levels) s = .next s) ∧
       (∀ r, s.snd.ras = some r →
         (r.skip = true ∨ s.frameLines ≤ r.line ∨ 0 < (s.lineAt r.frame r.line - s.wall .sender).toInt →
           exec (.rasterLineStart levels) s = .next s) ∧
         (s.rasOn = true → r.skip = false → r.line < s.frameLines → (s.lineAt r.frame r.line - s.wall .sender).toInt ≤ 0 →
           ∃ t evs, s.rasLine levels = (t, evs) ∧ exec (.rasterLineStart levels) s = .next (t.raiseAll .sender evs) ∧
             ((∀ j : Fin 16, s.lnkTx .sender j.val ≠ 2) → ∃ r', t.snd.ras = some r' ∧ r'.line = r.line + 1 ∧ r'.frame = r.frame)))))

/-- R267 to R269, R292: the stages of bring-up. EN and RESTART lead to DETECT; two terminated lanes in each
direction and the reference lead to TRAIN, whose last entry leads to LOCK with two good lanes; lock on both active
lanes leads to EXCHANGE, and four identical acknowledged EXCH with 16 hop-delay results lead to ACTIVE, where the
peer, and in a tile the wall and the position, are taken. A time-out leads back to TRAIN, or to DETECT. Each change
of stage raises LNK_STATE. -/
def Obligations.LinkBringUp : Prop :=
  ∀ (port : LnkPort) (s : State),
    let p := port.part
    let i := port.idx
    s.alive p = true → i < (s.chip p).ports.length →
    let st := fun (t : State) => (t.lnkSt p i, t.lnkTx p i, t.lnkRx p i)
    let q := s.port p i
    let ctrl := s.rd p (Reg.LNK_CTRL i)
    let raised := fun (id : Nat) (t : State) => s.tapTakes p = false → t.pendBit p id = true
    let goes := fun (c : Instr) (x : Nat × Nat × Nat) => ∃ t : State, exec c s = .next t ∧ st t = x ∧
      (st s ≠ x → raised (Ev.LNK_STATE p i) t)
    goes (.lnkEnable port false) (0, 0, 0) ∧
    (bit ctrl 31 = false → goes (.lnkEnable port true) (1, 0, 0)) ∧
    (bit ctrl 31 = true → goes (.lnkRestart port) (1, 0, 0)) ∧
    (∀ (tx rx : Fin 4) (ref : Bool),
      (s.lnkSt p i ≠ 1 → exec (.detectAttempt port tx rx ref) s = .next s) ∧
      (s.lnkSt p i = 1 → 2 ≤ tx.val → 2 ≤ rx.val → s.refPresent p ref = true →
        ∃ t : State, exec (.detectAttempt port tx rx ref) s = .next t ∧ st t = (2, 0, 0) ∧
          t.fldOf p (Reg.LNK_STAT i) 15 8 = min 255 (s.fldOf p (Reg.LNK_STAT i) 15 8 + 1) ∧ raised (Ev.LNK_STATE p i) t) ∧
      (s.lnkSt p i = 1 → tx.val < 2 ∨ rx.val < 2 ∨ s.refPresent p ref = false →
        exec (.detectAttempt port tx rx ref) s = .next (s.wrBit p (Reg.LNK_STAT i) 20 (s.refPresent p ref)))) ∧
    (s.lnkSt p i = 1 → q.noPeer = false → ∃ t : State, exec (.lnkNopeer port) s = .next t ∧ (t.port p i).noPeer = true ∧
      raised (Ev.LNK_NOPEER p i) t) ∧
    (s.lnkSt p i ≠ 1 ∨ q.noPeer = true → exec (.lnkNopeer port) s = .next s) ∧
    (∀ (e : Fin 8) (f0 f1 f2 : Byte) (far : Fin 4),
      let better := fun (l : Nat) (f : Byte) => betterEntry q.lastEntry.isNone (q.best.getD l (0, 0)) f.toNat e.val
      let best := [better 0 f0, better 1 f1, better 2 f2]
      let good := (best.filter fun b => decide (s.fomMin p i ≤ b.1)).length
      let last := ∀ x : Fin 8, e < x → eqValid (s.rd p (Reg.LNK_EQ i x.val)) = false
      (s.nextEntry p i ≠ some e.val ∨ s.lnkSt p i ≠ 2 ∧ s.lnkSt p i ≠ 5 →
        exec (.trainEntryMeasured port e f0 f1 f2 far) s = .next s) ∧
      (s.nextEntry p i = some e.val → s.lnkSt p i = 2 →
        (¬ last → ∃ t : State, exec (.trainEntryMeasured port e f0 f1 f2 far) s = .next t ∧ t.lnkSt p i = 2 ∧
          (t.port p i).lastEntry = some e.val ∧ (t.port p i).best = best) ∧
        (last → 2 ≤ good → 2 ≤ far.val → goes (.trainEntryMeasured port e f0 f1 f2 far) (3, 0, 0)) ∧
        (last → good < 2 ∨ far.val < 2 → ∃ t : State, exec (.trainEntryMeasured port e f0 f1 f2 far) s = .next t ∧
          t.lnkSt p i = 2 ∧ (t.port p i).lastEntry = none))) ∧
    (s.lnkSt p i = 2 → ∃ t : State, exec (.lnkTrainFail port) s = .next t ∧ st t = (1, 0, 0) ∧
      raised (Ev.LNK_TRAIN_FAIL p i) t) ∧
    (s.lnkSt p i ≠ 2 → s.lnkSt p i ≠ 5 → exec (.lnkTrainFail port) s = .next s) ∧
    (s.lnkSt p i = 3 → goes (.lockTimeout port) (2, 0, 0)) ∧
    (s.lnkSt p i = 5 → s.lnkRx p i = 3 → goes (.lockTimeout port) (5, s.lnkTx p i, 4)) ∧
    (s.lnkSt p i = 5 → s.lnkRx p i ≠ 3 → s.lnkTx p i = 3 → goes (.lockTimeout port) (5, 4, s.lnkRx p i)) ∧
    (s.lnkSt p i ≠ 3 → s.lnkSt p i ≠ 5 → exec (.lockTimeout port) s = .next s) ∧
    (∀ (lane : Fin 3) (b : List Byte) (far : Sys2Proof.FarEnd),
      let n := fun (l : Nat) => if l = lane.val then q.good.getD l 0 + 1 else q.good.getD l 0
      (s.lnkSt p i = 3 → q.good.length = 3 → alignGood lane.val b = true → 8 ≤ n 0 → 8 ≤ n 1 → far = .locked ∨ far = .up →
        goes (.alignmentBlock port lane b true far) (4, 0, 0)) ∧
      (s.lnkSt p i < 3 → exec (.alignmentBlock port lane b true far) s = .next s) ∧
      (s.lnkSt p i = 5 → s.lnkRx p i = 1 → q.bad.length = 3 → 1 ≤ q.bad.getD lane.val 0 → alignGood lane.val b = false →
        s.fldOf p (Reg.LNK_LANES i) (21 - 2 * lane.val) (20 - 2 * lane.val) < 3 →
        ∃ t : State, exec (.alignmentBlock port lane b true far) s = .next t ∧
          bit (t.rd p (Reg.LNK_LANES i)) (s.fldOf p (Reg.LNK_LANES i) (21 - 2 * lane.val) (20 - 2 * lane.val)) = true)) ∧
    (∀ pkt : Packet, (p = .tile ∧ TileTakes i pkt s ∨ p = .sender ∧ SenderTakes i pkt s) → Pkt.type pkt = 0 →
      fld (Pkt.w pkt 1) 31 24 = 1 →
      let b := Pkt.body pkt
      let w := b.getD 0 0
      let body := putBit w 29 false :: b.drop 1
      s.lnkSt p i = 4 → bit w 29 = true → q.exchBody = body → 16 ≤ q.hopN → s.sleepAsked p i = false →
      (3 ≤ q.exchAcked → ∃ t : State, exec (.exch port pkt) s = .next t ∧ st t = (5, 1, 1) ∧
        t.rd p (Reg.LNK_PEER i) = putBit w 29 false ∧ t.rd p (Reg.LNK_PEER_ID_HI i) = b.getD 2 0 ∧
        t.rd p (Reg.LNK_PEER_ID_LO i) = b.getD 3 0 ∧
        (p = .tile → i = 0 → t.rd .tile Reg.LNK_WALL = b.getD 4 0 ∧
          (fld w 14 8 < 64 → t.tilePos = some (fld w 14 8)))) ∧
      (q.exchAcked < 3 → ∃ t : State, exec (.exch port pkt) s = .next t ∧ st t = st s ∧
        (t.port p i).exchAcked = q.exchAcked + 1)) ∧
    (s.lnkSt p i = 4 ∨ s.txActive p i = true → exec (.exchSend port) s = .next (s.emit (.packet port (s.exchPacket p i)))) ∧
    (s.lnkSt p i ≠ 4 → s.txActive p i = false → exec (.exchSend port) s = .next s) ∧
    (s.lnkSt p i = 4 → goes (.exchangeTimeout port) (2, 0, 0)) ∧
    (s.lnkSt p i ≠ 4 → exec (.exchangeTimeout port) s = .next s)

/-- R263, R271 to R273, R275, R276: a failed lane is replaced by a healthy spare at the swap, which counts; without
one the direction is lost, and goes to RETRAIN while the other direction is UP, to DETECT otherwise. A lane with FOM
at MIN or above becomes the spare again; one below WARN is reported. A direction sleeps, once its own packets have
left, and wakes, the receiver once its lanes have locked, and the tile's other port follows; the tile enters and
leaves holdover with its reference. -/
def Obligations.LanesAndSleep : Prop :=
  ∀ (port : LnkPort) (lane : Fin 3) (fom : Byte) (s : State),
    let p := port.part
    let i := port.idx
    s.alive p = true → i < (s.chip p).ports.length →
    let q := s.port p i
    let lanes := s.rd p (Reg.LNK_LANES i)
    let on := s.lnkSt p i = 5
    let tx := s.lnkTx p i
    let rx := s.lnkRx p i
    let raised := fun (id : Nat) (t : State) => s.tapTakes p = false → t.pendBit p id = true
    let swap := bit (s.rd p (Reg.LNK_CTRL i)) 27 = true ∧ fld lanes 17 16 < 3 ∧
      s.fomMin p i ≤ s.fom p i (fld lanes 17 16)
    (¬ on → exec (.laneFail port lane) s = .next s) ∧
    (∀ l, l < 2 → on → rx = 1 → s.rxLogical p i lane.val = some l → q.rxSwap = none →
      (swap → ∃ t : State, exec (.laneFail port lane) s = .next t ∧ (t.port p i).rxSwap = some l ∧
        bit (t.rd p (Reg.LNK_LANES i)) lane.val = true ∧ t.lnkRx p i = 1) ∧
      (¬ swap → ∃ t : State, exec (.laneFail port lane) s = .next t ∧ raised (Ev.LNK_FAIL p i) t ∧
        (tx = 1 → t.lnkSt p i = 5 ∧ t.lnkTx p i = 1 ∧ t.lnkRx p i = 4) ∧ (tx ≠ 1 → t.lnkSt p i = 1))) ∧
    (∀ (dir : Bool) (l : Nat), l < 2 → on → (if dir = true then q.txSwap else q.rxSwap) = some l →
      let hi := if dir = true then 13 else 21
      ∃ t : State, exec (.laneSwap port dir) s = .next t ∧
        t.fldOf p (Reg.LNK_LANES i) (hi - 2 * l) (hi - 1 - 2 * l) = fld lanes (hi - 4) (hi - 5) ∧
        t.fldOf p (Reg.LNK_LANES i) (hi - 4) (hi - 5) = 3 ∧
        t.rd p (Reg.LNK_SWAPS i) = s.rd p (Reg.LNK_SWAPS i) + 1 ∧ raised (Ev.LNK_LANE_SWAP p i) t) ∧
    (∀ dir : Bool, ¬ on ∨ (if dir = true then q.txSwap else q.rxSwap) = none → exec (.laneSwap port dir) s = .next s) ∧
    (∀ dir : Bool,
      let hi := if dir = true then 13 else 21
      let free := fld lanes hi (hi - 1) ≠ lane.val ∧ fld lanes (hi - 2) (hi - 3) ≠ lane.val ∧
        fld lanes (hi - 4) (hi - 5) = 3 ∧ s.fomMin p i ≤ fom.toNat
      (¬ free → exec (.spareRestore port dir lane fom) s = .next s) ∧
      (free → ∃ t : State, exec (.spareRestore port dir lane fom) s = .next t ∧
        t.fldOf p (Reg.LNK_LANES i) (hi - 4) (hi - 5) = lane.val ∧
        (dir = false → bit (t.rd p (Reg.LNK_LANES i)) lane.val = false ∧ t.fom p i lane.val = fom.toNat))) ∧
    (let weak := on ∧ fom.toNat < s.fldOf p (Reg.LNK_FOM_THR i) 15 8
     (weak → ∃ t : State, exec (.lnkEqWeak port lane fom) s = .next t ∧ t.fom p i lane.val = fom.toNat ∧
        raised (Ev.LNK_EQ_WEAK p i) t) ∧ (¬ weak → exec (.lnkEqWeak port lane fom) s = .next s)) ∧
    (let o := otherPort i
     let tail := p = .tile ∧ s.follows o = true ∧ s.lnkSt .tile o = 5
     (on → rx = 1 → ∃ t : State, exec (.lnkSleep port) s = .next t ∧ t.lnkRx p i = 2 ∧ raised (Ev.LNK_SLEEP p i) t ∧
        (tail → s.lnkTx .tile o = 1 → s.txHeld .tile o = false → t.lnkTx .tile o = 2)) ∧
     (on → rx = 2 → ∃ t : State, exec (.lnkWakeStart port false) s = .next t ∧ t.lnkRx p i = 3 ∧
        (tail → s.lnkTx .tile o = 2 → t.lnkTx .tile o = 3))) ∧
    (¬ (on ∧ rx = 1) → exec (.lnkSleep port) s = .next s) ∧
    (¬ (on ∧ rx = 2) → exec (.lnkWakeStart port false) s = .next s) ∧
    (on → tx = 2 → ∃ t : State, exec (.lnkWakeStart port true) s = .next t ∧ t.lnkTx p i = 3) ∧
    (¬ (on ∧ tx = 2) → exec (.lnkWakeStart port true) s = .next s) ∧
    (on → tx = 3 → ∃ t : State, exec (.lnkWake port true) s = .next t ∧ raised (Ev.LNK_WAKE p i) t ∧
      (s.sleepAsked p i = false → t.lnkTx p i = 1)) ∧
    (on → rx = 3 → s.locked p i q.aligned = true → ∃ t : State, exec (.lnkWake port false) s = .next t ∧ t.lnkRx p i = 1 ∧ raised (Ev.LNK_WAKE p i) t) ∧
    (¬ (on ∧ tx = 3) → exec (.lnkWake port true) s = .next s) ∧
    (¬ (on ∧ rx = 3 ∧ s.locked p i q.aligned = true) → exec (.lnkWake port false) s = .next s) ∧
    (let ctrl := s.rd p (Reg.LNK_CTRL i)
     bit ctrl 31 = true → bit ctrl 28 = false → on →
      (tx = 1 → s.txHeld p i = false → ∃ t : State, exec (.lnkTxSleepWrite port true) s = .next t ∧ t.lnkTx p i = 2 ∧
        (t.port p i).own = [] ∧ ∀ k ∈ q.own, Output.packet port (s.stampTime k) ∈ t.out) ∧
      (tx = 2 → bit ctrl 30 = true → ∃ t : State, exec (.lnkTxSleepWrite port false) s = .next t ∧ t.lnkTx p i = 3)) ∧
    (port = .u → bit (s.rd .tile Reg.LNK_REF) 0 = true → ∃ t : State, exec (.lnkRefLost port) s = .next t ∧
      t.rd .tile Reg.LNK_REF = 2 ∧ bit (t.rd .tile (Reg.LNK_STAT 0)) 20 = false ∧
      bit (t.rd .tile (Reg.LNK_STAT 1)) 20 = false ∧ raised (Ev.LNK_REF_LOST .tile 0) t) ∧
    (port = .u → bit (s.rd .tile Reg.LNK_REF) 1 = true → ∃ t : State, exec (.refRestored port) s = .next t ∧
      t.rd .tile Reg.LNK_REF = 1 ∧ bit (t.rd .tile (Reg.LNK_STAT 0)) 20 = true ∧
      bit (t.rd .tile (Reg.LNK_STAT 1)) 20 = true ∧ raised Ev.REF_RESTORED t) ∧
    (p = .sender → s.letter = .b → bit (s.rd .sender (Reg.LNK_STAT i)) 20 = true →
      ∃ t : State, exec (.lnkRefLost port) s = .next t ∧ bit (t.rd .sender (Reg.LNK_STAT i)) 20 = false ∧
        raised (Ev.LNK_REF_LOST .sender i) t) ∧
    (p = .sender → s.letter = .b → exec (.refRestored port) s = .next (s.wrBit .sender (Reg.LNK_STAT i) 20 true)) ∧
    (port = .d ∨ (p = .sender ∧ s.letter = .a) →
      exec (.lnkRefLost port) s = .next s ∧ exec (.refRestored port) s = .next s)

/-- R283 to R285: a packet that the tile does not consume goes on out of its other port, unchanged where its CRC is
good or stomped, and with the inverted CRC where it is bad; while an own packet goes out there it waits in the
bypass buffer. A damaged header loses framing and is counted, and filler words go out in its place. A packet that is
not for the sender is counted and discarded. A tile's own packets leave in the order of R285, if they fit beside
what passes. -/
def Obligations.PacketFlow : Prop :=
  (∀ (port : LnkPort) (pkt : Packet) (s : State), port.part = .tile →
    let i := port.idx
    let out := fun (k : Packet) => Output.packet (portOf .tile (otherPort i)) k
    let o := otherPort i
    let q := s.port .tile o
    let k := Pkt.forwarded pkt
    let u := s.fwd i pkt
    let reach := s.hears .tile i = true ∧ (s.port .tile i).unframed = false
    let sound := reach ∧ Pkt.hcrcOk pkt = true ∧ Pkt.lenOk pkt = true ∧ s.consumes pkt = false
    let carries := s.txActive .tile (otherPort i) = true ∧ s.tapTakes .tile = false
    (s.hears .tile i = false → exec (.packetForward port pkt) s = .next s) ∧
    (s.hears .tile i = true → (s.port .tile i).unframed = true →
      exec (.packetForward port pkt) s = .next (s.notFwd i pkt true)) ∧
    (reach → Pkt.hcrcOk pkt = false → i < s.tile.ports.length → ∃ t : State,
      exec (.packetForward port pkt) s = .next t ∧ (t.port .tile i).unframed = true ∧
      t.rd .tile (Reg.LNK_HDR_ERR i) = s.rd .tile (Reg.LNK_HDR_ERR i) + 1 ∧
      (carries → Output.filler (portOf .tile o) pkt.length ∈ t.out) ∧ (¬ carries → t.out = s.out)) ∧
    (sound → Pkt.crcOk pkt = true → exec (.packetForward port pkt) s = .next u) ∧
    (sound → Pkt.crcOk pkt = false → Pkt.stomped pkt = true → ∃ t : State,
      exec (.packetForward port pkt) s = .next t ∧ t.out = u.out ∧
      t.rd .tile (Reg.LNK_STOMPED i) = s.rd .tile (Reg.LNK_STOMPED i) + 1) ∧
    (sound → Pkt.crcOk pkt = false → Pkt.stomped pkt = false → ∃ t : State,
      exec (.packetForward port pkt) s = .next t ∧ t.out = u.out ∧
      t.rd .tile (Reg.LNK_CRC_ERR i) = s.rd .tile (Reg.LNK_CRC_ERR i) + 1) ∧
    (Pkt.crcOk pkt = true ∨ Pkt.stomped pkt = true → k = pkt) ∧
    (Pkt.crcOk pkt = false → Pkt.stomped pkt = false → k = pkt.dropLast ++ [Pkt.crc pkt ^^^ 0xFFFFFFFF]) ∧
    (carries → o < s.tile.ports.length →
      (q.ownLeft = 0 → u.out = s.out ++ [out k]) ∧
      (0 < q.ownLeft → q.ownLeft ≤ pkt.length → u.out = s.out ++ q.byp.map out ++ [out k]) ∧
      (pkt.length < q.ownLeft → u.out = s.out ∧ (u.port .tile o).byp = q.byp ++ [k] ∧
        (u.port .tile o).ownLeft = q.ownLeft - pkt.length)) ∧
    (s.lnkSt .tile o = 5 → s.lnkTx .tile o = 2 → u.lnkTx .tile o = 3) ∧
    (¬ carries → ¬ (s.lnkSt .tile o = 5 ∧ s.lnkTx .tile o = 2) → u = s)) ∧
  (∀ (k : Fin 16) (pkt : Packet) (s : State), s.hears .sender k.val = true → (s.port .sender k.val).unframed = false →
    Pkt.hcrcOk pkt = true → Pkt.lenOk pkt = true →
    (Pkt.crcOk pkt = false → Pkt.stomped pkt = false → s.discards pkt = true ∨ Pkt.senderCmd pkt = false → ∃ t : State,
      exec (.lnkDiscard k pkt) s = .next t ∧
      t.rd .sender (Reg.LNK_CRC_ERR k.val) = s.rd .sender (Reg.LNK_CRC_ERR k.val) + 1) ∧
    (Pkt.crcOk pkt = true → s.discards pkt = true → ∃ t : State, exec (.lnkDiscard k pkt) s = .next t ∧
      t.rd .sender (Reg.LNK_PASSED k.val) = s.rd .sender (Reg.LNK_PASSED k.val) + 1 ∧
      (s.tapTakes .sender = false → t.pendBit .sender (Ev.LNK_DISCARD k.val) = true)) ∧
    (Pkt.crcOk pkt = true → s.discards pkt = false → exec (.lnkDiscard k pkt) s = .next s)) ∧
  (∀ (port : LnkPort) (level peak : Fin 129) (s : State), port.part = .tile → s.alive .tile = true →
    let i := port.idx
    let q := s.port .tile i
    let own := q.own
    let low := min level.val q.level
    (s.txActive .tile i = false ∨ ownFirst own = none → exec (.ownPacketSend port level peak) s = .next s) ∧
    (∀ n, s.txActive .tile i = true → ownFirst own = some n → i < s.tile.ports.length →
      let pkt := own.getD n []
      (128 < low + pkt.length → exec (.ownPacketSend port level peak) s = .next s) ∧
      (low + pkt.length ≤ 128 → ∃ t : State, exec (.ownPacketSend port level peak) s = .next t ∧
        t.out = s.out ++ q.byp.map (Output.packet port) ++ [.packet port (s.stampTime pkt)] ∧
        (t.port .tile i).ownLeft = pkt.length ∧ (t.port .tile i).own = own.eraseIdx n ∧
        t.fldOf .tile (Reg.LNK_BYP_MAX i) 7 0 =
          max (s.fldOf .tile (Reg.LNK_BYP_MAX i) 7 0) (max low (min peak.val (low + pkt.length))) ∧
        (∀ m, m < own.length → ownClass pkt ≤ ownClass (own.getD m [])) ∧
        ∀ m, m < n → ownClass (own.getD m []) ≠ ownClass pkt)))

/-- R287 to R290, R292, R294: GO takes the request and makes the first attempt; when the request has gone out a
broadcast is SENT, a PING waits for its presence sample and any other request for its response, which ends the
transaction with its bytes, or with an error; a collision leads to another attempt, the eighth to its end; ABORT and
silence end it with RESULT 3. Each end clears BUSY and raises PV_DONE. BIAS_SEEN is set where the pair is held high,
and PV_BIAS reports a pair that drops; nothing goes out on the cross-link's pair. -/
def Obligations.PorvalMaster : Prop :=
  ∀ (k : Fin 16) (s : State), s.alive .sender = true → k.val < s.sender.ports.length →
    let q := s.port .sender k.val
    let stat := s.rd .sender (Reg.LNK_PV_STAT k.val)
    let raised := fun (id : Nat) (t : State) => s.tapTakes .sender = false → t.pendBit .sender id = true
    let phase := fun (x : PvPhase) (t : State) => (t.port .sender k.val).pv = x
    let ends := fun (res bytes : Nat) (t : State) => phase .idle t ∧
      bit (t.rd .sender (Reg.LNK_PV_STAT k.val)) 31 = false ∧ t.fldOf .sender (Reg.LNK_PV_STAT k.val) 30 28 = res ∧
      t.fldOf .sender (Reg.LNK_PV_STAT k.val) 22 16 = bytes ∧ raised (Ev.PV_DONE k.val) t ∧
      (res = 5 → raised (Ev.PV_COLLISION k.val) t)
    (bit stat 31 = false → exec (.pvAbort k) s = .next s ∧ ∃ t : State, exec (.pvGo k) s = .next t ∧ phase .sending t ∧
      (t.port .sender k.val).pvTx = s.pvRequest k.val ∧
      t.rd .sender (Reg.LNK_PV_STAT k.val) = (if s.pvHigh k.val = true then 0x80000101 else 0x80000001)) ∧
    (bit stat 31 = true → exec (.pvGo k) s = .next s ∧ ∃ t : State, exec (.pvAbort k) s = .next t ∧ ends 3 0 t) ∧
    (q.pv = .sending →
      (s.pvPair k.val = true → ∃ t : State, exec (.pvRequestEnd k) s = .next t ∧ Output.porval k.val (pvSeal q.pvTx) ∈ t.out ∧
        (pvCmd q.pvTx = 2 → phase .sample t) ∧ (pvCmd q.pvTx ≠ 2 → pvAddr q.pvTx = 2 ^ 64 - 1 → ends 6 0 t) ∧
        (pvCmd q.pvTx ≠ 2 → pvAddr q.pvTx ≠ 2 ^ 64 - 1 → phase .await t)) ∧
      (8 ≤ fld stat 3 0 → ∃ t : State, exec (.porvalCollisionSeen k) s = .next t ∧ ends 5 0 t) ∧
      (fld stat 3 0 < 8 → ∃ t : State, exec (.porvalCollisionSeen k) s = .next t ∧ phase .backoff t)) ∧
    (q.pv ≠ .sending ∨ s.pvPair k.val = false → exec (.pvRequestEnd k) s = .next s) ∧
    (q.pv ≠ .sending → exec (.porvalCollisionSeen k) s = .next s) ∧
    (q.pv = .backoff → ∃ t : State, exec (.pvRetry k) s = .next t ∧ phase .sending t ∧
      t.fldOf .sender (Reg.LNK_PV_STAT k.val) 3 0 = (fld stat 3 0 + 1) % 16) ∧
    (q.pv ≠ .backoff → exec (.pvRetry k) s = .next s) ∧
    (∀ b : List Byte, (q.pv = .await →
        (pvSound b = true → ∃ t : State, exec (.pvResponse k b) s = .next t ∧ ends 0 (b.length - 5) t ∧
          ∀ j, j < 19 → t.rd .sender (Reg.LNK_PV_RX k.val j) =
            (let x := (pvBody b).dropLast.dropLast; (wordsLE (x ++ List.replicate (76 - x.length) 0)).getD j 0)) ∧
        (pvSound b = false → ∃ t : State, exec (.pvResponse k b) s = .next t ∧ ends 4 0 t)) ∧
      (q.pv ≠ .await → exec (.pvResponse k b) s = .next s)) ∧
    (q.pv = .await → ∃ t : State, exec (.pvNoAnswer k) s = .next t ∧ ends 3 0 t) ∧
    (q.pv ≠ .await → exec (.pvNoAnswer k) s = .next s) ∧
    (∀ low : Bool, (q.pv = .sample → ∃ t : State, exec (.pingPresenceSample k low) s = .next t ∧
        ends (if low = true then 1 else 2) 0 t) ∧
      (q.pv ≠ .sample → exec (.pingPresenceSample k low) s = .next s)) ∧
    (q.pv = .idle → s.pvHigh k.val = true → ∃ t : State, exec (.pvBias k) s = .next t ∧ bit (t.rd .sender (Reg.LNK_PV_STAT k.val)) 8 = false ∧
      raised (Ev.PV_BIAS k.val) t) ∧
    (q.pv ≠ .idle ∨ s.pvHigh k.val = false → exec (.pvBias k) s = .next s)

/-- R288, R290, R427, R437, R477: what the tile's Porval domain answers. A frame with a bad length or CRC, or while
the domain has no supply, changes nothing. ROLL_RESET clears NOTED, a PING of its prefix answers with a presence
pulse unless noted, NOTE sets it; IDENT, ACC_READ, CHALLENGE and FETCH answer as their rules say; WAKE pulls
WAKE_OUT_N low. -/
def Obligations.PorvalDomain : Prop :=
  ∀ (f : List Byte) (s : State),
    let b := pvBody f
    let heard := fun (cmd : Nat) => s.pvd.powered = true ∧ pvSound f = true ∧ pvCmd b = cmd
    let own := pvAddr b = tileId
    let arg := ((pvPayload b).getD 0 0).toNat
    let answers := fun (cmd : Nat) (pay : List Byte) (t : State) => t.out = s.out ++ [.porvalResp (pvSeal
      (BitVec.ofNat 8 (cmd + 128) :: bytesOfNatBE 8 tileId ++ BitVec.ofNat 8 pay.length :: pay))]
    let same := fun (t : State) => (∀ p a, t.rd p a = s.rd p a) ∧ t.sender = s.sender ∧ t.snd = s.snd
    let busy := s.pvd.busy = true ∨ bit (s.rd .tile Reg.IDN_CHAL_STAT) 31 = true
    let lit := bit (s.rd .tile Reg.SYS_PWR_STAT) 0 = true ∧ bit (s.rd .tile Reg.SYS_PWR_STAT) 1 = true
    (s.pvd.powered = false ∨ pvSound f = false → ∀ i ∈ ([.rollReset f, .ping f, .note f, .ident f, .accRead f,
      .challenge f, .fetch f, .wake f] : List Instr), exec i s = .next s) ∧
    (heard 1 → pvAddr b = 2 ^ 64 - 1 → ∃ t : State, exec (.rollReset f) s = .next t ∧ t.pvd.noted = false ∧ same t ∧
      t.out = s.out) ∧
    (heard 2 → (arg ≤ 64 ∧ prefixSame arg (pvAddr b) tileId = true ∧ s.pvd.noted = false →
        exec (.ping f) s = .next (s.emit .presence)) ∧
      (64 < arg ∨ prefixSame arg (pvAddr b) tileId = false ∨ s.pvd.noted = true → exec (.ping f) s = .next s)) ∧
    (heard 3 → own → ∃ t : State, exec (.note f) s = .next t ∧ t.pvd.noted = true ∧ same t ∧ answers 3 [0] t) ∧
    (heard 4 → own → ∃ t : State, exec (.ident f) s = .next t ∧ same t ∧ t.pvd = s.pvd ∧ answers 4 [0, 0x31, 0xA2,
      BitVec.ofNat 8 ((decide lit).toNat + 2 * s.tile.acc.valid.toNat + 4 * s.pvd.noted.toNat), s.pvd.lastPos.setWidth 8] t) ∧
    (heard 5 → own → ∃ t : State, exec (.accRead f) s = .next t ∧ same t ∧ t.pvd = s.pvd ∧
      answers 5 (0 :: ((bytesBE s.tile.acc.words).drop arg).take 32) t) ∧
    (heard 6 → own →
      (busy → ∃ t : State, exec (.challenge f) s = .next t ∧ t.pvd.refused = true ∧ t.pvd.nonce = s.pvd.nonce ∧
        answers 6 [2] t ∧ (lit → bit (t.rd .tile Reg.IDN_CHAL_STAT) 29 = true)) ∧
      (¬ busy → ∃ t : State, exec (.challenge f) s = .next t ∧ t.pvd.busy = true ∧ t.pvd.refused = false ∧
        t.pvd.nonce = (pvPayload b).take 32 ∧ answers 6 [1] t ∧
        (lit → t.rd .tile Reg.IDN_CHAL_STAT = 0x80000001))) ∧
    (heard 7 → own →
      (s.pvd.busy = true → ∃ t : State, exec (.fetch f) s = .next t ∧ t.pvd = s.pvd ∧ answers 7 [1] t) ∧
      (s.pvd.busy = false → s.pvd.refused = true ∨ s.pvd.result = [] → ∃ t : State, exec (.fetch f) s = .next t ∧
        t.pvd = s.pvd ∧ answers 7 [2] t) ∧
      (s.pvd.busy = false → s.pvd.refused = false → s.pvd.result ≠ [] → ∃ t : State, exec (.fetch f) s = .next t ∧
        t.pvd.part = !s.pvd.part ∧ t.pvd.result = s.pvd.result ∧ answers 7 (0 :: (if s.pvd.part = true then 1 else 0) ::
          (if s.pvd.part = true then s.pvd.result.drop 32 else s.pvd.result.take 32)) t)) ∧
    (heard 8 → own ∨ pvAddr b = 2 ^ 64 - 1 → ∃ t : State, exec (.wake f) s = .next t ∧ t.pvd.wakePulse = true ∧
      (s.alive .tile = true → lit → s.tapTakes .tile = false → t.pendBit .tile Ev.PV_WAKE = true) ∧
      (own → answers 8 [0] t) ∧ (¬ own → t.out = s.out)) ∧
    ((∀ n, n ≠ 1 → n ≠ 2 → heard n → ¬ own → pvAddr b ≠ 2 ^ 64 - 1 → ∀ i ∈ ([.rollReset f, .note f, .ident f, .accRead f,
      .challenge f, .fetch f, .wake f] : List Instr), exec i s = .next s))

/-- R295 to R298, R303, R309: the loan record of the tile. A packet that is not for it, or not from the side of its
sender, changes nothing; one with a bad term is counted. The holder's RENEW and CLAIM set the expiry to the earlier
of EXPIRY and now + TERM; a CLAIM without a holder, NONE at the start of its cycle, is granted, of the other sender
it is kept; RELEASE ends the loan at E, when a fresh claim takes it; the expiry ends it too, and an orphaned tile
says so once. -/
def Obligations.LoanRecord : Prop :=
  (∀ (port : LnkPort) (pkt : Packet) (s : State), port.part = .tile → TileTakes port.idx pkt s →
    let u := s.heard port.idx pkt
    let l := letterOfPort port.idx
    let term := Pkt.w pkt 2
    let now := s.wall .tile
    let d := (Pkt.w pkt 3 - now).toInt
    let sound := 250000 ≤ term.toNat ∧ term.toNat ≤ 100000000 ∧ 1 ≤ d ∧ d ≤ term.toNat
    let mine := letterOf (Pkt.w pkt 4) = l ∧ ∃ n, s.tilePos = some n ∧ loanFirst pkt ≤ n ∧ n ≤ loanLast pkt
    let till := if (Pkt.w pkt 3 - (now + term)).toInt ≤ 0 then Pkt.w pkt 3 else now + term
    let raised := fun (id : Nat) (t : State) => s.tapTakes .tile = false → t.pendBit .tile id = true
    let renews := fun (c : Instr) => ∃ t : State, exec c s = .next t ∧ t.rd .tile Reg.LOAN_EXPIRY = till ∧
      t.rd .tile Reg.LOAN_REC_TERM = term ∧ t.rd .tile Reg.LOAN_REC = s.rd .tile Reg.LOAN_REC ∧ t.til.renewAt = s.elapsed .tile ∧
      t.out = u.out
    let falls := fun (t : State) => t.rd .tile Reg.LOAN_REC = 0 ∧ t.rd .tile Reg.LOAN_EXPIRY = 0 ∧
      t.rd .tile Reg.LOAN_REL_TIME = 0 ∧ t.til.noneAt = s.elapsed .tile ∧ raised Ev.LOAN_RELEASED t
    let granted := fun (x : Letter) (e w : Word) (t : State) =>
      t.rd .tile Reg.LOAN_REC = BitVec.ofNat 32 (holderCode x * 2 ^ 30 + 2 ^ 28) ∧ t.rd .tile Reg.LOAN_EXPIRY = e ∧
      t.rd .tile Reg.LOAN_REC_TERM = w ∧ t.rd .tile Reg.LOAN_GRANTS = s.rd .tile Reg.LOAN_GRANTS + 1 ∧
      raised Ev.LOAN_GRANT t
    let counted := fun (c : Instr) => ∃ t : State, exec c s = .next t ∧
      t.rd .tile Reg.LOAN_BADPKT = s.rd .tile Reg.LOAN_BADPKT + 1 ∧ t.rd .tile Reg.LOAN_REC = s.rd .tile Reg.LOAN_REC ∧
      t.rd .tile Reg.LOAN_EXPIRY = s.rd .tile Reg.LOAN_EXPIRY
    (Pkt.is pkt 6 0 = true →
      (¬ sound → counted (.loanRenew port pkt)) ∧
      (sound → ¬ (mine ∧ s.holder = some l) → exec (.loanRenew port pkt) s = .next u) ∧
      (sound → mine → s.holder = some l → renews (.loanRenew port pkt))) ∧
    (Pkt.is pkt 6 1 = true →
      (¬ sound → counted (.loanClaim port pkt)) ∧
      (sound → ¬ mine → exec (.loanClaim port pkt) s = .next u) ∧
      (sound → mine → s.holder = some l → renews (.loanClaim port pkt)) ∧
      (sound → mine → s.holder = none → s.noneBefore = true →
        ∃ t : State, exec (.loanClaim port pkt) s = .next t ∧ granted l till term t) ∧
      (sound → mine → s.holder = none → s.noneBefore = false →
        exec (.loanClaim port pkt) s = .next (u.keepClaim ⟨l, till, term, s.elapsed .tile⟩)) ∧
      (sound → mine → s.holder = some (otherLetter l) →
        (l = .b ∨ (∀ m, s.til.granted = some m → m.at' ≠ s.elapsed .tile) →
          exec (.loanClaim port pkt) s = .next (u.keepClaim ⟨l, till, term, s.elapsed .tile⟩)) ∧
        (∀ m, l = .a → s.til.granted = some m → m.at' = s.elapsed .tile →
          ∃ t : State, exec (.loanClaim port pkt) s = .next t ∧ t.holder = some .a ∧ t.rd .tile Reg.LOAN_EXPIRY = till ∧
            t.rd .tile Reg.LOAN_REC_TERM = term ∧ t.rd .tile Reg.LOAN_GRANTS = s.rd .tile Reg.LOAN_GRANTS))) ∧
    (Pkt.is pkt 6 2 = true → (Pkt.w pkt 3 = 0 ∨ d ≤ 100000000) →
      (¬ (mine ∧ s.holder = some l) → exec (.loanRelease port pkt) s = .next u) ∧
      (mine → s.holder = some l →
        (Pkt.w pkt 3 ≠ 0 → 0 < d → ∃ t : State, exec (.loanRelease port pkt) s = .next t ∧
          t.rd .tile Reg.LOAN_REL_TIME = Pkt.w pkt 3 ∧ t.rstate = 2 ∧ t.holder = some l ∧
          t.rd .tile Reg.LOAN_EXPIRY = s.rd .tile Reg.LOAN_EXPIRY) ∧
        (Pkt.w pkt 3 = 0 ∨ d ≤ 0 → s.freshClaim = none → ∃ t : State, exec (.loanRelease port pkt) s = .next t ∧ falls t) ∧
        (∀ c, Pkt.w pkt 3 = 0 ∨ d ≤ 0 → s.freshClaim = some c → ∃ t : State, exec (.loanRelease port pkt) s = .next t ∧
          granted c.letter c.expiry c.term t ∧ raised Ev.LOAN_RELEASED t)))) ∧
  (∀ s : State, s.alive .tile = true →
    let now := s.wall .tile
    let raised := fun (id : Nat) (t : State) => s.tapTakes .tile = false → t.pendBit .tile id = true
    let ends := s.rstate = 2 ∧ (s.rd .tile Reg.LOAN_REL_TIME - now).toInt ≤ 0
    let ended := s.rstate ≠ 0 ∧ (s.rd .tile Reg.LOAN_EXPIRY - now).toInt ≤ 0
    let alone := s.rstate = 0 ∧ s.til.orphan = false ∧
      s.til.noneAt + s.fldOf .tile Reg.LOAN_ORPHAN_TO 15 0 * 1000000 ≤ s.elapsed .tile
    (¬ ends → exec .loanReleased s = .next s) ∧
    (ends → s.freshClaim = none → ∃ t : State, exec .loanReleased s = .next t ∧ t.rd .tile Reg.LOAN_REC = 0 ∧
      raised Ev.LOAN_RELEASED t) ∧
    (∀ c, ends → s.freshClaim = some c → ∃ t : State, exec .loanReleased s = .next t ∧ t.holder = some c.letter ∧
      t.rstate = 1 ∧ t.rd .tile Reg.LOAN_EXPIRY = c.expiry ∧ raised Ev.LOAN_GRANT t ∧ raised Ev.LOAN_RELEASED t) ∧
    (ends → exec .loanExpired s = exec .loanReleased s) ∧
    (¬ ends → ¬ ended → exec .loanExpired s = .next s) ∧
    (¬ ends → ended → ∃ t : State, exec .loanExpired s = .next t ∧ t.rd .tile Reg.LOAN_REC = 0 ∧
      t.rd .tile Reg.LOAN_EXPIRIES = s.rd .tile Reg.LOAN_EXPIRIES + 1 ∧ raised Ev.LOAN_EXPIRED t) ∧
    (¬ alone → exec .loanOrphan s = .next s) ∧
    (alone → ∃ t : State, exec .loanOrphan s = .next t ∧ t.til.orphan = true ∧ raised Ev.LOAN_ORPHAN t) ∧
    (s.tilePos = none → exec .stateSend s = .next s) ∧
    (s.tilePos ≠ none → s.tile.ports.length = 2 → ∃ t : State, exec .stateSend s = .next t ∧
      ∀ i, i < 2 → (t.port .tile i).own =
        (s.port .tile i).own ++ (if s.txActive .tile i = true then [s.statePacket] else [])))

/-- R302, R304 to R307: what the sender sends for its loans, a RENEW or CLAIM over each run of its positions,
RELEASE copies and beats; what it keeps of the holders that tiles report; and the heartbeat paths, of which the last
one lost raises PEER_LOST. A write that would exclude more than 3 positions of a chain is refused. -/
def Obligations.SenderLoans : Prop :=
  (∀ (k : Fin 16) (s : State), s.alive .sender = true →
    let on := s.loanOn k.val = true
    let awake := s.lnkTx .sender k.val ≠ 2
    let sends := fun (kind : Nat) (c : Instr) => ∃ t : State, exec c s = .next t ∧ (awake → (∀ p a, t.rd p a = s.rd p a) ∧
      t.out = s.out ++ (if s.txActive .sender k.val = true then (runsOf (s.ownPositions k.val)).map (fun r =>
        Output.packet (.chain k) (mkPacket 6 0x7F 0 0x7E (BitVec.ofNat 32 (kind * 2 ^ 28)) [s.rd .sender Reg.LOAN_TERM,
          s.wall .sender + s.rd .sender Reg.LOAN_TERM, loanK s.letter k.val r.1 r.2])) else []))
    (on → sends 0 (.renewSend k)) ∧ (¬ on → exec (.renewSend k) s = .next s) ∧
    (on → bit (s.rd .sender Reg.LOAN_CTRL) 30 = true → sends 1 (.claimSend k)) ∧
    (¬ on ∨ bit (s.rd .sender Reg.LOAN_CTRL) 30 = false → exec (.claimSend k) s = .next s) ∧
    (∀ n, (n < s.chainLen k.val ∧ (s.exclMap k.val).testBit n = false) ↔
      ∃ r ∈ runsOf (s.ownPositions k.val), r.1 ≤ n ∧ n ≤ r.2) ∧
    (AMap.find s.snd.release k.val = none → exec (.releaseSend k) s = .next s) ∧
    (∀ j, AMap.find s.snd.release k.val = some j → ∃ t : State, exec (.releaseSend k) s = .next t ∧ (awake →
      t.out = s.out ++ (if s.txActive .sender k.val = true then [.packet (.chain k) (mkPacket 6 0x7F 0 0x7E 0x20000000
        [0, j.e, loanK s.letter k.val 0 (s.chainLen k.val - 1)])] else []) ∧
      AMap.find t.snd.release k.val = (if j.left ≤ 1 then none else some { j with left := j.left - 1 }))) ∧
    (∀ (hi : Bool) (v : Word),
      let other := s.rd .sender (if hi = true then Reg.LOAN_EXCL_LO k.val else Reg.LOAN_EXCL_HI k.val)
      let count := fun (w : Word) => ((List.range 32).filter fun i => bit w i).length
      (3 < count v + count other → ∃ t : State, exec (.loanExclWrite k hi v) s = .next t ∧
        Raises .sender [Ev.LOAN_EXCL_DENIED] s t) ∧
      (count v + count other ≤ 3 → exec (.loanExclWrite k hi v) s =
        .next (s.wr .sender (if hi = true then Reg.LOAN_EXCL_HI k.val else Reg.LOAN_EXCL_LO k.val) v))) ∧
    (∀ pkt : Packet, SenderTakes k.val pkt s → Pkt.is pkt 6 3 = true → Pkt.src pkt < 64 →
      let h := fld (Pkt.w pkt 1) 27 26
      ∃ t : State, exec (.loanState k pkt) s = .next t ∧ (t.seenMap k.val).testBit (Pkt.src pkt) = true ∧
        ((t.heldMap k.val).testBit (Pkt.src pkt) = true ↔ h = holderCode s.letter) ∧
        (∀ n, n ≠ Pkt.src pkt → n < 64 → (t.heldMap k.val).testBit n = (s.heldMap k.val).testBit n)) ∧
    (∀ pos : Fin 64,
      let lost := (s.seenMap k.val).testBit pos.val = true ∧
        (AMap.find s.snd.seenAt (64 * k.val + pos.val)).getD 0 + 3000000 ≤ s.elapsed .sender
      (lost → ∃ t : State, exec (.seenTimeout k pos) s = .next t ∧
        (t.seenMap k.val).testBit pos.val = false ∧ (t.heldMap k.val).testBit pos.val = false ∧
        (s.tapTakes .sender = false → t.pendBit .sender (Ev.HELD_CHANGE k.val) = true)) ∧
      (¬ lost → exec (.seenTimeout k pos) s = .next s))) ∧
  (∀ s : State, s.alive .sender = true →
    let stat := s.rd .sender Reg.LOAN_STAT
    let chn := s.rd .sender Reg.LOAN_BEAT_CHN
    let raised := fun (id : Nat) (t : State) => s.tapTakes .sender = false → t.pendBit .sender id = true
    let late := fun (at' : Nat) => at' + s.missTime ≤ s.elapsed .sender
    (s.loanSt = 0 → exec .beatSend s = .next s) ∧
    (s.loanSt ≠ 0 → ∃ t : State, exec .beatSend s = .next t ∧ t.snd.beatSeq = s.snd.beatSeq + 1 ∧
      ((∀ k, k < 16 → s.lnkTx .sender k ≠ 2) → t.out = s.out ++ (List.finRange 16).filterMap (fun k =>
        if (s.isChain k.val = true ∨ s.isCross k.val = true) ∧ s.txActive .sender k.val = true then
          some (.packet (.chain k) (t.beatPacket k.val)) else none))) ∧
    (∀ (k : Fin 16) (pkt : Packet), SenderTakes k.val pkt s → Pkt.type pkt = 7 → s.isCross k.val = false →
      ∃ t : State, exec (.beat k pkt) s = .next t ∧ t.rd .sender Reg.LOAN_BEAT_SEQ = Pkt.w pkt 2 ∧
        bit (t.rd .sender Reg.LOAN_BEAT_CHN) k.val = true ∧ AMap.find t.snd.beatAt k.val = some (s.elapsed .sender) ∧
        (s.snd.peerLost = true → t.snd.peerLost = false ∧ raised Ev.PEER_FOUND t) ∧
        (s.snd.peerLost = false → t.fldOf .sender Reg.LOAN_STAT 23 16 = fld (Pkt.w pkt 4) 23 16 ∧
          bit (t.rd .sender Reg.LOAN_STAT) 29 = true ∧ bit (t.rd .sender Reg.LOAN_STAT) 28 = true)) ∧
    (∀ k : Fin 16,
      let lost := bit chn k.val = true ∧ late ((AMap.find s.snd.beatAt k.val).getD 0)
      (¬ lost → exec (.chainBeatLost k) s = .next s) ∧
      (lost → ∃ t : State, exec (.chainBeatLost k) s = .next t ∧
        bit (t.rd .sender Reg.LOAN_BEAT_CHN) k.val = false ∧ raised (Ev.CHAIN_BEAT_LOST k.val) t ∧
        (bit stat 27 = false → (∀ j, j < 16 → j ≠ k.val → bit chn j = false) →
          t.snd.peerLost = true ∧ raised Ev.PEER_LOST t))) ∧
    (¬ (bit stat 27 = true ∧ late s.snd.crossAt) → exec .xpathLost s = .next s) ∧
    (bit stat 27 = true → late s.snd.crossAt → ∃ t : State, exec .xpathLost s = .next t ∧ raised Ev.XPATH_LOST t ∧
      ((∀ j, j < 16 → bit chn j = false) → t.snd.peerLost = true ∧ raised Ev.PEER_LOST t)) ∧
    (∀ v : Word, (bit (s.rd .sender Reg.LOAN_CTRL) 29 = false → exec (.loanXbeat v) s = .next s) ∧
      (bit (s.rd .sender Reg.LOAN_CTRL) 29 = true → s.snd.peerLost = false → ∃ t : State,
        exec (.loanXbeat v) s = .next t ∧ t.fldOf .sender Reg.LOAN_STAT 23 16 = fld v 23 16 ∧
        bit (t.rd .sender Reg.LOAN_STAT) 27 = true ∧ bit (t.rd .sender Reg.LOAN_STAT) 29 = true)))

/-- R310, R311: a stocktake. GO starts one unless one is pending; a scheduled one is due for the frames that INT and
PHASE name. The check, 1 ms before the release time on a running schedule, either releases chains, with three copies
of RELEASE each, or ends the stocktake with the reason; 3 ms after the release the stocktake is DONE, or PARTIAL
while a released position is held. -/
def Obligations.Stocktakes : Prop :=
  ∀ s : State, s.alive .sender = true →
    let stat := fun (t : State) => t.rd .sender Reg.LOAN_STK_STAT
    let now := s.wall .sender
    let raised := fun (id : Nat) (t : State) => s.tapTakes .sender = false → t.pendBit .sender id = true
    let job := fun (one : Bool) (t : State) => if one = true then t.snd.stkOne else t.snd.stkSched
    (∀ chains : BitVec 16, (bit (stat s) 31 = true → exec (.loanStkGo chains) s = .next s) ∧
      (bit (stat s) 31 = false → ∃ t : State, exec (.loanStkGo chains) s = .next t ∧ bit (stat t) 31 = true ∧
        t.snd.stkOne = some ⟨chains.toNat, s.rd .sender Reg.LOAN_STK_FRAME, s.elapsed .sender, false, 0, none, 0⟩)) ∧
    (∀ f : Word,
      let int := s.fldOf .sender Reg.LOAN_STK_INT 23 0
      let due := int ≠ 0 ∧ f.toNat % int = s.fldOf .sender Reg.LOAN_STK_PHASE 23 0 ∧ s.snd.stkSched = none
      (due → ∃ t : State, exec (.stocktakeDue f) s = .next t ∧
        t.snd.stkSched = some ⟨s.fldOf .sender Reg.LOAN_STK_CHN 15 0, f, 0, false, 0, none, 0⟩ ∧
        (∀ p a, t.rd p a = s.rd p a)) ∧
      (¬ due → exec (.stocktakeDue f) s = .next s)) ∧
    (∀ one : Bool,
      (job one s = none → exec (.stocktakeCheck one) s = .next s ∧ exec (.stocktakeResult one) s = .next s) ∧
      (∀ j, job one s = some j →
        let e := s.senderLatch (j.frame - 1)
        let plan := stkChains one j s (List.range 16)
        let due := j.checked = false ∧ s.schedOn .sender = true ∧ s.stkDist j ≤ 1000000
        (¬ due → exec (.stocktakeCheck one) s = .next s) ∧
        (due → one = true ∨ bit (stat s) 31 = false →
          (plan.1 ≠ 0 → ∃ t : State, exec (.stocktakeCheck one) s = .next t ∧ bit (stat t) 31 = true ∧
            (∀ k, k < 16 → plan.1.testBit k = true → AMap.find t.snd.release k = some ⟨e, 3⟩) ∧
            job one t = some { j with checked := true, released := plan.1, result := plan.2, e := e }) ∧
          (∀ r, plan.1 = 0 → plan.2 = some r → 2 ≤ r → r ≤ 5 → ∃ t : State, exec (.stocktakeCheck one) s = .next t ∧
            stat t = BitVec.ofNat 32 (r * 2 ^ 28) ∧ job one t = none ∧ raised Ev.STK_SKIP t) ∧
          (plan.1 = 0 → plan.2 = none → ∃ t : State, exec (.stocktakeCheck one) s = .next t ∧ job one t = none ∧
            bit (stat t) 31 = false ∧ t.out = s.out ∧ (∀ p a, a ≠ Reg.LOAN_STK_STAT → t.rd p a = s.rd p a))) ∧
        (due → one = false → bit (stat s) 31 = true →
          ∃ t : State, exec (.stocktakeCheck one) s = .next t ∧ stat t = 0xE0000000 ∧ job one t = none ∧
            raised Ev.STK_SKIP t) ∧
        (j.checked = false ∨ 0 < (j.e + 3000000 - now).toInt → exec (.stocktakeResult one) s = .next s) ∧
        (j.checked = true → (j.e + 3000000 - now).toInt ≤ 0 → j.released < 65536 →
          let part := ∃ k n, k < 16 ∧ j.released.testBit k = true ∧ n ∈ s.ownPositions k ∧ (s.heldMap k).testBit n = true
          ∃ t : State, exec (.stocktakeResult one) s = .next t ∧ job one t = none ∧
            (part → stat t = BitVec.ofNat 32 (2 ^ 28 + j.released) ∧ raised Ev.STK_PARTIAL t) ∧
            (¬ part → stat t = BitVec.ofNat 32 j.released ∧ raised Ev.STK_DONE t ∧
              t.rd .sender Reg.LOAN_STK_COUNT = s.rd .sender Reg.LOAN_STK_COUNT + 1))))

/-- R283, R319, R320: a PIX packet with a sound header. One for all tiles is forwarded and no more. One for the
tile: with a bad CRC it is counted and nothing is stored; of a port that is not its sender's, or of a slot that is
not used, it is a stray; of the bound sender and the open frame it is stored, or counted as a duplicate; the
holder's opens a frame, abandoning an open one of an earlier number; an earlier frame of the bound sender is a
stray; any other is not stored. Storing sets the packet's valid bit with its words and no other. -/
def Obligations.PixReceived : Prop :=
  ∀ (port : LnkPort) (pkt : Packet) (s : State), port.part = .tile → s.hears .tile port.idx = true →
    (s.port .tile port.idx).unframed = false → Pkt.hcrcOk pkt = true → Pkt.lenOk pkt = true → Pkt.type pkt = 1 →
    (Pkt.dest pkt = 0x7F → Pkt.crcOk pkt = true → exec (.pix port pkt) s = .next (s.fwd port.idx pkt)) ∧
    (Pkt.dest pkt ≠ 0x7F → s.destOwn pkt = false → exec (.pix port pkt) s = .next s) ∧
    (Pkt.dest pkt ≠ 0x7F → s.destOwn pkt = true →
    let u := s.heard port.idx pkt
    let l := letterOf (Pkt.w pkt 3)
    let f := Pkt.w pkt 2
    let now := s.rd .tile Reg.PIX_RX_FRAME
    let key := pixKey (Pkt.slot pkt) (Pkt.row pkt) (Pkt.colg pkt)
    let ws := (Pkt.body pkt).drop 2
    let same := fun (t : State) => t.til.pix.pixRx = s.til.pix.pixRx ∧ t.til.pix.pixDisp = s.til.pix.pixDisp ∧
      t.rd .tile Reg.PIX_STAT = s.rd .tile Reg.PIX_STAT ∧ t.rd .tile Reg.PIX_RX_FRAME = now ∧ t.out = u.out
    let stores := fun (old : List (Nat × List Word)) (t : State) => AMap.find t.til.pix.pixRx key = some ws ∧
      (∀ k, k ≠ key → AMap.find t.til.pix.pixRx k = AMap.find old k) ∧ t.til.pix.pixDisp = s.til.pix.pixDisp ∧
      t.rxBound = some l ∧ t.rxState = 1 ∧ t.rd .tile Reg.PIX_RX_FRAME = f
    let counts := fun (a : Nat) => ∃ t : State, exec (.pix port pkt) s = .next t ∧ same t ∧ t.rd .tile a = s.rd .tile a + 1
    let stray := l ≠ letterOfPort port.idx ∨ s.slots .tile ≤ Pkt.slot pkt
    let open' := s.rxBound = some l ∧ f = now ∧ s.rxState = 1
    let opens := s.holder = some l ∧ (s.rxState = 0 ∨ laterFrame f now = true)
    let late := s.rxBound = some l ∧ laterFrame now f = true
    (Pkt.crcOk pkt = false → ∃ t : State, exec (.pix port pkt) s = .next t ∧
      t.rd .tile Reg.PIX_CRC = s.rd .tile Reg.PIX_CRC + 1 ∧ t.rd .tile Reg.PIX_RX_FRAME = now ∧
      t.til.pix.pixDisp = s.til.pix.pixDisp) ∧
    (Pkt.crcOk pkt = true →
      (stray → counts Reg.PIX_STRAY) ∧
      (¬ stray → s.safe .tile = true → exec (.pix port pkt) s = .next u) ∧
      (¬ stray → s.safe .tile = false →
        (open' → AMap.find s.til.pix.pixRx key ≠ none → counts Reg.PIX_DUP) ∧
        (open' → AMap.find s.til.pix.pixRx key = none → ∃ t : State, exec (.pix port pkt) s = .next t ∧
          stores s.til.pix.pixRx t) ∧
        (¬ open' → opens → s.rxState = 0 → ∃ t : State, exec (.pix port pkt) s = .next t ∧ stores s.til.pix.pixRx t) ∧
        (¬ open' → opens → s.rxState = 1 → ∃ v t : State, exec (.pix port pkt) s = .next t ∧
          Raises .tile [Ev.PIX_HOLD] v t ∧ stores [] v ∧ t.rd .tile Reg.PIX_ABANDON = s.rd .tile Reg.PIX_ABANDON + 1) ∧
        (¬ open' → opens → s.rxState = 2 → ∃ v t : State, exec (.pix port pkt) s = .next t ∧
          Raises .tile [Ev.PIX_OVERRUN] v t ∧ stores [] v ∧ t.rd .tile Reg.PIX_OVERRUN = s.rd .tile Reg.PIX_OVERRUN + 1) ∧
        (¬ open' → ¬ opens → late → counts Reg.PIX_STRAY) ∧
        (¬ open' → ¬ opens → ¬ late → ∃ t : State, exec (.pix port pkt) s = .next t ∧ same t ∧
          ∀ p a, t.rd p a = u.rd p a))))

/-- R320 to R323: an ABORT of the bound sender for the frame that is open abandons it, and any other changes
nothing. A SYNC for the open frame abandons it when NSLOT is not SLOTS, or when it is late; accepted, it counts the
packets missing and the signatures that did not come, and the frame is held and dropped, or closed for its swap.
R324, R326, R356: at START of slot 0 of the closed frame the two sets change places; before it nothing changes. A
slot window begins at its start and not before, once: a scan that has not ended is cut, and a tile that scans begins
the scan of the slot, which ends S lines later. -/
def Obligations.FrameFateAndSlotWindows : Prop :=
  (∀ (port : LnkPort) (pkt : Packet) (s : State), port.part = .tile → TileTakes port.idx pkt s →
     let u := s.heard port.idx pkt
     let named := u.safe .tile = false ∧ u.rxState = 1 ∧ Pkt.w pkt 2 = u.rd .tile Reg.PIX_RX_FRAME ∧
       u.rxBound = some (letterOf (Pkt.w pkt 3))
     let drops := fun (c : Instr) (a e : Nat) => ∃ v t : State, exec c s = .next t ∧ Raises .tile [e] v t ∧
       v.rxState = 0 ∧ v.til.pix.pixRx = [] ∧ v.til.pix.rxMis = [] ∧ t.til.pix.pixDisp = u.til.pix.pixDisp ∧
       t.rd .tile a = u.rd .tile a + 1
     (Pkt.type pkt = 8 → (¬ named → exec (.abort port pkt) s = .next u) ∧
       (named → drops (.abort port pkt) Reg.PIX_ABORTS Ev.PIX_ABORT)) ∧
     (Pkt.type pkt = 2 →
       let m := missingOf u.til.pix.pixRx (u.slots .tile)
       let held := (m ≠ 0 ∧ u.bitOf .tile Reg.PIX_CTRL 0 = false) ∨ u.sigHolds = true
       (¬ named → exec (.sync port pkt) s = .next u) ∧
       (named → Pkt.kind pkt ≠ u.slots .tile → drops (.sync port pkt) Reg.PIX_STRAY Ev.PIX_LATE) ∧
       (named → Pkt.kind pkt = u.slots .tile → (Pkt.w pkt 4 - u.wall .tile).toInt < 10000 →
         drops (.sync port pkt) Reg.PIX_LATE Ev.PIX_LATE) ∧
       (named → Pkt.kind pkt = u.slots .tile → 10000 ≤ (Pkt.w pkt 4 - u.wall .tile).toInt →
         ∃ v t : State, exec (.sync port pkt) s = .next t ∧
           Raises .tile ((if u.noSigs ≠ 0 then [Ev.SIG_NOSIG] else []) ++ if m ≠ 0 then [Ev.PIX_LOSS] else []) v t ∧
           t.rd .tile Reg.PIX_LOST = u.rd .tile Reg.PIX_LOST + BitVec.ofNat 32 m ∧
           t.rd .tile Reg.SIG_NOSIG = u.rd .tile Reg.SIG_NOSIG + BitVec.ofNat 32 u.noSigs ∧
           t.til.pix.sync = some ⟨Pkt.w pkt 2, u.baseOf .tile (Pkt.w pkt 2), syncSlots ((Pkt.body pkt).drop 2)⟩ ∧
           t.til.pix.pixDisp = u.til.pix.pixDisp ∧
           (held → v.rxState = 0 ∧ v.til.pix.pixRx = [] ∧ t.rd .tile Reg.PIX_HELD = u.rd .tile Reg.PIX_HELD + 1 ∧
             (u.tapTakes .tile = false → t.pendBit .tile Ev.PIX_HOLD = true)) ∧
           (¬ held → v.rxState = 2 ∧ v.rxBound = u.rxBound ∧ v.til.pix.pixRx = u.til.pix.pixRx ∧
             t.rd .tile Reg.PIX_HELD = u.rd .tile Reg.PIX_HELD)))) ∧
  (∀ s : State, s.alive .tile = true →
     let f := s.rd .tile Reg.PIX_RX_FRAME
     (∀ w, s.til.pix.sync = some w →
       let due := s.rxState = 2 ∧ w.frame = f ∧ ((w.slots.getD 0 (0, 0)).1 - s.wall .tile).toInt ≤ 0
       (¬ due → exec .pixSwap s = .next s) ∧
       (due → ∃ u t : State, exec .pixSwap s = .next t ∧ Raises .tile [Ev.PIX_SWAP] u t ∧ u.rxState = 0 ∧
         u.til.pix.pixRx = [] ∧ t.til.pix.pixDisp = s.til.pix.pixRx ∧ t.til.pix.dispMis = s.til.pix.rxMis ∧
         t.til.pix.deadRows = [] ∧ u.bitOf .tile Reg.PIX_STAT 29 = true ∧ t.rd .tile Reg.PIX_DISP_FRAME = f ∧
         t.rd .tile Reg.PIX_SHOWN = s.rd .tile Reg.PIX_SHOWN + 1)) ∧
     (s.til.pix.sync = none → exec .pixSwap s = .next s) ∧
     (∀ (n : Word) (slot : Fin 8),
       let start := s.slotStart n slot.val
       let due := slot.val < s.slots .tile ∧ s.windowKnown n = true ∧ s.windowNew n slot.val = true ∧
         (start - s.wall .tile).toInt ≤ 0
       let p := s.scanProg
       let stop := start + BitVec.ofNat 32 ((s.scanS * (32768 + s.scanK * s.scanB p)) * 5 * s.scanDiv / 2)
       (¬ due → exec (.slotWindowStart n slot) s = .next s) ∧
       (due → s.til.lmp.scan = none → s.scans = true → ∃ t : State, exec (.slotWindowStart n slot) s = .next t ∧
         t.til.lmp.scan = some ⟨n, slot.val, start, stop, 0⟩ ∧ t.til.lmp.drv = [] ∧ t.til.lmp.lit = [] ∧
         t.rd .tile Reg.SCAN_STAT = BitVec.ofNat 32 (2 ^ 31 + p * 2 ^ 30 + slot.val * 2 ^ 24) ∧
         t.til.pix.lastSlot = some slot.val ∧ t.rd .tile Reg.SCAN_CUT = s.rd .tile Reg.SCAN_CUT) ∧
       (due → s.til.lmp.scan = none → s.scans = false → ∃ t : State, exec (.slotWindowStart n slot) s = .next t ∧
         t.til.lmp.scan = none ∧ t.til.pix.lastSlot = some slot.val ∧ ∀ a, t.rd .tile a = s.rd .tile a) ∧
       (∀ c, due → s.til.lmp.scan = some c → (start - c.stop).toInt < 0 → s.tapTakes .tile = false →
         ∃ t : State, exec (.slotWindowStart n slot) s = .next t ∧ t.til.pix.lastSlot = some slot.val ∧
           t.rd .tile Reg.SCAN_CUT = s.rd .tile Reg.SCAN_CUT + 1 ∧ t.pendBit .tile Ev.SCAN_CUT = true) ∧
       (∀ c, due → s.til.lmp.scan = some c → 0 ≤ (start - c.stop).toInt →
         ∃ t : State, exec (.slotWindowStart n slot) s = .next t ∧ t.til.pix.lastSlot = some slot.val ∧
           t.rd .tile Reg.SCAN_CUT = s.rd .tile Reg.SCAN_CUT)))

/-- R313, R328: a SIG for a region that the tile does not declare changes nothing. From the bound sender for the
open frame it is skipped while a packet of the region is missing, matches, or is recorded as a mismatch, of which
the first of a frame raises SIG_MISMATCH. While a standby is checked, the signatures of the two senders for a frame,
region and slot are compared when the later of them arrives, and a frame raises STBY_MISMATCH at most once. -/
def Obligations.SignatureChecked : Prop :=
  ∀ (port : LnkPort) (pkt : Packet) (s : State), port.part = .tile → TileTakes port.idx pkt s → Pkt.type pkt = 9 →
    let u := s.heard port.idx pkt
    let e := (Pkt.w pkt 1).toNat / 2 ^ 26
    let slot := Pkt.slot pkt
    let g := u.sigRegion e
    let l := letterOf (Pkt.w pkt 4)
    let f := Pkt.w pkt 2
    let v := Pkt.w pkt 3
    let takes := u.safe .tile = false ∧ u.sigDeclared e slot = true
    let open' := u.rxState ≠ 0 ∧ u.rxBound = some l ∧ f = u.rd .tile Reg.PIX_RX_FRAME
    let here := g.present u.til.pix.pixRx slot = true
    let same := fun (t : State) => t.rd .tile Reg.SIG_MISS = u.rd .tile Reg.SIG_MISS ∧ t.til.pix.rxMis = u.til.pix.rxMis ∧
      t.rd .tile Reg.SIG_LAST = u.rd .tile Reg.SIG_LAST
    (¬ takes → exec (.sig port pkt) s = .next u) ∧
    (takes → u.standby = none →
      (¬ open' → exec (.sig port pkt) s = .next u) ∧
      (open' → ¬ here → ∃ t : State, exec (.sig port pkt) s = .next t ∧ same t ∧
        t.rd .tile Reg.SIG_SKIP = u.rd .tile Reg.SIG_SKIP + 1 ∧ 8 * e + slot ∈ t.til.pix.sigGot) ∧
      (open' → here → g.crc u.til.pix.pixRx slot = v → ∃ t : State, exec (.sig port pkt) s = .next t ∧ same t ∧
        t.rd .tile Reg.SIG_SKIP = u.rd .tile Reg.SIG_SKIP ∧ 8 * e + slot ∈ t.til.pix.sigGot) ∧
      (open' → here → g.crc u.til.pix.pixRx slot ≠ v → ∃ w t : State, exec (.sig port pkt) s = .next t ∧
        Raises .tile (if u.til.pix.sigRaised then [] else [Ev.SIG_MISMATCH]) w t ∧ 8 * e + slot ∈ w.til.pix.rxMis ∧
        8 * e + slot ∈ w.til.pix.sigGot ∧ t.rd .tile Reg.SIG_MISS = u.rd .tile Reg.SIG_MISS + 1 ∧
        t.rd .tile Reg.SIG_LAST = BitVec.ofNat 32 (e * 2 ^ 24 + slot * 2 ^ 16 + u.fldOf .tile (Reg.SIG_ACT e) 1 0) ∧
        t.rd .tile Reg.SIG_LAST_FRAME = f)) ∧
    (∀ x r o, takes → u.standby = some x → AMap.find u.til.pix.sbySig (8 * e + slot) = some r → r.frame = f →
      (if l = x then r.h else r.s) = some o →
      ∃ t : State, exec (.sig port pkt) s = .next t ∧
        t.rd .tile Reg.LOAN_SBY_MISS = u.rd .tile Reg.LOAN_SBY_MISS + (if o = v then 0 else 1) ∧
        t.rd .tile Reg.LOAN_SBY_LAST = BitVec.ofNat 32 (e * 2 ^ 24 + slot * 2 ^ 16) ∧
        t.rd .tile Reg.LOAN_SBY_FRAME = f ∧
        (o ≠ v → u.til.pix.sbyTold.getD 0 none ≠ some f → u.tapTakes .tile = false → t.pendBit .tile Ev.STBY_MISMATCH = true))

/-- R324, R326, R331, R332, R339: a pixel of the slot that is scanned. Without a scan, on a line at or above S, and
in a dark region nothing changes. A double-bit error is counted, and takes a spare row or makes the region dark; a
pixel that shows no wall code has P 0 on its three lamps; with correction off a lamp's drive word is that of its
decoded code. -/
def Obligations.PixelCorrected : Prop :=
  ∀ (x : BitVec 8) (y : BitVec 7) (pix : Sys2Proof.Ecc) (row : BitVec 9) (cor : Sys2Proof.Ecc) (s : State),
    s.alive .tile = true →
    let c := Instr.pixelCorrect x y pix row cor
    let b := 16 * (y.toNat / 32) + x.toNat / 16
    let used := (s.rd .tile (Reg.PIX_SPARE_USED (b / 8))).toNat / 2 ^ (4 * (b % 8)) % 16
    let key := fun r : Nat => 3 * (256 * y.toNat + x.toNat) + r
    (s.til.lmp.scan = none → exec c s = .next s) ∧
    (∀ z, s.til.lmp.scan = some z →
      (s.scanS ≤ y.toNat % 32 ∨ s.dark (y.toNat / 32) = true → exec c s = .next s) ∧
      (y.toNat % 32 < s.scanS → s.dark (y.toNat / 32) = false →
        (pix = .double → ∃ t : State, exec c s = .next t ∧
          t.rd .tile Reg.PIX_ECC_UNCORR = s.rd .tile Reg.PIX_ECC_UNCORR + 1 ∧
          t.rd .tile Reg.PIX_ECC_LAST = BitVec.ofNat 32 (b * 2 ^ 16 + row.toNat) ∧
          (used < 8 → t.fldOf .tile (Reg.PIX_SPARE_USED (b / 8)) (4 * (b % 8) + 3) (4 * (b % 8)) = used + 1 ∧
            rowName z.slot x.toNat y.toNat ∈ t.til.pix.deadRows ∧
            (s.tapTakes .tile = false → t.pendBit .tile Ev.PIX_ECC_UNCORR = true)) ∧
          (8 ≤ used → t.dark (y.toNat / 32) = true ∧ (s.tapTakes .tile = false → t.pendBit .tile Ev.PIX_NOSPARE = true))) ∧
        (pix = .good → s.shownCode z.slot x.toNat y.toNat = none → ∃ t : State, exec c s = .next t ∧
          (∀ r, r < 3 → AMap.find t.til.lmp.drv (key r) = none) ∧ (∀ a, t.rd .tile a = s.rd .tile a)) ∧
        (∀ code, pix = .good → s.shownCode z.slot x.toNat y.toNat = some code → s.bitOf .tile Reg.COR_CTRL 0 = false →
          s.til.pix.drvClip = true → ∃ t : State, exec c s = .next t ∧ ∀ r, r < 3 →
            AMap.find t.til.lmp.drv (key r) =
              (let d := (s.drive z.frame x.toNat y.toNat r (s.decodeCode (code / 2 ^ (28 - 14 * r) % 2 ^ 14))).1
               if d.p = 0 then none else some d)))) ∧
    (s.bitOf .tile Reg.PIX_STAT 29 = false → ∀ slot, s.shownCode slot x.toNat y.toNat = none)

/-- R37, R334 to R340, R343: the correction store. The scrubber counts and corrects a single error; a double-bit
error takes a spare row with identity correction, or makes the region dark; in a dark region it waits for the return
to service. The window writes the bank that is not active, and neither while a COR commit is pending nor while a
copy runs; a copy makes the two banks equal; the dark bits are cleared by command. -/
def Obligations.CorrectionStore : Prop :=
  ∀ s : State, s.alive .tile = true →
    let busy := s.bitOf .tile Reg.COR_BSTAT 29
    let locked := ∃ c, s.tile.commit = some c ∧ bit c.mask 10 = true
    (∀ (b : Bool) (block : Fin 64) (line : Fin 32),
      let used := s.fldOf .tile (corSpare b block.val).1 ((corSpare b block.val).2 + 1) (corSpare b block.val).2
      let lo := 15 * ((256 * (32 * (block.val / 16) + line.val) + 16 * (block.val % 16)) / 2)
      (∃ t : State, exec (.corScrub [⟨b, block, line, false⟩]) s = .next t ∧
        t.rd .tile Reg.COR_ECC_CORR = s.rd .tile Reg.COR_ECC_CORR + 1 ∧
        ∀ j, t.bankWord b j = s.bankWord b j) ∧
      (∃ t : State, exec (.corScrub [⟨b, block, line, true⟩]) s = .next t ∧
        t.rd .tile Reg.COR_ECC_UNCORR = s.rd .tile Reg.COR_ECC_UNCORR + 1 ∧
        t.rd .tile Reg.COR_ECC_LAST = BitVec.ofNat 32 (b.toNat * 2 ^ 31 + block.val * 2 ^ 16 + line.val) ∧
        (s.dark (block.val / 16) = true → t.dark (block.val / 16) = true ∧ (∀ j, t.bankWord b j = s.bankWord b j) ∧
          corRowKey b block.val line.val ∈ t.til.pix.corWait) ∧
        (s.dark (block.val / 16) = false → used < 2 → t.fldOf .tile (corSpare b block.val).1 ((corSpare b block.val).2 + 1) (corSpare b block.val).2 =
            used + 1 ∧
          (∀ j, lo ≤ j → j < lo + 120 → t.bankWord b j = identityWord j) ∧
          (∀ j, j < lo ∨ lo + 120 ≤ j → t.bankWord b j = s.bankWord b j) ∧
          (s.tapTakes .tile = false → t.pendBit .tile Ev.COR_ROW_LOST = true)) ∧
        (s.dark (block.val / 16) = false → 2 ≤ used → t.dark (block.val / 16) = true ∧
          (s.tapTakes .tile = false → t.pendBit .tile Ev.COR_NOSPARE = true)))) ∧
    exec (.corScrub []) s = .next s ∧
    (∀ m : BitVec 4, let stays := fun r : Nat => s.dark r && !m.getLsbD r
      ∃ t : State, exec (.pixDarkClr m) s = .next t ∧
        t.til.pix.corWait = (s.til.pix.corWait.filter fun n => stays (n % 2048 / 512)) ∧
        (s.til.pix.corWait = [] → (∀ r, r < 4 → t.dark r = stays r) ∧
          ∀ a, a ≠ Reg.PIX_DARK → t.rd .tile a = s.rd .tile a)) ∧
    (∀ addr v : Word,
      let j := (addr.toNat - 0x800000) / 4
      let inside := 0x800000 ≤ addr.toNat ∧ addr.toNat < 0x8F0000 ∧ addr.toNat % 4 = 0
      (locked → ∃ t : State, exec (.correctionWindowWrite addr v) s = .next t ∧ (∀ b k, t.bankWord b k = s.bankWord b k) ∧
        t.rd .tile Reg.SYS_CMT_LOCKDROP = s.rd .tile Reg.SYS_CMT_LOCKDROP + 1 ∧
        (s.tapTakes .tile = false → t.pendBit .tile Ev.SHADOW_LOCKED = true)) ∧
      (¬ locked → inside → busy = true → ∃ t : State, exec (.correctionWindowWrite addr v) s = .next t ∧
        (∀ b k, t.bankWord b k = s.bankWord b k) ∧ t.rd .tile Reg.COR_WDROP = s.rd .tile Reg.COR_WDROP + 1) ∧
      (¬ locked → inside → busy = false → ∃ t : State, exec (.correctionWindowWrite addr v) s = .next t ∧
        t.bankWord (!s.corAct) j = v ∧ (∀ b k, b ≠ !s.corAct ∨ k ≠ j → t.bankWord b k = s.bankWord b k) ∧
        t.bitOf .tile Reg.COR_BSTAT 30 = true ∧ t.corAct = s.corAct) ∧
      (¬ locked → ¬ inside → exec (.correctionWindowWrite addr v) s = .next s)) ∧
    (busy = true ∨ locked → exec .corCopyGo s = .next s) ∧
    (busy = false → ¬ locked → exec .corCopyGo s = .next (s.wrBit .tile Reg.COR_BSTAT 29 true)) ∧
    (busy = true → s.til.pix.filling = false → ∃ t : State, exec .corCopyDone s = .next t ∧
      (∀ b j, t.bankWord b j = s.bankWord s.corAct j) ∧ t.bitOf .tile Reg.COR_BSTAT 29 = false ∧
      t.bitOf .tile Reg.COR_BSTAT 30 = true ∧ (s.tapTakes .tile = false → t.pendBit .tile Ev.COR_COPY_DONE = true)) ∧
    (busy = false ∨ s.til.pix.filling = true → exec .corCopyDone s = .next s) ∧
    (s.til.pix.filling = true → ∃ t : State, exec .identityFillDone s = .next t ∧ t.til.pix.filling = false ∧
      t.bitOf .tile Reg.COR_BSTAT 29 = false ∧ ∀ b j, t.bankWord b j = s.bankWord b j) ∧
    (s.til.pix.filling = false → exec .identityFillDone s = .next s)

/-- R350, R352, R388: a line slot is due at its place after START, and not before. It lights the pads of its line
that have ticks in its subframe and advances the scan, which has K × S line slots; SCAN_STAT shows the subframe and
the line. While nothing is scanned in the safe or lehr state, only the gate test goes on, to the next gate. R375,
R381, R386, R383: a lamp's reading in its states GOOD, SUSPECT and UNMEASURED; a lamp without a reading in 256
counted frames becomes UNMEASURED; a write of DIAG_SG_OFF turns groups on again and returns their declared lamps,
whose entries leave the fault list; clearing the list empties it. -/
def Obligations.LineSlotsAndLamps : Prop :=
  (∀ (obs : Sys2Proof.LineObs) (s : State), s.alive .tile = true →
     let still := (s.safe .tile = true ∨ s.lehr .tile = true) ∧ s.bitOf .tile Reg.SCAN_CFG 31 = true
     let gate := s.bitOf .tile Reg.DIAG_CTRL 28
     let g := s.til.lmp.gateNext
     (s.til.lmp.scan = none → (¬ still ∨ gate = false) → exec (.lineSlot obs) s = .next s) ∧
     (s.til.lmp.scan = none → still → gate = true → ∃ t : State, exec (.lineSlot obs) s = .next t ∧
       t.til.lmp.gateNext = (g + 1) % 128 ∧ t.til.lmp.lamps = s.til.lmp.lamps ∧
       (gateFaults g obs.gates = [] → ∀ a, t.rd .tile a = s.rd .tile a)) ∧
     (∀ c, s.til.lmp.scan = some c →
       let n := c.done
       let due := n < s.scanK * s.scanS ∧ (c.start + BitVec.ofNat 32 ((n * (s.scanB s.scanProg + s.scanW)) * 5 * s.scanDiv / 2) - s.wall .tile).toInt ≤ 0
       let i := n / s.scanS
       let j := n % s.scanS
       (¬ due → exec (.lineSlot obs) s = .next s) ∧
       (due → ∃ u t : State, exec (.lineSlot obs) s = .next t ∧ Raises .tile [] u t ∧
         u.til.lmp.scan = some { c with done := n + 1 } ∧
         (∃ r, u.til.lmp.run = some r ∧ r.line = s.scanLine s.scanProg j ∧
           r.start = c.start + BitVec.ofNat 32 ((n * (s.scanB s.scanProg + s.scanW)) * 5 * s.scanDiv / 2)) ∧
         t.til.lmp.scanned = s.til.lmp.scanned ||| 2 ^ s.scanLine s.scanProg j ∧
         u.rd .tile Reg.SCAN_STAT = BitVec.ofNat 32 (2 ^ 31 + s.scanProg * 2 ^ 30 + c.slot * 2 ^ 24 + i * 2 ^ 16 + j)) ∧
       (due → s.fldOf .tile Reg.DIAG_CTRL 31 28 = 0 → ∃ t : State, exec (.lineSlot obs) s = .next t ∧
         t.til.lmp.lit = s.litPads (s.scanLine s.scanProg j) i ∧ t.til.lmp.lamps = s.til.lmp.lamps ∧
         ∀ a, a ≠ Reg.SCAN_STAT → t.rd .tile a = s.rd .tile a))) ∧
  ((∀ (line pad : Nat) (r : Reading) (s : State),
     let v := s.lamp line pad
     let w := ((s.takeReading line pad r).1).lamp line pad
     v.st = .good ∨ v.st = .suspect ∨ v.st = .unmeasured →
       (r = .good → w.st = .good ∧ w.count = 0) ∧
       (r ≠ .good → 1 < s.confirm → v.st ≠ .suspect → w.st = .suspect ∧ w.count = 1 ∧ (w.short = true ↔ r = .short)) ∧
       (r ≠ .good → v.st = .suspect → v.good = false → (v.short = true ↔ r = .short) → v.count + 1 < s.confirm →
         w.st = .suspect ∧ w.count = v.count + 1) ∧
       (r ≠ .good → 1 < s.confirm → v.st = .suspect → ¬ (v.short = true ↔ r = .short) → w.st = .suspect ∧ w.count = 1) ∧
       w.readFrame = some s.til.lmp.diagFrame) ∧
   (∀ s : State, s.alive .tile = true →
     (∀ (line : Fin 32) (pad : Fin 3072),
       let v := s.lamp line.val pad.val
       let due := (v.st = .good ∨ v.st = .suspect) ∧ s.measures pad.val = true ∧ v.readAt + 256 ≤ s.framesOf line.val pad.val
       (¬ due → exec (.lampUnmeasured line pad) s = .next s) ∧
       (due → ∃ t : State, exec (.lampUnmeasured line pad) s = .next t ∧ (t.lamp line.val pad.val).st = .unmeasured ∧
         (t.lamp line.val pad.val).count = 0 ∧
         (∀ l n, 3072 * l + n ≠ 3072 * line.val + pad.val → t.lamp l n = s.lamp l n) ∧
         (s.til.lmp.unmEv.contains (padBlock pad.val) = false → s.tapTakes .tile = false →
           t.pendBit .tile (Ev.UNMEASURED (padBlock pad.val)) = true))) ∧
     (∀ v : BitVec 16, s.flistN ≤ 64 → ∃ t : State, exec (.diagSgOffWrite v) s = .next t ∧
       t.rd .tile Reg.DIAG_SG_OFF = s.rd .tile Reg.DIAG_SG_OFF &&& ~~~(v.setWidth 32) ∧
       t.flist = s.flist.filter (fun w => !s.inGroups v.toNat (w.toNat % 4096)) ∧
       ∀ (l : Nat) (n : Fin 3072),
         (s.inGroups v.toNat n.val = true → (s.lamp l n.val).declared = true → (t.lamp l n.val).st = .unmeasured ∧
           (t.lamp l n.val).count = 0) ∧
         (s.inGroups v.toNat n.val = false → t.lamp l n.val = s.lamp l n.val)) ∧
     (∃ t : State, exec .diagFlistClr s = .next t ∧ t.rd .tile Reg.DIAG_STAT = 0 ∧
       (∀ i, i < 64 → t.rd .tile (Reg.DIAG_FLIST i) = 0) ∧ t.til = s.til)))

/-- R363, R365 to R367, R389: a trim cycle that is due, 1 s after EN became 1 and then every INT seconds, tests the
reference sinks first: a short skips it, and it begins with the first colour whose sink is not open. A transfer
writes the bytes of TRIM_I2C_WR or reads a colour; with NAVG readings the mean, and with T_R the target of R366 in
its limits, enter their registers. An error clears the bus and is counted; 10 ms later the transfer is tried once
more, and a second error ends the cycle with TRIM_TARGET as the cycle found it. -/
def Obligations.TrimCycles : Prop :=
  ∀ s : State, s.alive .tile = true →
    let off := s.safe .tile = true ∨ s.lehr .tile = true ∨ s.tapTakes .tile = true ∨ s.fldOf .tile Reg.DIAG_REF_STAT 1 0 ≠ 0
    let now := s.elapsed .tile
    let due := s.bitOf .tile Reg.TRIM_CTRL 31 = true ∧ s.til.lmp.trim = none ∧
      (s.til.lmp.trimLast = none → s.til.lmp.trimEn + 1000000000 ≤ now) ∧
      (∀ a, s.til.lmp.trimLast = some a → a + s.fldOf .tile Reg.TRIM_INT 15 0 * 1000000000 ≤ now)
    (∀ (own : BitVec 3) (near : BitVec 4) (mv : List Nat),
      let c := Instr.trimCycleStart own near mv
      let was := s.rd .tile Reg.DIAG_REF_STAT
      let short := fun i : Nat => near.getLsbD (2 * i) || near.getLsbD (2 * i + 1)
      let opened := fun i : Nat => !own.getLsbD i && decide (mv.getD i 0 < 50 * s.fldOf .tile Reg.DIAG_THR 2 0)
      let opens := (List.range 3).filter opened
      let evs := opens.map fun _ => Ev.REF_OPEN
      let shows := fun t : State => ∀ i, i < 3 →
        bit (t.rd .tile Reg.DIAG_REF_STAT) (4 + i) = (bit was (4 + i) || opened i)
      (¬ due → exec c s = .next s) ∧
      (due → off → exec c s = .next (s.updLmp fun l => { l with trimLast := some now })) ∧
      (due → ¬ off → short 0 = true ∨ short 1 = true → ∃ u t : State, exec c s = .next t ∧
        Raises .tile (Ev.REF_SHORT :: evs) u t ∧ u.til.lmp.trim = none ∧ u.til.lmp.trimLast = some now ∧
        (∀ i, i < 2 → bit (t.rd .tile Reg.DIAG_REF_STAT) i = short i) ∧ shows t) ∧
      (∀ d, due → ¬ off → short 0 = false → short 1 = false → d < 3 → opened d = false → (∀ e, e < d → opened e = true) →
        ∃ u t : State, exec c s = .next t ∧ Raises .tile evs u t ∧ shows t ∧
          u.til.lmp.trim = some ⟨d, [], decide (s.trimWrlen = 0), false, false, now, true, opens,
            (List.range 3).map fun i => s.rd .tile (Reg.TRIM_TARGET i)⟩ ∧
          u.trimStat = BitVec.ofNat 32 (2 ^ 31 + 2 ^ 28 + d * 2 ^ 24)) ∧
      (due → ¬ off → short 0 = false → short 1 = false → (∀ e, e < 3 → opened e = true) →
        ∃ u t : State, exec c s = .next t ∧ Raises .tile (evs ++ [Ev.TRIM_DONE]) u t ∧ shows t ∧
          u.til.lmp.trim = none ∧ t.rd .tile Reg.TRIM_LAST_WT = s.wall .tile)) ∧
    (∀ bs : List Byte,
      (s.til.lmp.trim = none → exec (.trimI2cTransfer bs) s = .next s ∧ exec .trimI2cErr s = .next s ∧
        exec .trimI2cRetry s = .next s) ∧
      (∀ y, s.til.lmp.trim = some y →
        let sends := s.trimSends y = true
        let again := y.recover = true ∧ y.since + 10000000 ≤ now
        (¬ again → exec .trimI2cRetry s = .next s) ∧
        (again → exec .trimI2cRetry s =
          .next (s.setTrim { y with recover := false, again := true, since := now, settle := false })) ∧
        (y.recover = true → s.trimSends y = false) ∧
        (¬ sends → exec (.trimI2cTransfer bs) s = .next s ∧ exec .trimI2cErr s = .next s) ∧
        (sends → ∃ u t : State, exec .trimI2cErr s = .next t ∧ Raises .tile [Ev.TRIM_I2C_ERR] u t ∧
            t.out = s.out ++ [.i2cClear] ∧ t.rd .tile Reg.TRIM_I2C_ERRS = s.rd .tile Reg.TRIM_I2C_ERRS + 1 ∧
            u.til.lmp.trim = (if y.again then none else some { y with recover := true, since := now }) ∧
            (y.again = true → ∀ i, i < 3 → t.rd .tile (Reg.TRIM_TARGET i) = y.before.getD i 0)) ∧
        (sends → y.reading = false → ∃ t : State, exec (.trimI2cTransfer bs) s = .next t ∧
          t.out = s.out ++ [.i2c s.i2cKhz (s.trimAddr false :: s.trimWriteBytes)] ∧
          t.til.lmp.trim = some { y with reading := true, again := false, since := now, settle := false }) ∧
        (sends → y.reading = true → y.colour < 3 →
          let ch := s.rd .tile (Reg.TRIM_CH y.colour)
          let rs := y.readings ++ [trimReading (bs.take s.trimRdlen) (ch.toNat % 8) (bit ch 4)]
          let m := trimMean rs
          let sent := s.out ++ [Output.i2c s.i2cKhz [s.trimAddr false,
            BitVec.ofNat 8 (s.fldOf .tile Reg.TRIM_I2C_CFG 15 8), s.trimAddr true]]
          (rs.length < s.trimNavg → ∃ t : State, exec (.trimI2cTransfer bs) s = .next t ∧ t.out = sent ∧
            t.til.lmp.trim = some { y with readings := rs, reading := decide (s.trimWrlen = 0), again := false, since := now,
                                           settle := false }) ∧
          (s.trimNavg ≤ rs.length → s.bitOf .tile Reg.THM_DRV_MEAN 31 = false → ∃ t : State,
            exec (.trimI2cTransfer bs) s = .next t ∧ t.out = sent ∧
            t.rd .tile (Reg.TRIM_MEAS y.colour) = BitVec.ofNat 32 m ∧ t.draws = s.draws + 1) ∧
          (s.trimNavg ≤ rs.length → s.bitOf .tile Reg.THM_DRV_MEAN 31 = true →
            let goal := trimGoal (s.fldOf .tile (Reg.TRIM_TGT y.colour) 15 0) (s.tempOf .tile (Reg.TRIM_TCO y.colour))
              (s.tempOf .tile Reg.THM_DRV_MEAN) (s.tempOf .tile Reg.TRIM_TCAL)
            let lim := clampI (trimRaw m goal) (s.fldOf .tile Reg.TRIM_LIMIT 15 0 : Nat)
              (s.fldOf .tile Reg.TRIM_LIMIT 31 16 : Nat)
            ∃ t : State, exec (.trimI2cTransfer bs) s = .next t ∧ t.out = sent ∧
              t.rd .tile (Reg.TRIM_MEAS y.colour) = BitVec.ofNat 32 m ∧
              (m = 0 ∨ goal ≤ 0 → t.rd .tile (Reg.TRIM_TARGET y.colour) = s.rd .tile (Reg.TRIM_TARGET y.colour) ∧
                (s.tapTakes .tile = false → t.pendBit .tile Ev.TRIM_RANGE = true)) ∧
              (m ≠ 0 → 0 < goal →
                t.rd .tile (Reg.TRIM_TARGET y.colour) = BitVec.ofNat 32 (2 ^ 31 + lim.toNat) ∧
                (lim ≠ trimRaw m goal → s.tapTakes .tile = false → t.pendBit .tile Ev.TRIM_RANGE = true))))))

/-- R396 to R406, R361: a conversion forms every sensor's temperature, its FAULT and exclusion, the greatest valid
reading, the dwell count that moves the measured band, the local gain, and the entry into the lehr state when
THM_SHUT is reached four times in a row; without a frame schedule the band is applied at once. A permitted exit
leaves the lehr state once the part has been cool for 1,000 conversions. -/
def Obligations.Conversions : Prop :=
  ∀ (p : Sys2Proof.Part) (counts : List (BitVec 20)) (s : State), s.alive p = true →
    let ns := counts.map BitVec.toNat
    let now := s.sensorsNow p ns
    let all := validTemps now 0 (sensorCount p)
    let n := s.fldOf p Reg.THM_STAT 4 0
    let c := Instr.thmConversion p counts
    (s.converts p = false → exec c s = .next s) ∧
    (s.converts p = true → ∃ t : State, exec c s = .next t ∧
      (∀ i, i < sensorCount p → ∀ x, now[i]? = some x →
        t.rd p (Reg.THM_RAW i) = BitVec.ofNat 32 (ns.getD i 0) ∧ x.t = sensorTemp p i (ns.getD i 0) ∧
        (t.rd p (Reg.THM_T i)).toNat % 65536 = (BitVec.ofInt 32 x.t).toNat % 65536 ∧
        t.bitOf p Reg.THM_FAULT i = x.fault ∧ t.bitOf p Reg.THM_EXCL i = x.excl ∧
        t.bitOf p Reg.THM_VALID i = (!x.fault && !x.excl) ∧
        (sensorBad (ns.getD i 0) x.t = true → x.fault = true) ∧
        (s.bitOf p Reg.THM_CTRL 29 = false → x.excl = false) ∧
        (x.fault = true → s.bitOf p Reg.THM_FAULT i = false → s.tapTakes p = false →
          t.pendBit p Ev.THM_SENSOR_FAULT = true) ∧
        (x.excl = true → s.bitOf p Reg.THM_EXCL i = false → s.tapTakes p = false → t.pendBit p Ev.THM_EXCLUDE = true)) ∧
      (all = [] → t.bitOf p Reg.THM_TMAX 31 = false) ∧
      (∀ m, maxTemp all = some m →
        t.rd p Reg.THM_TMAX = (0x80000000 : Word) ||| (BitVec.ofInt 32 m &&& 0xFFFF) ∧
        (s.band p < bandOf (s.knee p) m → n < 15 → n ≠ 0 → (s.chip p).thm.up = true → t.band p = s.band p ∧
          t.fldOf p Reg.THM_STAT 4 0 = n + 1) ∧
        (s.band p < bandOf (s.knee p) m → n = 15 → (s.chip p).thm.up = true → t.band p = bandOf (s.knee p) m ∧
          t.fldOf p Reg.THM_STAT 4 0 = 0) ∧
        (s.lehr p = false → s.bitOf p Reg.THM_CTRL 31 = true → 3 ≤ (s.chip p).thm.shutRun →
          s.tempOf p Reg.THM_SHUT ≤ m → t.lehr p = true ∧
          t.rd p Reg.THM_LEHR_CNT = s.rd p Reg.THM_LEHR_CNT + 1 ∧ t.rd p Reg.THM_LEHR_WT = s.wall p ∧
          (s.tapTakes p = false → t.pendBit p Ev.THM_LEHR = true)) ∧
        (m < s.tempOf p Reg.THM_SHUT → s.lehr p = false → t.lehr p = false)) ∧
      (s.schedOn p = false → t.bandUsed p = t.band p) ∧ (s.schedOn p = true → t.bandUsed p = s.bandUsed p) ∧
      (∀ m, p = .tile → maxTemp (validTemps now 0 16) = some m →
        t.rd .tile Reg.DRV_G_LOC = BitVec.ofNat 32 (s.localGain m).toNat)) ∧
    (s.lehr p = false → exec (.thmLehrExitWrite p) s = .next s) ∧
    (s.lehr p = true → ∃ t : State, exec (.thmLehrExitWrite p) s = .next t ∧ (t.chip p).thm.permit = true ∧
      (s.schedOn p = true ∨ (s.chip p).thm.coolRun < 1000 → t.lehr p = true ∧ ∀ a, t.rd p a = s.rd p a) ∧
      (s.schedOn p = false → 1000 ≤ (s.chip p).thm.coolRun → t.lehr p = false ∧
        (s.tapTakes p = false → t.pendBit p Ev.THM_LEHR_EXIT = true)))

/-- R435 to R438: the signing engine refuses a GO while it is busy, and signs the message of R435 with a fresh
secret of its random source; the verify engine ignores a command while it is busy, checks a hash or the challenge
message, and reports PASS or not; a read of IDN_RAND answers a fresh random word. -/
def Obligations.IdentityEngines : Prop :=
  ∀ (p : Sys2Proof.Part) (s : State), s.alive p = true →
    let busy := s.bitOf p Reg.IDN_VFY_STAT 31
    let nonce := s.idnBytes p (Reg.IDN_NONCE 0) 8
    let sig := (s.sign p nonce 0).1
    let ok := fun h : Nat => ecdsaOk (s.idnBytes p (Reg.IDN_VFY_KEY 0) 16) h (s.idnBytes p (Reg.IDN_VFY_SIG 0) 16)
    let verifies := fun (c : Instr) (h : Nat) => ∃ t : State, exec c s = .next t ∧ (t.chip p).vfy = some (ok h) ∧
      t.rd p Reg.IDN_VFY_STAT = 0x80000000 ∧ ∀ a, a ≠ Reg.IDN_VFY_STAT → t.rd p a = s.rd p a
    let dev := bytesBE [s.rd p Reg.IDN_VFY_DEVID_HI, s.rd p Reg.IDN_VFY_DEVID_LO]
    (s.signBusy p = true → exec (.idnChalGo p) s = .next (s.wrBit p Reg.IDN_CHAL_STAT 29 true)) ∧
    (s.signBusy p = false → exec (.idnChalGo p) s = .next (s.wr p Reg.IDN_CHAL_STAT 0x80000000)) ∧
    (¬ (p = .tile ∧ s.pvd.powered = true ∧ s.pvd.busy = true) → s.bitOf p Reg.IDN_CHAL_STAT 31 = true →
      ∃ t : State, exec (.chalDone p) s = .next t ∧
        (∀ j w, j < 16 → (wordsBE sig)[j]? = some w → t.rd p (Reg.IDN_SIG j) = w) ∧
        t.bitOf p Reg.IDN_CHAL_STAT 31 = false ∧ t.bitOf p Reg.IDN_CHAL_STAT 30 = true ∧ t.draws = s.draws + 10 ∧
        (s.tapTakes p = false → t.pendBit p (Ev.CHAL_DONE p) = true)) ∧
    (s.pvd.busy = false → s.bitOf p Reg.IDN_CHAL_STAT 31 = false → exec (.chalDone p) s = .next s) ∧
    (s.pvd.powered = true → s.pvd.busy = true → ∃ t : State, exec (.chalDone .tile) s = .next t ∧
      t.pvd.busy = false ∧ t.pvd.result = (s.sign .tile s.pvd.nonce 1).1) ∧
    (busy = true → exec (.idnVfyHash p) s = .next s ∧ ∀ ch, exec (.idnVfyChallenge p ch) s = .next s) ∧
    (busy = false → verifies (.idnVfyHash p) (natBE (s.idnBytes p (Reg.IDN_VFY_HASH 0) 8)) ∧
      ∀ ch, verifies (.idnVfyChallenge p ch)
        (natBE (sha256 (asciiBytes "SKDG-ID1" ++ dev ++ nonce ++ [if ch then 1 else 0])))) ∧
    ((s.chip p).vfy = none → exec (.vfyDone p) s = .next s) ∧
    (∀ b, (s.chip p).vfy = some b → ∃ t : State, exec (.vfyDone p) s = .next t ∧ (t.chip p).vfy = none ∧
      t.rd p Reg.IDN_VFY_STAT = (if b then 0x60000000 else 0x40000000) ∧
      (s.tapTakes p = false → t.pendBit p (Ev.VFY_DONE p) = true)) ∧
    (∃ t : State, exec (.idnRandRead p) s = .next t ∧ t.out = s.out ++ [.value (Sys2Proof.Config.randomWord s.draws)] ∧
      t.draws = s.draws + 1 ∧ ∀ q a, t.rd q a = s.rd q a)

/-- R441 to R444: the catalogue digest is the first 128 bits of SHA-256 over its parts; a new IDN_GEN starts it
again. The tile answers a REQUEST with it, once a recomputation has ended, and folds it into a CHAIN digest; the
sender stores what comes back, and sends CHAIN and REQUEST on the chains named. -/
def Obligations.CatalogueDigests : Prop :=
  (∀ (p : Sys2Proof.Part) (v : Word) (s : State), s.alive p = true →
    let cat := (sha256w (asciiBytes "SKDG-CAT" ++ bytesBE [s.rd p Reg.IDN_GEN] ++ bytesBE (s.folioHash p) ++
      s.idnBytes p (Reg.IDN_IMG_HASH 0) 8 ++ bytesBE (s.bankHash p))).take 4
    (∃ t : State, exec (.idnGenWrite p v) s = .next t ∧ t.rd p Reg.IDN_GEN = v ∧ t.bitOf p Reg.IDN_CAT_STAT 30 = true ∧
      ∀ a, a ≠ Reg.IDN_GEN → a ≠ Reg.IDN_CAT_STAT → t.rd p a = s.rd p a) ∧
    (s.bitOf p Reg.IDN_CAT_STAT 30 = false → exec (.catReady p) s = .next s) ∧
    (s.bitOf p Reg.IDN_CAT_STAT 30 = true → ∃ t : State, exec (.catReady p) s = .next t ∧
      (∀ j w, j < 4 → cat[j]? = some w → t.rd p (Reg.IDN_CAT j) = w) ∧
      (∀ j w, j < 8 → (s.folioHash p)[j]? = some w → t.rd p (Reg.IDN_FOLIO_HASH j) = w) ∧
      t.rd p Reg.IDN_CAT_STAT = 0x80000000 ∧ t.rd p Reg.IDN_CAT_FRAME = s.rd p Reg.TIME_FRM_NUM ∧
      (p = .tile → t.til.digestDue = []) ∧ (s.tapTakes p = false → t.pendBit p (Ev.CAT_READY p) = true))) ∧
  (∀ (port : LnkPort) (pkt : Packet) (s : State), port.part = .tile → TileTakes port.idx pkt s →
    let u := s.heard port.idx pkt
    let src := s.tilePos.getD 0x7F
    let cat := (List.range 4).map fun j => s.rd .tile (Reg.IDN_CAT j)
    let o := otherPort port.idx
    let fold := (sha256w (asciiBytes "SKDG-CHN" ++ bytesBE (((Pkt.body pkt).drop 1).take 4) ++ bytesBE cat)).take 4
    (Pkt.is pkt 0xA 0 = true →
      (s.bitOf .tile Reg.IDN_CAT_STAT 30 = true → exec (.digestRequest port pkt) s =
        .next (u.updTil fun t => { t with digestDue := t.digestDue ++ [port.idx] })) ∧
      (s.bitOf .tile Reg.IDN_CAT_STAT 30 = false → exec (.digestRequest port pkt) s =
        .next (u.ownPush port.idx (mkPacket 0xA 0x7E 0 src 0x10000000 (s.rd .tile Reg.IDN_GEN :: cat))))) ∧
    (Pkt.is pkt 0xA 2 = true →
      (s.txActive .tile o = false → exec (.digestChain port pkt) s = .next u) ∧
      (s.txActive .tile o = true → exec (.digestChain port pkt) s =
        .next (u.ownPush o (mkPacket 0xA (Pkt.dest pkt) 0 src 0x20000000 (Pkt.w pkt 2 :: fold)))))) ∧
  (∀ (k : Fin 16) (pkt : Packet) (s : State), SenderTakes k.val pkt s →
    let d := ((Pkt.body pkt).drop 1).take 4
    let n := Pkt.src pkt
    (Pkt.is pkt 0xA 2 = true → ∃ t : State, exec (.digestChain (.chain k) pkt) s = .next t ∧
      (∀ j w, j < 4 → d[j]? = some w → t.rd .sender (Reg.IDN_CHAIN_RX k.val j) = w) ∧
      t.rd .sender (Reg.IDN_CHAIN_GEN k.val) = Pkt.w pkt 2 ∧
      t.rd .sender (Reg.IDN_CHAIN_STAT k.val) = BitVec.ofNat 32 (2 ^ 31 + n) ∧
      (s.tapTakes .sender = false → t.pendBit .sender Ev.CHAIN_RX = true)) ∧
    (Pkt.is pkt 0xA 1 = true →
      (64 ≤ n → exec (.digestCatalogue k pkt) s = .next s) ∧
      (n < 64 → ∃ t : State, exec (.digestCatalogue k pkt) s = .next t ∧
        (∀ j w, j < 4 → d[j]? = some w → t.rd .sender (Reg.IDN_CATRX k.val n j) = w) ∧
        t.rd .sender (Reg.IDN_CATRX_GEN k.val n) = Pkt.w pkt 2 ∧
        t.bitOf .sender (if n < 32 then Reg.IDN_CATRX_MAP_LO k.val else Reg.IDN_CATRX_MAP_HI k.val) (n % 32) = true ∧
        (s.tapTakes .sender = false → t.pendBit .sender Ev.CATRX = true)))) ∧
  (∀ (m : BitVec 16) (s : State), s.alive .sender = true →
    let cat := (List.range 4).map fun j => s.rd .sender (Reg.IDN_CAT j)
    let ks := (s.namedChains m.toNat).filter fun k => s.txActive .sender k && !s.safe .sender
    let awake := ∀ k, k ∈ s.namedChains m.toNat → s.safe .sender = true ∨ s.lnkTx .sender k ≠ 2
    (∃ t : State, exec (.idnDigChain m) s = .next t ∧ (awake → (∀ p a, t.rd p a = s.rd p a) ∧
      t.out = s.out ++ ks.map fun k => .packet (portOf .sender k) (mkPacket 0xA 0x7F 0 0x7E 0x20000000
        (s.rd .sender Reg.IDN_GEN :: cat)))) ∧
    (∃ t : State, exec (.idnDigRequest m) s = .next t ∧
      (∀ k, k ∈ s.namedChains m.toNat → t.rd .sender (Reg.IDN_CATRX_MAP_LO k) = 0 ∧
        t.rd .sender (Reg.IDN_CATRX_MAP_HI k) = 0) ∧
      (awake → t.out = s.out ++ ks.map fun k => .packet (portOf .sender k) (mkPacket 0xA 0x7F 0 0x7E 0 [0, 0, 0, 0, 0]))))

/-- R458, R460: an update command that a core gives while the part is busy or in a stage that does not allow it
leaves ERR 0x10; of a packet, one from a sender that R54 does not allow changes nothing, one while the tile is busy
is answered BUSY, and one in another stage STATE. A QUERY is answered at once in every stage. R458, R464: CONFIRM
fuses the program's EPOCH if it is higher, writes an IDLE record with the FLOOR of the program and ends the trial;
ABORT ends a download in IDLE; a confirmation timer that runs out in TRIAL restarts the cores. -/
def Obligations.UpdateCommandsAndTrial : Prop :=
  (let cmds : List (Nat × (Nat → Bool) × (UpdSrc → Instr)) :=
     [(1, (fun g => g ≤ 2 || g = 5), fun x => .updOpen x true), (1, (fun g => g ≤ 2 || g = 5), fun x => .updOpen x false),
      (2, (fun g => g = 1), .updVerify), (3, (fun g => g = 2), .updActivate), (4, (fun g => g = 4), .updConfirm),
      (5, (fun g => g = 1 || g = 2), .updAbort)]
   (∀ (p : Sys2Proof.Part) (s : State), s.alive p = true → ∀ c ∈ cmds, s.updBusy p = true ∨ c.2.1 (s.stage p) = false →
     exec (c.2.2 (.core p)) s = .next (s.wrFld p Reg.UPD_STAT 23 16 0x10)) ∧
   (∀ s : State, s.alive .sender = true → s.updBusy .sender = true ∨ s.stage .sender ≠ 1 →
     exec .updLoad s = .next (s.wrFld .sender Reg.UPD_STAT 23 16 0x10)) ∧
   (∀ (port : LnkPort) (pkt : Packet) (s : State), port.part = .tile → TileTakes port.idx pkt s → Pkt.is pkt 0xB 2 = true →
     let u := s.heard port.idx pkt
     let l := letterOfPort port.idx
     let x := BitVec.ofNat 32 (Pkt.tag pkt)
     let op := (Pkt.w pkt 3).toNat / 2 ^ 16
     (∀ c ∈ cmds, op = c.1 →
       (s.fromHolder l = false → exec (c.2.2 (.packet port pkt)) s = .next u) ∧
       (s.fromHolder l = true → s.updBusy .tile = true → exec (c.2.2 (.packet port pkt)) s = .next (u.updAck l x 1)) ∧
       (s.fromHolder l = true → s.updBusy .tile = false → c.2.1 (s.stage .tile) = false →
         exec (c.2.2 (.packet port pkt)) s = .next (u.updAck l x 3))) ∧
     (op = 6 → exec (.updQuery port pkt) s = .next (if s.fromHolder l then u.updAck l x 0 else u)))) ∧
  ((∀ (src : UpdSrc) (s : State), UpdRuns src 4 s → s.stage src.part = 4 →
     let p := src.part
     let e := (s.trialProgram p).1
     let v := (s.trialProgram p).2
     ∃ t : State, exec (.updConfirm src) s = .next t ∧ t.stage p = 0 ∧ t.rd p Reg.UPD_FLOOR = v ∧
       t.rd p Reg.UPD_EPOCH = (if s.fldOf p Reg.UPD_EPOCH 6 0 < e then BitVec.ofNat 32 e else s.rd p Reg.UPD_EPOCH) ∧
       (t.chip p).upd.running = .confirmed ∧ (t.chip p).upd.confLeft = none ∧
       (t.chip p).flash = ((s.putRec p { s.bootRec p with state := 0, boots := 0, floor := v }).chip p).flash ∧
       (s.tapTakes p = false → t.pendBit p (Ev.UPD_CONFIRMED p) = true)) ∧
   (∀ (src : UpdSrc) (s : State), UpdRuns src 5 s → s.stage src.part = 1 ∨ s.stage src.part = 2 →
     ∃ t : State, exec (.updAbort src) s = .next t ∧ t.stage src.part = 0 ∧ (t.chip src.part).upd.session = none ∧
       (t.chip src.part).upd.waiting = [] ∧ (t.chip src.part).flash = (s.chip src.part).flash ∧
       (s.tapTakes src.part = false → t.pendBit src.part (Ev.UPD_STAGE src.part) = true)) ∧
   (∀ (p : Sys2Proof.Part) (s : State), s.alive p = true →
     let due := s.stage p = 4 ∧ (s.chip p).upd.confLeft = some 0 ∧ s.safe p = false
     (¬ due → exec (.confirmTimeout p) s = .next s) ∧
     (due → (s.chip p).phase = .up → ∃ t : State, exec (.confirmTimeout p) s = .next t ∧ (t.chip p).phase = .booting ∧
       (t.chip p).fullBoot = false ∧ t.rd p Reg.SYS_RST_CAUSE = 0x50000310 ∧
       t.fldOf p Reg.SYS_RST_COUNT 31 16 = min 0xFFFF (s.fldOf p Reg.SYS_RST_COUNT 31 16 + 1) ∧
       (∀ k ∈ (t.chip p).cores, k.held = true) ∧ ∀ a, t.dmemByte p a = s.dmemByte p a)))

/-- R459, R460: OPEN checks LEN and erases the target; LOAD copies from frame memory; DATA packets of the open
session are taken in order, at most four waiting, and programmed one by one. A flash error ends the download in
IDLE. -/
def Obligations.Download : Prop :=
  (∀ (src : UpdSrc) (target : Bool) (s : State), UpdRuns src 1 s → s.stage src.part ≤ 2 ∨ s.stage src.part = 5 →
    let p := src.part
    let u := s.updHeard src
    let asked := match src with
      | .core _ => target
      | .packet _ pkt => bit (Pkt.w pkt 4) 0
    let cor := asked && p == .tile
    let len := s.openLen src
    let bad := len % 4 ≠ 0 ∨ len < 640 ∨ (if cor then corCopySize else slotSize p) < len
    (bad → exec (.updOpen src target) s = .next ((u.wrFld p Reg.UPD_STAT 23 16 0x11).updAckTo (updFrom src) 3)) ∧
    (¬ bad → ∃ t : State, exec (.updOpen src target) s = .next t ∧ t.stage p = 1 ∧ t.updBusy p = true ∧
      t.rd p Reg.UPD_DL_NEXT = 0 ∧ t.bitOf p Reg.UPD_STAT 27 = cor ∧ (t.chip p).upd.job = .erase ∧
      (t.chip p).upd.len = len ∧ (t.chip p).upd.session = (updFrom src).map (fun a => a.2) ∧
      (s.stage p ≠ 1 → s.tapTakes p = false → t.pendBit p (Ev.UPD_STAGE p) = true))) ∧
  (∀ (p : Sys2Proof.Part) (ok : Bool) (s : State), s.alive p = true →
    let a := (s.updTarget p).1
    let n := ((s.chip p).upd.len + 65535) / 65536 * 65536
    ((s.chip p).upd.job ≠ .erase → exec (.updEraseDone p ok) s = .next s) ∧
    ((s.chip p).upd.job = .erase → ∃ t : State, exec (.updEraseDone p ok) s = .next t ∧ t.updBusy p = false ∧
      (∀ i, i < a ∨ a + n ≤ i → t.flashAt p i = s.flashAt p i) ∧
      (ok = true → (∀ i, a ≤ i → i < a + n → t.flashAt p i = 0xFF) ∧ t.stage p = s.stage p) ∧
      (ok = false → t.stage p = 0 ∧ (s.tapTakes p = false → t.pendBit p (Ev.UPD_FLASH_ERR p) = true)))) ∧
  (∀ (ok : Bool) (s : State), s.alive .sender = true →
    let a := s.updTarget .sender
    (s.updBusy .sender = false → s.stage .sender = 1 → ∃ t : State, exec .updLoad s = .next t ∧
      t.updBusy .sender = true ∧ t.sender.upd.job = .load (s.rd .sender Reg.UPD_DL_NEXT).toNat
        (16 * (s.rd .sender Reg.UPD_DL_SRC).toNat) (s.rd .sender Reg.UPD_DL_LEN).toNat) ∧
    ((∀ o x n, s.sender.upd.job ≠ .load o x n) → exec (.updLoadDone ok) s = .next s) ∧
    (∀ o x n, s.sender.upd.job = .load o x n → ∃ t : State, exec (.updLoadDone ok) s = .next t ∧
      t.updBusy .sender = false ∧
      (ok = true → t.rd .sender Reg.UPD_DL_NEXT = BitVec.ofNat 32 (o + n) ∧
        ∀ i b, (s.fmBytes x n)[i]? = some b → o + i < a.2 → t.flashAt .sender (a.1 + o + i) = b) ∧
      (ok = false → t.stage .sender = 0 ∧ (s.tapTakes .sender = false →
        t.pendBit .sender (Ev.UPD_FLASH_ERR .sender) = true)))) ∧
  (∀ (port : LnkPort) (pkt : Packet) (s : State), port.part = .tile → TileTakes port.idx pkt s → Pkt.is pkt 0xB 0 = true →
    let u := s.heard port.idx pkt
    let l := letterOfPort port.idx
    let x := BitVec.ofNat 32 (Pkt.tag pkt)
    let ws := (Pkt.body pkt).drop 2
    let opened := s.stage .tile = 1 ∧ s.tile.upd.session = some x
    (s.fromHolder l = false → exec (.updData port pkt) s = .next u) ∧
    (s.fromHolder l = true →
      (¬ opened → exec (.updData port pkt) s = .next (u.updAck l x 3)) ∧
      (opened → Pkt.w pkt 2 ≠ s.rd .tile Reg.UPD_DL_NEXT → exec (.updData port pkt) s = .next (u.updAck l x 2)) ∧
      (opened → Pkt.w pkt 2 = s.rd .tile Reg.UPD_DL_NEXT → 4 ≤ s.tile.upd.waiting.length →
        exec (.updData port pkt) s = .next (u.updAck l x 1)) ∧
      (opened → Pkt.w pkt 2 = s.rd .tile Reg.UPD_DL_NEXT → s.tile.upd.waiting.length < 4 → ∃ t : State,
        exec (.updData port pkt) s = .next t ∧
        t.tile.upd.waiting = s.tile.upd.waiting ++ [⟨(Pkt.w pkt 2).toNat, ws, l, x⟩] ∧
        t.rd .tile Reg.UPD_DL_NEXT = Pkt.w pkt 2 + BitVec.ofNat 32 (4 * ws.length)))) ∧
  (∀ (ok : Bool) (s : State), s.alive .tile = true →
    let a := s.updTarget .tile
    (s.tile.upd.waiting = [] ∨ s.tile.upd.job ≠ .none → exec (.updDataProgrammed ok) s = .next s) ∧
    (∀ d rest, s.tile.upd.waiting = d :: rest → s.tile.upd.job = .none → ∃ t : State,
      exec (.updDataProgrammed ok) s = .next t ∧
      (ok = true → t.tile.upd.waiting = rest ∧ t.stage .tile = s.stage .tile ∧
        ∀ i b, (bytesLE d.words)[i]? = some b → d.off + i < a.2 → t.flashAt .tile (a.1 + d.off + i) = b) ∧
      (ok = false → t.stage .tile = 0 ∧ t.tile.upd.session = none ∧ (s.tapTakes .tile = false →
        t.pendBit .tile (Ev.UPD_FLASH_ERR .tile) = true))))

/-- R462, R463, R466: VERIFY starts the checks of R462, which end in VERIFIED, or in IDLE with the number of the
first check that failed. ACTIVATE of a program writes its journal record and enters ACTIVATE; of a correction image
it switches the copies. The punty loader copies block by block, and compares the hash at the end: then a TRIAL
record and a core restart, one repetition of the copy, or a RECOVERY record; a tile in its safe state goes to TRIAL
without the restart. -/
def Obligations.VerifyAndActivate : Prop :=
  (∀ (src : UpdSrc) (s : State), UpdRuns src 2 s → s.stage src.part = 1 →
    ∃ t : State, exec (.updVerify src) s = .next t ∧ t.updBusy src.part = true ∧ (t.chip src.part).upd.job = .verify ∧
      (t.chip src.part).upd.answer = updFrom src ∧ t.stage src.part = 1) ∧
  (∀ (p : Sys2Proof.Part) (s : State), s.alive p = true →
    let u := (s.chip p).upd
    let a := (s.updTarget p).1
    let found := s.imgErr p a (s.bitOf p Reg.UPD_STAT 27) (fun n => n == u.len)
    (u.job ≠ .verify → exec (.updVerifyDone p) s = .next s) ∧
    (u.job = .verify → u.waiting = [] → ∃ t : State, exec (.updVerifyDone p) s = .next t ∧ t.updBusy p = false ∧
      (t.chip p).flash = (s.chip p).flash ∧
      (∀ e, found = some e → t.stage p = 0 ∧ t.fldOf p Reg.UPD_STAT 23 16 = e ∧
        (s.tapTakes p = false → t.pendBit p (Ev.UPD_VERIFY_FAIL p) = true)) ∧
      (found = none → t.stage p = 2 ∧ t.rd p Reg.UPD_STG_VER = BitVec.ofNat 32 (s.imgVersion p a)))) ∧
  (∀ (src : UpdSrc) (s : State), UpdRuns src 3 s → s.stage src.part = 2 →
    let p := src.part
    let r := s.bootRec p
    let a := stagingSlot p
    let n := (s.imgTot p a + 65535) / 65536
    (s.bitOf p Reg.UPD_STAT 27 = true → ∃ t : State, exec (.updActivate src) s = .next t ∧ t.stage p = 0 ∧
      (t.chip p).flash = ((s.putRec p { r with corSel := !r.corSel }).chip p).flash ∧
      (p = .tile → s.tapTakes .tile = false → t.pendBit .tile Ev.UPD_COR_SWITCH = true)) ∧
    (s.bitOf p Reg.UPD_STAT 27 = false → ∃ t : State, exec (.updActivate src) s = .next t ∧ t.stage p = 3 ∧
      (t.chip p).flash = ((s.putRec p ⟨r.seq, 1, 0, 0, r.corSel, r.floor, n, s.imgHash p a⟩).chip p).flash ∧
      (t.chip p).upd.again = false ∧ (t.chip p).upd.answer = updFrom src)) ∧
  (∀ (p : Sys2Proof.Part) (s : State), s.alive p = true →
    let r := s.bootRec p
    let b := 65536 * r.progress
    let copying := s.stage p = 3 ∧ r.state = 1
    let same := s.imgHash p (activeSlot p) = r.stgH
    (¬ (copying ∧ r.progress < r.nblk) → exec (.puntyBlockCopied p) s = .next s) ∧
    (copying → r.progress < r.nblk → ∃ t : State, exec (.puntyBlockCopied p) s = .next t ∧
      (∀ i, i < 65536 → t.flashAt p (activeSlot p + b + i) = s.flashAt p (stagingSlot p + b + i)) ∧
      (∀ i, 0x2000 ≤ i → i < activeSlot p + b ∨ activeSlot p + b + 65536 ≤ i → t.flashAt p i = s.flashAt p i) ∧
      ∀ q x, t.rd q x = s.rd q x) ∧
    (¬ (copying ∧ r.nblk ≤ r.progress) → exec (.puntyCopyDone p) s = .next s) ∧
    (copying → r.nblk ≤ r.progress → same → (s.chip p).phase = .up → ¬ (p = .tile ∧ s.safe .tile = true) → ∃ t : State,
      exec (.puntyCopyDone p) s = .next t ∧ (t.chip p).phase = .booting ∧
      t.rd p Reg.SYS_RST_CAUSE = 0x50000210 ∧
      (t.chip p).flash = ((s.putRec p { r with state := 2, boots := 0 }).chip p).flash) ∧
    (copying → r.nblk ≤ r.progress → same → p = .tile → s.safe .tile = true → ∃ t : State,
      exec (.puntyCopyDone p) s = .next t ∧ (t.chip p).phase = (s.chip p).phase ∧ t.stage p = 4 ∧
      (t.chip p).flash = ((s.putRec p { r with state := 2, boots := 0 }).chip p).flash) ∧
    (copying → r.nblk ≤ r.progress → ¬ same → (s.chip p).upd.again = false → ∃ t : State,
      exec (.puntyCopyDone p) s = .next t ∧ (t.chip p).phase = (s.chip p).phase ∧ (t.chip p).upd.again = true ∧
      (t.chip p).flash = ((s.putRec p { r with progress := 0 }).chip p).flash) ∧
    (copying → r.nblk ≤ r.progress → ¬ same → (s.chip p).upd.again = true → (s.chip p).phase = .up →
      ¬ (p = .tile ∧ s.safe .tile = true) → ∃ t : State, exec (.puntyCopyDone p) s = .next t ∧
      (t.chip p).phase = .booting ∧ t.rd p Reg.SYS_RST_CAUSE = 0x50000210 ∧
      (t.chip p).flash = ((s.putRec p { r with state := 3 }).chip p).flash))

/-- R461: a transmit run of the sender starts at offset 0 with the FAILED marks of its positions cleared, sends the
next DATA packet while its offset lies in the window, and ends when every position is at LEN or FAILED; an ACK is
recorded, one with STATUS OFFSET sends the run back; a position without progress for UPD_TX_TO is marked FAILED. A
CONTROL packet goes out once. -/
def Obligations.UpdateTransmit : Prop :=
  ∀ s : State, s.alive .sender = true →
    let busy := s.bitOf .sender Reg.UPD_TX_STAT 31
    let d := s.rd .sender Reg.UPD_TX_DEST
    let chains := s.fldOf .sender Reg.UPD_TX_CHN 15 0 &&& s.chainMask
    let awake := fun (m : Nat) => ∀ k, k < 16 → m.testBit k = true → s.safe .sender = true ∨ s.lnkTx .sender k ≠ 2
    let sends := fun (m : Nat) (pkt : Packet) => ((List.range 16).filter fun k => m.testBit k && s.txActive .sender k &&
      !s.safe .sender).map fun k => Output.packet (portOf .sender k) pkt
    let ends := fun (r : Sys2Proof.Machine.UpdTx) (t : State) =>
      t.snd.updTx = (if (t.txOpen r).all (fun n => decide (r.len ≤ n)) then none else some r)
    let r0 : Sys2Proof.Machine.UpdTx := ⟨0, 16 * (s.rd .sender Reg.UPD_TX_SRC).toNat, (s.rd .sender Reg.UPD_TX_LEN).toNat,
      d.toNat % 128, BitVec.ofNat 32 (d.toNat / 65536), chains, s.elapsed .sender, []⟩
    (busy = true → exec (.updTxData true) s = .next s ∧ ∀ op, exec (.updTxControl op) s = .next s) ∧
    (busy = false → ∃ t : State, exec (.updTxData true) s = .next t ∧ ends r0 t ∧
      ∀ k p, k < 16 → chains.testBit k = true → p ∈ s.txPositions r0.dest k → p < 64 →
        t.bitOf .sender (Reg.UPD_TX_ACK k p) 31 = false) ∧
    (∀ op : BitVec 4, busy = false → ∃ t : State, exec (.updTxControl op) s = .next t ∧ (awake chains → ∃ l : List Nat,
      t.out = s.out ++ sends chains (mkPacket 0xB (d.toNat % 128) 0 0x7E
        (BitVec.ofNat 32 (2 * 2 ^ 28 + d.toNat / 65536 * 2 ^ 8)) [0, BitVec.ofNat 32 (op.toNat * 2 ^ 16 + 2),
          s.rd .sender (Reg.UPD_TX_ARG 0), s.rd .sender (Reg.UPD_TX_ARG 1)]) ++ l.map Output.msix) ∧
      (s.tapTakes .sender = false → t.pendBit .sender Ev.UPD_TX_DONE = true)) ∧
    (s.snd.updTx = none → exec (.updTxData false) s = .next s ∧ ∀ k p, exec (.updTxTimeout k p) s = .next s) ∧
    (∀ r, s.snd.updTx = some r →
      let n := min 64 ((r.len - r.off + 3) / 4)
      let ws := (List.range n).map fun i => s.fmWord (r.src + r.off + 4 * i)
      let open' := r.off < r.len ∧ r.off < s.txLow r + 1024 ∧ s.safe .sender = false
      (¬ open' → exec (.updTxData false) s = .next s) ∧
      (open' → ∃ t : State, exec (.updTxData false) s = .next t ∧ t.snd.updTx = some { r with off := r.off + 4 * n } ∧
        (awake r.chains → t.out = s.out ++ sends r.chains (mkPacket 0xB r.dest 0 0x7E (BitVec.ofNat 32 (r.session.toNat * 2 ^ 8))
          (BitVec.ofNat 32 r.off :: BitVec.ofNat 32 n :: ws)))) ∧
      (∀ (k : Fin 16) (p : Fin 64),
        let late := r.chains.testBit k.val = true ∧ p.val ∈ s.txPositions r.dest k.val ∧
          s.fldOf .sender (Reg.UPD_TX_ACK k.val p.val) 23 0 < r.len ∧
          (AMap.find r.moved (64 * k.val + p.val)).getD r.since + s.fldOf .sender Reg.UPD_TX_TO 15 0 * 1000000 ≤
            s.elapsed .sender
        (¬ late → exec (.updTxTimeout k p) s = .next s) ∧
        (late → ∃ t : State, exec (.updTxTimeout k p) s = .next t ∧
          t.bitOf .sender (Reg.UPD_TX_ACK k.val p.val) 31 = true ∧ ends r t))) ∧
    (∀ (k : Fin 16) (pkt : Packet), SenderTakes k.val pkt s → Pkt.is pkt 0xB 1 = true →
      let n := Pkt.src pkt
      let status := (Pkt.w pkt 3).toNat / 65536
      let next := (Pkt.w pkt 2).toNat % 2 ^ 24
      let seen := fun r : Sys2Proof.Machine.UpdTx =>
        if s.fldOf .sender (Reg.UPD_TX_ACK k.val n) 23 0 < next then
          { r with moved := AMap.put r.moved (64 * k.val + n) (s.elapsed .sender) } else r
      (64 ≤ n → exec (.updAck k pkt) s = .next s) ∧
      (n < 64 → ∃ t : State, exec (.updAck k pkt) s = .next t ∧
        t.fldOf .sender (Reg.UPD_TX_ACK k.val n) 30 28 = status % 8 ∧
        t.fldOf .sender (Reg.UPD_TX_ACK k.val n) 23 0 = next ∧
        t.bitOf .sender (Reg.UPD_TX_ACK k.val n) 31 = s.bitOf .sender (Reg.UPD_TX_ACK k.val n) 31 ∧
        (∀ r, s.snd.updTx = some r → r.chains.testBit k.val = true → n ∈ s.txPositions r.dest k.val → status ≠ 2 →
          ends (seen r) t) ∧
        (∀ r, s.snd.updTx = some r → r.chains.testBit k.val = true → n ∈ s.txPositions r.dest k.val → status = 2 →
          ends { seen r with off := t.txLow r } t)))

/-- R450, R468, R469: the owner key is fused once, by a confirmed program, and cannot be changed; accepting the
settings clears FALLBACK; a folio flash write to a place that R469 does not allow is denied, an allowed one erases a
sector or programs its words, and leaves every byte outside as it was. -/
def Obligations.FoliosFlashWrites : Prop :=
  ∀ (p : Sys2Proof.Part) (s : State), s.alive p = true →
    let u := (s.chip p).upd
    let busy := s.bitOf p Reg.UPD_FW_STAT 31
    let addr := (s.rd p Reg.UPD_FW_ADDR).toNat
    let starts := fun (c : Instr) (ok : Bool) (j : Sys2Proof.Machine.FwJob) =>
      (busy = true → exec c s = .next s) ∧
      (busy = false → ok = false → exec c s = .next (s.wr p Reg.UPD_FW_STAT 0x40000000)) ∧
      (busy = false → ok = true → ∃ t : State, exec c s = .next t ∧ t.rd p Reg.UPD_FW_STAT = 0x80000000 ∧
        (t.chip p).upd.fw = some j ∧ (t.chip p).flash = (s.chip p).flash)
    let done := fun (ok : Bool) (t : State) => (t.chip p).upd.fw = none ∧
      t.rd p Reg.UPD_FW_STAT = (if ok then 0 else 0x20000000) ∧
      (s.tapTakes p = false → t.pendBit p (Ev.UPD_FW_DONE p) = true ∧
        (ok = false → t.pendBit p (Ev.UPD_FLASH_ERR p) = true))
    (∀ v : Word, ¬ (v = 0x5A5A ∧ s.ownerBlank p = true ∧ u.running = .confirmed) →
      exec (.updOwnerFuse p v) s = .next s) ∧
    (s.ownerBlank p = true → u.running = .confirmed → ∃ t : State, exec (.updOwnerFuse p 0x5A5A) s = .next t ∧
      ∀ j w, j < 8 → (sha256w u.ownerKey)[j]? = some w → t.rd p (Reg.UPD_OWNER j) = w) ∧
    exec (.updSetAccept p) s = .next (s.wrBit p Reg.UPD_SET_STAT 30 false) ∧
    starts (.updFwErase p) (fwAllowed p (addr / 4096 * 4096) 4096) (.erase (addr / 4096 * 4096)) ∧
    (∀ nw : BitVec 7, starts (.updFwProgram p nw) (fwAllowed p (addr / 4 * 4) (4 * nw.toNat))
      (.program (addr / 4 * 4) ((List.range nw.toNat).map fun j => s.rd p (Reg.UPD_FW_DATA j)))) ∧
    (u.fw = none → ∀ ok, exec (.updFwDone p ok) s = .next s) ∧
    (∀ ok a, u.fw = some (.erase a) → ∃ t : State, exec (.updFwDone p ok) s = .next t ∧ done ok t ∧
      (∀ i, i < a ∨ a + 4096 ≤ i → t.flashAt p i = s.flashAt p i) ∧
      (ok = true → ∀ i, a ≤ i → i < a + 4096 → t.flashAt p i = 0xFF)) ∧
    (∀ ok a ws, u.fw = some (.program a ws) → 1 ≤ ws.length → ws.length ≤ 64 →
      a / 256 = (a + 4 * ws.length - 1) / 256 → ∃ t : State, exec (.updFwDone p ok) s = .next t ∧ done ok t ∧
      (∀ i, i / 256 ≠ a / 256 → t.flashAt p i = s.flashAt p i) ∧
      (ok = true → (∀ i b, (bytesLE ws)[i]? = some b → t.flashAt p (a + i) = b) ∧
        ∀ i, i < a ∨ a + 4 * ws.length ≤ i → t.flashAt p i = s.flashAt p i))

/-- R426, R478, R479, R487: resets of one part. Of the causes of a cycle that can arise the first in the order of
R479 is taken. A full reset holds internal reset, shows its code and every cause, and leaves every register at its
reset value but the count, the rails and what OTP holds, data memory cleared and flash as it was; a core restart
holds the cores for a boot and leaves the rest. The other part is untouched. R509: the TAP's instructions. EXTEST,
CLAMP and HIGHZ take the balls: the tile's sinks are off, and no event is raised; leaving them, each port goes on as
after a link failure. IDCODE and BYPASS put their word before TDO, and no instruction resets anything. -/
def Obligations.ResetsAndTap : Prop :=
  (∀ (p : Sys2Proof.Part) (others : List Sys2Proof.ResetKind) (s : State),
     ∀ c ∈ [(Sys2Proof.ResetKind.por, Instr.por p others), (.pin, .pinReset p others), (.brownout, .brownout p others),
       (.soft, .softReset p others), (.core, .coreRestart p others)],
     let l := (c.1 :: others).filter fun k => s.resetArises p k
     let first := [Sys2Proof.ResetKind.por, .brownout, .pin, .wake, .soft, .core].find? fun k => l.contains k
     (first = none → exec c.2 s = .next s) ∧
     (∀ k, first = some k → k ≠ .core → ∃ t : State, exec c.2 s = .next t ∧ (t.chip p).phase = .held ∧
       t.rd p Reg.SYS_RST_CAUSE = BitVec.ofNat 32 (resetCode k * 2 ^ 28 + resetSeen l) ∧
       (t.chip p).flash = (s.chip p).flash ∧ (∀ a, t.dmemByte p a = 0) ∧ (∀ n, t.core p n = Core.reset) ∧
       (t.chip p).tap = (if k = .por then .idcode else (s.chip p).tap) ∧
       (k ≠ .por → t.fldOf p Reg.SYS_RST_COUNT 15 0 = min 0xFFFF (s.fldOf p Reg.SYS_RST_COUNT 15 0 + 1)) ∧
       t.rd p Reg.UPD_EPOCH = s.rd p Reg.UPD_EPOCH ∧ t.rd p Reg.SYS_PWR_STAT = s.rd p Reg.SYS_PWR_STAT ∧
       (∀ j, j < 8 → t.rd p (Reg.UPD_OWNER j) = s.rd p (Reg.UPD_OWNER j)) ∧
       (∀ a, a ≠ Reg.SYS_RST_CAUSE → a ≠ Reg.SYS_RST_COUNT → a ≠ Reg.UPD_EPOCH → a ≠ Reg.SYS_PWR_STAT →
         (∀ j, j < 8 → a ≠ Reg.UPD_OWNER j) → t.rd p a = regReset p a) ∧
       ((s.chip p).acc.valid = true → (p = .sender → k ≠ .por) → (t.chip p).acc.valid = true ∧
         (t.chip p).acc.record = (s.chip p).acc.record) ∧
       (∀ q, q ≠ p → t.chip q = s.chip q) ∧ t.pvd = s.pvd ∧ t.out = s.out ∧ t.pending = s.pending) ∧
     (first = some .core → (s.chip p).phase = .up → ¬ (p = .tile ∧ s.safe .tile = true) → ∃ t : State,
       exec c.2 s = .next t ∧ (t.chip p).phase = .booting ∧ (t.chip p).fullBoot = false ∧
       t.rd p Reg.SYS_RST_CAUSE = BitVec.ofNat 32 (0x50000100 + resetSeen l) ∧
       (∀ k ∈ (t.chip p).cores, k.held = true) ∧ (∀ a, t.dmemByte p a = s.dmemByte p a) ∧
       (∀ a, a ≠ Reg.SYS_RST_CAUSE → a ≠ Reg.SYS_RST_COUNT → t.rd p a = s.rd p a))) ∧
  (∀ (p : Sys2Proof.Part) (s : State),
     let taken := s.tapTakes p = true
     let word : Word := if p = .sender then 0xB16105A7 else 0xA30725A7
     let keeps := fun (t : State) => (∀ q a, t.rd q a = s.rd q a) ∧ (∀ q n, t.core q n = s.core q n) ∧ t.pending = s.pending
     let holds := fun (c : Instr) (x : Tap) (o : List Output) =>
       (¬ taken → ∃ t : State, exec c s = .next t ∧ (t.chip p).tap = x ∧ keeps t ∧ t.out = s.out ++ o) ∧
       (taken → ∃ t : State, exec c s = .next t ∧ (t.chip p).tap = x ∧ t.tapTakes p = false ∧
         (∀ i, i < lnkPorts p → s.lnkSt p i ≠ 0 → t.lnkSt p i = 1) ∧
         (∀ i, i < lnkPorts p → s.lnkSt p i = 5 → t.pendBit p (Ev.LNK_FAIL p i) = true))
     let takes := fun (c : Instr) (x : Tap) => ∃ t : State, exec c s = .next t ∧ (t.chip p).tap = x ∧
       t.tapTakes p = true ∧ (p = .tile → t.til.lmp.scan = none ∧ t.til.lmp.lit = [] ∧ t.til.lmp.trim = none) ∧
       (∀ q a, a ≠ Reg.SCAN_STAT → t.rd q a = s.rd q a) ∧ t.out = s.out ∧
       ∀ ids, t.raiseAll p ids = t
     takes (.extest p) .extest ∧ takes (.clamp p) .clamp ∧ takes (.highz p) .highz ∧
     holds (.bypass p) .bypass [.tdo p 0] ∧ holds (.idcode p) .idcode [.tdo p word] ∧
     holds (.samplePreload p) .sample [] ∧ holds (.tapReset p) .idcode [])

/-- R475, R476, R478, R480, R482, R484, R487, R488: rails and supplies. Internal reset is released once every
monitored rail is in tolerance, with the straps sampled and enabled ports in DETECT, and after a wake with frame
memory in training; a sender in its low-power state is woken by WAKE_N and by a rise of PERST, which as a fall
resets the PCIe registers; a rail warning is an event; the rail bits follow the rails; the Porval domain is reset by
its own supply; the first edge of U starts the tile's clocks. -/
def Obligations.PowerAndClocks : Prop :=
  (∀ (p : Sys2Proof.Part) (straps : BitVec 8) (s : State),
    (¬ ((s.chip p).phase = .held ∧ s.railsGood p = true) → exec (.internalResetRelease p straps) s = .next s) ∧
    ((s.chip p).phase = .held → s.railsGood p = true → ∃ t : State, exec (.internalResetRelease p straps) s = .next t ∧
      (t.chip p).phase = .booting ∧ (t.chip p).fullBoot = true ∧
      t.rd p Reg.SYS_STRAP = straps.setWidth 32 &&& (if p = .sender then 0xF else 0xF4) ∧
      (p = .sender → t.rd .sender Reg.LNK_ROLE = straps.setWidth 32 &&& 3) ∧
      (p = .sender → s.fldOf .sender Reg.SYS_RST_CAUSE 31 28 = 6 → t.bitOf .sender Reg.DRC_CTRL 0 = true) ∧
      (p = .tile → t.bitOf .tile Reg.COR_BSTAT 29 = true) ∧ t.bitOf p Reg.IDN_CAT_STAT 30 = true ∧
      ∀ i, i < lnkPorts p → s.bitOf p (Reg.LNK_CTRL i) 31 = true → t.lnkSt p i = 1)) ∧
  (∀ (wakeN : Bool) (s : State), s.alive .sender = true →
    (s.stage .sender = 3 → exec (.lowPowerEntry wakeN) s = .next s) ∧
    (s.stage .sender ≠ 3 → (wakeN = false ∨ s.bitOf .sender Reg.SYS_WAKE_CFG 0 = false) → ∃ t : State,
      exec (.lowPowerEntry wakeN) s = .next t ∧ t.sender.phase = .low ∧ t.snd.ras = none ∧ t.tile = s.tile) ∧
    (s.stage .sender ≠ 3 → wakeN = true → s.bitOf .sender Reg.SYS_WAKE_CFG 0 = true → ∃ t : State,
      exec (.lowPowerEntry wakeN) s = .next t ∧ t.sender.phase = .held ∧
      t.fldOf .sender Reg.SYS_RST_CAUSE 31 28 = 6)) ∧
  (∀ (others : List Sys2Proof.ResetKind) (s : State),
    let low := s.sender.phase = .low
    let en := s.bitOf .sender Reg.SYS_WAKE_CFG 0 = true
    (¬ (low ∧ en) → exec (.wakeN others) s = .next s) ∧
    (low → en → ∃ t : State, exec (.wakeN others) s = .next t ∧ t.sender.phase = .held ∧
      ((∀ k ∈ others, k = .soft ∨ k = .core ∨ k = .wake) → t.fldOf .sender Reg.SYS_RST_CAUSE 31 28 = 6)) ∧
    (¬ low → exec (.hostPerst true) s = .next s) ∧
    (low → ∃ t : State, exec (.hostPerst true) s = .next t ∧ t.sender.phase = .held ∧
      t.fldOf .sender Reg.SYS_RST_CAUSE 31 28 = 6) ∧
    (s.alive .sender = false ∨ s.pcie = false → exec (.hostPerst false) s = .next s) ∧
    (s.alive .sender = true → s.pcie = true → ∃ t : State, exec (.hostPerst false) s = .next t ∧ t.host.dmaSel = 0 ∧
      t.host.msix = [] ∧ (s.tapTakes .sender = false → t.pendBit .sender Ev.HOST_PERST = true))) ∧
  (∀ (p : Sys2Proof.Part) (n : Fin 32) (ok : Bool) (s : State),
    let due := s.alive p = true ∧ ∀ w, (s.chip p).railAt = some w → w + 1000000 ≤ s.elapsed p
    let known := match p with
      | .sender => n.val < 7
      | .tile => n.val < 6 ∨ n.val = 31
    (¬ due → exec (.railWarn p) s = .next s) ∧
    (due → ∃ t : State, exec (.railWarn p) s = .next t ∧ (s.tapTakes p = false → t.pendBit p Ev.RAIL_WARN = true)) ∧
    (¬ known → exec (.railToleranceChange p n ok) s = .next s) ∧
    (known → ∃ t : State, exec (.railToleranceChange p n ok) s = .next t ∧ t.bitOf p Reg.SYS_PWR_STAT n.val = ok ∧
      (∀ q a, q ≠ p ∨ a ≠ Reg.SYS_PWR_STAT → t.rd q a = s.rd q a) ∧
      (t.pvd.powered = false ↔ s.pvd.powered = false ∨ (p = .tile ∧ ok = false ∧ (n.val = 0 ∨ n.val = 31) ∧
        t.bitOf .tile Reg.SYS_PWR_STAT 0 = false ∧ t.bitOf .tile Reg.SYS_PWR_STAT 31 = false)))) ∧
  (∀ s : State,
    (s.alive .tile = false ∨ s.til.refSeen = true → exec .uRefFirstEdge s = .next s) ∧
    (s.alive .tile = true → s.til.refSeen = false → ∃ t : State, exec .uRefFirstEdge s = .next t ∧
      t.til.refSeen = true ∧ t.rd .tile Reg.LNK_REF = 1 ∧ t.bitOf .tile (Reg.LNK_STAT 0) 20 = true ∧
      t.bitOf .tile (Reg.LNK_STAT 1) 20 = true) ∧
    (∃ t : State, exec .porvalDomainPor s = .next t ∧ t.pvd = PvDomain.reset ∧ t.tile.acc = Accession.empty ∧
      (∀ p a, t.rd p a = s.rd p a) ∧ t.sender = s.sender ∧ t.til = s.til) ∧
    (∃ t : State, exec .wakeOutPulseEnd s = .next t ∧ t.pvd.wakePulse = false ∧ t.tile = s.tile ∧ t.sender = s.sender))

/-- R40, R338, R456, R457, R464: the boot, which waits for the cores' writes and the tile's identity fill, of a part
whose journal record is not that of a copy under way and that reads no core settings. Without a fault of the image
in the active slot its program is loaded and shown, and every core is released: IDLE for a confirmed program; in a
trial BOOTS counts and the confirmation timer starts. With a record of RECOVERY, after three trial boots, and with a
faulty image, the recovery program runs in core 0 alone. -/
def Obligations.Boots : Prop :=
  ∀ (p : Sys2Proof.Part) (s : State),
    let ready := (s.chip p).phase = .booting ∧ (∀ k ∈ (s.chip p).cores, k.posted = [] ∧ k.transit = [] ∧ k.xfer = none) ∧
      (p = .tile → s.til.pix.filling = false)
    let r := s.bootRec p
    let a := activeSlot p
    let pairs := (s.chip p).fullBoot = true ∧ s.coreSetValid p = true
    let tried := s.putRec p { r with boots := r.boots + 1 }
    let boots := fun (f : State → Prop) => ∃ t : State, exec (.boot p) s = .next t ∧ (t.chip p).phase = .up ∧
      (t.chip p).rxq = [] ∧ t.updBusy p = false ∧ (s.tapTakes p = false → t.pendBit p Ev.BOOTED = true) ∧ f t
    let runs := fun (v : State) (t : State) => t.rd p Reg.UPD_ACT_VER = BitVec.ofNat 32 (v.imgVersion p a) ∧
      (∀ k ∈ (t.chip p).cores, k.held = false) ∧ (t.chip p).cores.length = (s.chip p).cores.length ∧
      (∀ n, n < (s.chip p).cores.length → (t.core p n).imem = v.imemLoaded p n ∧ (t.core p n).pc = 0) ∧
      (∀ j w, j < 8 → (wordsBE (v.imgHash p a))[j]? = some w → t.rd p (Reg.IDN_IMG_HASH j) = w)
    let recovers := boots fun t => t.stage p = 5 ∧ (t.chip p).upd.running = .recovery ∧
      (∀ n, n < (s.chip p).cores.length → ((t.core p n).held = true ↔ n ≠ 0)) ∧
      (s.tapTakes p = false → t.pendBit p (Ev.UPD_RECOVERY p) = true)
    (¬ ready → exec (.boot p) s = .next s) ∧
    (ready → r.state ≠ 1 → ¬ pairs →
      (r.state ≠ 2 → r.state ≠ 3 → s.imgErr p a false (activeLen p) = none →
        boots fun t => t.stage p = 0 ∧ (t.chip p).upd.running = .confirmed ∧ runs s t) ∧
      (r.state = 2 → r.boots < 3 → tried.imgErr p a false (activeLen p) = none → boots fun t =>
        t.stage p = 4 ∧ (t.chip p).upd.running = .trial ∧ runs tried t ∧
        (t.chip p).upd.confLeft = some (s.fldOf p Reg.UPD_CONF_TO 11 0 * 500000000)) ∧
      (r.state = 3 ∨ (r.state = 2 ∧ 3 ≤ r.boots) → recovers) ∧
      (r.state = 2 → r.boots < 3 → tried.imgErr p a false (activeLen p) ≠ none → recovers) ∧
      (r.state ≠ 2 → s.imgErr p a false (activeLen p) ≠ none → recovers))

/-- R72 to R75: encoding and decoding of the Folko instruction words agree. What the encoder writes for a
well-formed instruction is read back as that instruction, with every operand; a word that is read as an instruction
is the one the encoder writes for it. -/
def Obligations.FolkoDecodeOfEncode : Prop :=
  (∀ (i : Instr) (w : Word), i.wf = true → encodeFolko i = some w → ∃ (c : CoreId) (lag : Fin 9),
    decodeFolko c lag w = some i) ∧
  (∀ (c : CoreId) (lag : Fin 9) (w : Word) (i : Instr), decodeFolko c lag w = some i → encodeFolko i = some w)

/-- Every step keeps a sound state sound: register files, data and instruction memories, flash and general registers
in canonical form, g0 not among them, and each part with its cores. -/
def Obligations.SoundStatesStaySound : Prop :=
  ∀ s t : State, Sound s → step s = .next t → Sound t

/-- The frame of every command over the queue, data memory and flash: the queue of waiting commands is as before;
each byte of data memory is, unless the command stores, receives a message, transfers, writes registers, resets or
boots; and each byte of flash is, unless the command is one of the update, a folio flash write, a register write or
the boot. -/
def Obligations.QueueAndMemoryFrame : Prop :=
  ∀ (i : Instr) (s t : State), exec i s = .next t → t.pending = s.pending ∧
    (touchesDmem i = false → ∀ p a, t.dmemByte p a = s.dmemByte p a) ∧
    (touchesFlash i = false → ∀ p a, t.flashAt p a = s.flashAt p a)
end

