-- ==== Sys2Proof/Laws/Map.lean ====
section
/-!
SUPPORT. Sparse maps: what a key reads as after a write, and the canonical form that every write keeps.
-/

namespace Sys2Proof.Machine

variable {α : Type}

@[simp] theorem AMap.find_del_same (m : List (Nat × α)) (k : Nat) : AMap.find (AMap.del m k) k = none := by
  induction m with
  | nil => rfl
  | cons e m ih =>
    obtain ⟨a, v⟩ := e
    by_cases h : a = k
    · simp [AMap.del, h, ih]
    · simp [AMap.del, AMap.find, h, ih]

theorem AMap.find_del_ne (m : List (Nat × α)) {k j : Nat} (h : j ≠ k) :
    AMap.find (AMap.del m k) j = AMap.find m j := by
  induction m with
  | nil => rfl
  | cons e m ih =>
    obtain ⟨a, v⟩ := e
    by_cases ha : a = k
    · have hj : ¬ a = j := fun e => h (by omega)
      simp [AMap.del, AMap.find, ha, ih, show ¬ k = j by omega]
    · simp [AMap.del, AMap.find, ha, ih]

@[simp] theorem AMap.find_ins_same (m : List (Nat × α)) (k : Nat) (v : α) (h : AMap.find m k = none) :
    AMap.find (AMap.ins k v m) k = some v := by
  induction m with
  | nil => simp [AMap.ins, AMap.find]
  | cons e m ih =>
    obtain ⟨a, w⟩ := e
    have ha : ¬ a = k := fun e => by simp [AMap.find, e] at h
    simp only [AMap.find, ha, if_false] at h
    by_cases hk : k < a
    · simp [AMap.ins, hk, AMap.find]
    · simp [AMap.ins, hk, AMap.find, ha, ih h]

theorem AMap.find_ins_ne (m : List (Nat × α)) {k j : Nat} (v : α) (h : j ≠ k) :
    AMap.find (AMap.ins k v m) j = AMap.find m j := by
  induction m with
  | nil => simp [AMap.ins, AMap.find, Ne.symm h]
  | cons e m ih =>
    obtain ⟨a, w⟩ := e
    by_cases hk : k < a
    · simp [AMap.ins, hk, AMap.find, Ne.symm h]
    · simp [AMap.ins, hk, AMap.find, ih]

@[simp] theorem AMap.find_put_same (m : List (Nat × α)) (k : Nat) (v : α) : AMap.find (AMap.put m k v) k = some v := by
  simp [AMap.put]

theorem AMap.find_put_ne (m : List (Nat × α)) {k j : Nat} (v : α) (h : j ≠ k) :
    AMap.find (AMap.put m k v) j = AMap.find m j := by
  simp [AMap.put, AMap.find_ins_ne _ _ h, AMap.find_del_ne _ h]

/-! ### Maps with a value for unlisted keys -/

variable [DecidableEq α]

@[simp] theorem SMap.get_set_same (d : Nat → α) (m : List (Nat × α)) (k : Nat) (v : α) :
    SMap.get d (SMap.set d m k v) k = v := by
  unfold SMap.set SMap.get
  split
  · next h => simp [h]
  · simp

theorem SMap.get_set_ne (d : Nat → α) (m : List (Nat × α)) {k j : Nat} (v : α) (h : j ≠ k) :
    SMap.get d (SMap.set d m k v) j = SMap.get d m j := by
  unfold SMap.set SMap.get
  split
  · simp [AMap.find_del_ne _ h]
  · simp [AMap.find_put_ne _ _ h]

theorem SMap.get_set (d : Nat → α) (m : List (Nat × α)) (k j : Nat) (v : α) :
    SMap.get d (SMap.set d m k v) j = if j = k then v else SMap.get d m j := by
  by_cases h : j = k
  · subst h; simp
  · simp [h, SMap.get_set_ne d m v h]

/-! ### The canonical form -/

omit [DecidableEq α] in
theorem AMap.mem_del {m : List (Nat × α)} {k : Nat} {e : Nat × α} (h : e ∈ AMap.del m k) : e ∈ m ∧ e.1 ≠ k := by
  induction m with
  | nil => cases h
  | cons x m ih =>
    obtain ⟨a, v⟩ := x
    by_cases ha : a = k
    · simp only [AMap.del, ha, if_true] at h
      exact ⟨List.mem_cons_of_mem _ (ih h).1, (ih h).2⟩
    · simp only [AMap.del, ha, if_false, List.mem_cons] at h
      rcases h with h | h
      · subst h; exact ⟨List.mem_cons_self .., ha⟩
      · exact ⟨List.mem_cons_of_mem _ (ih h).1, (ih h).2⟩

omit [DecidableEq α] in
theorem AMap.mem_ins {m : List (Nat × α)} {k : Nat} {v : α} {e : Nat × α} (h : e ∈ AMap.ins k v m) :
    e = (k, v) ∨ e ∈ m := by
  induction m with
  | nil => simpa [AMap.ins] using h
  | cons x m ih =>
    obtain ⟨a, w⟩ := x
    by_cases hk : k < a
    · simpa [AMap.ins, hk] using h
    · simp only [AMap.ins, hk, if_false, List.mem_cons] at h ⊢
      rcases h with h | h
      · exact .inr (.inl h)
      · rcases ih h with h | h
        · exact .inl h
        · exact .inr (.inr h)

omit [DecidableEq α] in
theorem AMap.sorted_cons {a : Nat} {v : α} {m : List (Nat × α)} :
    AMap.sorted ((a, v) :: m) = true ↔ (∀ e ∈ m, a < e.1) ∧ AMap.sorted m = true := by
  simp [AMap.sorted]

omit [DecidableEq α] in
theorem AMap.sorted_del {m : List (Nat × α)} (k : Nat) (h : AMap.sorted m = true) : AMap.sorted (AMap.del m k) = true := by
  induction m with
  | nil => rfl
  | cons x m ih =>
    obtain ⟨a, v⟩ := x
    rw [AMap.sorted_cons] at h
    by_cases ha : a = k
    · simpa [AMap.del, ha] using ih h.2
    · simp only [AMap.del, ha, if_false, AMap.sorted_cons]
      exact ⟨fun e he => h.1 e (AMap.mem_del he).1, ih h.2⟩

omit [DecidableEq α] in
theorem AMap.sorted_ins {m : List (Nat × α)} {k : Nat} (v : α) (h : AMap.sorted m = true) (hk : ∀ e ∈ m, e.1 ≠ k) :
    AMap.sorted (AMap.ins k v m) = true := by
  induction m with
  | nil => simp [AMap.ins, AMap.sorted]
  | cons x m ih =>
    obtain ⟨a, w⟩ := x
    have h' := AMap.sorted_cons.1 h
    by_cases hlt : k < a
    · simp only [AMap.ins, hlt, if_true]
      refine AMap.sorted_cons.2 ⟨fun e he => ?_, h⟩
      rcases List.mem_cons.1 he with he | he
      · subst he; exact hlt
      · exact Nat.lt_trans hlt (h'.1 e he)
    · simp only [AMap.ins, hlt, if_false]
      have hne : a ≠ k := hk (a, w) (List.mem_cons_self ..)
      refine AMap.sorted_cons.2 ⟨fun e he => ?_, ih h'.2 fun e he => hk e (List.mem_cons_of_mem _ he)⟩
      rcases AMap.mem_ins he with he | he
      · subst he; show a < k; omega
      · exact h'.1 e he

omit [DecidableEq α] in
theorem AMap.sorted_put {m : List (Nat × α)} (k : Nat) (v : α) (h : AMap.sorted m = true) :
    AMap.sorted (AMap.put m k v) = true :=
  AMap.sorted_ins v (AMap.sorted_del k h) fun _ he => (AMap.mem_del he).2

theorem SMap.wf_iff {d : Nat → α} {m : List (Nat × α)} :
    SMap.wf d m = true ↔ AMap.sorted m = true ∧ ∀ e ∈ m, e.2 ≠ d e.1 := by
  simp [SMap.wf]

/-- Every write keeps the canonical form. -/
theorem SMap.wf_set {d : Nat → α} {m : List (Nat × α)} (k : Nat) (v : α) (h : SMap.wf d m = true) :
    SMap.wf d (SMap.set d m k v) = true := by
  rw [SMap.wf_iff] at h ⊢
  unfold SMap.set
  split
  · exact ⟨AMap.sorted_del k h.1, fun e he => h.2 e (AMap.mem_del he).1⟩
  · next hv =>
    refine ⟨AMap.sorted_put k v h.1, fun e he => ?_⟩
    rcases AMap.mem_ins he with he | he
    · subst he; exact hv
    · exact h.2 e (AMap.mem_del he).1

/-- The keys of a map after a write are its keys before, and the one written. -/
theorem SMap.mem_set {d : Nat → α} {m : List (Nat × α)} {k : Nat} {v : α} {e : Nat × α}
    (h : e ∈ SMap.set d m k v) : e.1 = k ∨ e ∈ m := by
  unfold SMap.set at h
  split at h
  · exact .inr (AMap.mem_del h).1
  · rcases AMap.mem_ins h with h | h
    · subst h; exact .inl rfl
    · exact .inr (AMap.mem_del h).1

end Sys2Proof.Machine
end

