-- ==== Sys2Proof/Laws/Memory.lean ====
section
/-!
SUPPORT. Byte memories: what a byte reads as after a write, a word read back, and the canonical form that every memory
operation keeps.
-/

namespace Sys2Proof.Machine

variable {d : Nat → Byte} {m : List Host.Cell}

theorem Memory.wf_set (a : Nat) (v : Byte) (h : Memory.wf d m = true) : Memory.wf d (SMap.set d m a v) = true :=
  SMap.wf_set a v h

theorem Memory.wf_writeWord (a : Nat) (w : Word) (h : Memory.wf d m = true) :
    Memory.wf d (Mem.writeWord d m a w) = true :=
  SMap.wf_set _ _ (SMap.wf_set _ _ (SMap.wf_set _ _ (SMap.wf_set _ _ h)))

theorem Memory.wf_writeBytes (bs : List Byte) : ∀ {m : List Host.Cell} (a : Nat), Memory.wf d m = true →
    Memory.wf d (Mem.writeBytes d m a bs) = true := by
  induction bs with
  | nil => intro m a h; exact h
  | cons b bs ih => intro m a h; exact ih (a + 1) (SMap.wf_set a b h)

theorem Memory.wf_writeWords (ws : List Word) : ∀ {m : List Host.Cell} (a : Nat), Memory.wf d m = true →
    Memory.wf d (Mem.writeWords d m a ws) = true := by
  induction ws with
  | nil => intro m a h; exact h
  | cons w ws ih => intro m a h; exact ih (a + 4) (Memory.wf_writeWord a w h)

/-- A byte after a word is written: one of the word's four, or what it was. -/
theorem Mem.get_writeWord (a x : Nat) (w : Word) :
    SMap.get d (Mem.writeWord d m a w) x =
      if a ≤ x ∧ x < a + 4 then byteOf w (x - a) else SMap.get d m x := by
  unfold Mem.writeWord
  simp only [SMap.get_set]
  by_cases h3 : x = a + 3
  · subst h3; simp
  · by_cases h2 : x = a + 2
    · subst h2; simp
    · by_cases h1 : x = a + 1
      · subst h1; simp
      · by_cases h0 : x = a
        · subst h0; simp
        · simp [h0, h1, h2, h3, show ¬ (a ≤ x ∧ x < a + 4) by omega]

/-- Bytes outside the stored ones read as before. -/
theorem Mem.get_writeBytes_ne (bs : List Byte) : ∀ {m : List Host.Cell} (a x : Nat), x < a ∨ a + bs.length ≤ x →
    SMap.get d (Mem.writeBytes d m a bs) x = SMap.get d m x := by
  induction bs with
  | nil => intro m a x _; rfl
  | cons b bs ih =>
    intro m a x h
    simp only [List.length_cons] at h
    rw [Mem.writeBytes, ih (a + 1) x (by omega), SMap.get_set_ne _ _ _ (by omega)]

theorem Mem.get_writeWords_ne (ws : List Word) : ∀ {m : List Host.Cell} (a x : Nat), x < a ∨ a + 4 * ws.length ≤ x →
    SMap.get d (Mem.writeWords d m a ws) x = SMap.get d m x := by
  induction ws with
  | nil => intro m a x _; rfl
  | cons w ws ih =>
    intro m a x h
    simp only [List.length_cons] at h
    rw [Mem.writeWords, ih (a + 4) x (by omega), Mem.get_writeWord, if_neg (by omega)]

theorem wordOf_byteOf (w : Word) : wordOf (byteOf w 0) (byteOf w 1) (byteOf w 2) (byteOf w 3) = w := by
  apply BitVec.eq_of_getLsbD_eq
  intro i hi
  have e : i = 8 * (i / 8) + i % 8 := by omega
  simp only [wordOf, byteOf, BitVec.getLsbD_append, BitVec.getLsbD_setWidth, BitVec.getLsbD_ushiftRight]
  have : i / 8 = 0 ∨ i / 8 = 1 ∨ i / 8 = 2 ∨ i / 8 = 3 := by omega
  rcases this with h | h | h | h
  · simp [show i < 8 by omega]
  · simp [show ¬ i < 8 by omega, show i - 8 < 8 by omega,
      show 8 + (i - 8) = i by omega]
  · simp [show ¬ i < 8 by omega, show ¬ i - 8 < 8 by omega,
      show i - 8 - 8 < 8 by omega, show 16 + (i - 8 - 8) = i by omega]
  · simp [show ¬ i < 8 by omega, show ¬ i - 8 < 8 by omega,
      show ¬ i - 8 - 8 < 8 by omega, show i - 8 - 8 - 8 < 8 by omega, show 24 + (i - 8 - 8 - 8) = i by omega]

/-- A word read where it was written. -/
@[simp] theorem Mem.readWord_writeWord (a : Nat) (w : Word) : Mem.readWord d (Mem.writeWord d m a w) a = w := by
  unfold Mem.readWord
  simp only [Mem.get_writeWord]
  rw [if_pos (by omega), if_pos (by omega), if_pos (by omega), if_pos (by omega)]
  simpa using wordOf_byteOf w

/-- A word read clear of the one written. -/
theorem Mem.readWord_writeWord_ne (a x : Nat) (w : Word) (h : x + 4 ≤ a ∨ a + 4 ≤ x) :
    Mem.readWord d (Mem.writeWord d m a w) x = Mem.readWord d m x := by
  unfold Mem.readWord
  simp only [Mem.get_writeWord]
  rw [if_neg (by omega), if_neg (by omega), if_neg (by omega), if_neg (by omega)]

end Sys2Proof.Machine
end

