-- ==== Sys2Proof/Laws/State.lean ====
section
/-!
SUPPORT. What each update of State leaves of every field, so that no proof unfolds a record update.
-/

namespace Sys2Proof.Machine

/-! ### A part changed -/

@[simp] theorem State.upd_sender_sender (f : Chip → Chip) (s : State) : (s.upd .sender f).sender = f s.sender := rfl
@[simp] theorem State.upd_sender_tile (f : Chip → Chip) (s : State) : (s.upd .sender f).tile = s.tile := rfl
@[simp] theorem State.upd_tile_tile (f : Chip → Chip) (s : State) : (s.upd .tile f).tile = f s.tile := rfl
@[simp] theorem State.upd_tile_sender (f : Chip → Chip) (s : State) : (s.upd .tile f).sender = s.sender := rfl
@[simp] theorem State.upd_host (p : Part) (f : Chip → Chip) (s : State) : (s.upd p f).host = s.host := by
  cases p <;> rfl
@[simp] theorem State.upd_snd (p : Part) (f : Chip → Chip) (s : State) : (s.upd p f).snd = s.snd := by
  cases p <;> rfl
@[simp] theorem State.upd_til (p : Part) (f : Chip → Chip) (s : State) : (s.upd p f).til = s.til := by
  cases p <;> rfl
@[simp] theorem State.upd_pvd (p : Part) (f : Chip → Chip) (s : State) : (s.upd p f).pvd = s.pvd := by
  cases p <;> rfl
@[simp] theorem State.upd_out (p : Part) (f : Chip → Chip) (s : State) : (s.upd p f).out = s.out := by
  cases p <;> rfl
@[simp] theorem State.upd_draws (p : Part) (f : Chip → Chip) (s : State) : (s.upd p f).draws = s.draws := by
  cases p <;> rfl
@[simp] theorem State.upd_pending (p : Part) (f : Chip → Chip) (s : State) : (s.upd p f).pending = s.pending := by
  cases p <;> rfl
@[simp] theorem State.chip_upd_same (p : Part) (f : Chip → Chip) (s : State) : (s.upd p f).chip p = f (s.chip p) := by
  cases p <;> rfl
theorem State.chip_upd_ne {p q : Part} (h : q ≠ p) (f : Chip → Chip) (s : State) : (s.upd p f).chip q = s.chip q := by
  cases p <;> cases q <;> first | rfl | exact absurd rfl h
theorem State.chip_upd (p q : Part) (f : Chip → Chip) (s : State) :
    (s.upd p f).chip q = if q = p then f (s.chip q) else s.chip q := by
  cases p <;> cases q <;> rfl
@[simp] theorem State.upd_upd (p : Part) (f g : Chip → Chip) (s : State) : (s.upd p f).upd p g = s.upd p fun c => g (f c) := by
  cases p <;> rfl
@[simp] theorem State.upd_id (p : Part) (s : State) : (s.upd p fun c => c) = s := by cases p <;> rfl

/-! ### The other holders changed -/

@[simp] theorem State.updSnd_sender (f : SenderUnit → SenderUnit) (s : State) : (s.updSnd f).sender = s.sender := rfl
@[simp] theorem State.updSnd_tile (f : SenderUnit → SenderUnit) (s : State) : (s.updSnd f).tile = s.tile := rfl
@[simp] theorem State.updSnd_host (f : SenderUnit → SenderUnit) (s : State) : (s.updSnd f).host = s.host := rfl
@[simp] theorem State.updSnd_snd (f : SenderUnit → SenderUnit) (s : State) : (s.updSnd f).snd = f s.snd := rfl
@[simp] theorem State.updSnd_til (f : SenderUnit → SenderUnit) (s : State) : (s.updSnd f).til = s.til := rfl
@[simp] theorem State.updSnd_pvd (f : SenderUnit → SenderUnit) (s : State) : (s.updSnd f).pvd = s.pvd := rfl
@[simp] theorem State.updSnd_out (f : SenderUnit → SenderUnit) (s : State) : (s.updSnd f).out = s.out := rfl
@[simp] theorem State.updSnd_draws (f : SenderUnit → SenderUnit) (s : State) : (s.updSnd f).draws = s.draws := rfl
@[simp] theorem State.updSnd_pending (f : SenderUnit → SenderUnit) (s : State) : (s.updSnd f).pending = s.pending := rfl
@[simp] theorem State.updSnd_chip (f : SenderUnit → SenderUnit) (p : Part) (s : State) : (s.updSnd f).chip p = s.chip p := by
  cases p <;> rfl
@[simp] theorem State.updTil_sender (f : TileUnit → TileUnit) (s : State) : (s.updTil f).sender = s.sender := rfl
@[simp] theorem State.updTil_tile (f : TileUnit → TileUnit) (s : State) : (s.updTil f).tile = s.tile := rfl
@[simp] theorem State.updTil_host (f : TileUnit → TileUnit) (s : State) : (s.updTil f).host = s.host := rfl
@[simp] theorem State.updTil_snd (f : TileUnit → TileUnit) (s : State) : (s.updTil f).snd = s.snd := rfl
@[simp] theorem State.updTil_til (f : TileUnit → TileUnit) (s : State) : (s.updTil f).til = f s.til := rfl
@[simp] theorem State.updTil_pvd (f : TileUnit → TileUnit) (s : State) : (s.updTil f).pvd = s.pvd := rfl
@[simp] theorem State.updTil_out (f : TileUnit → TileUnit) (s : State) : (s.updTil f).out = s.out := rfl
@[simp] theorem State.updTil_draws (f : TileUnit → TileUnit) (s : State) : (s.updTil f).draws = s.draws := rfl
@[simp] theorem State.updTil_pending (f : TileUnit → TileUnit) (s : State) : (s.updTil f).pending = s.pending := rfl
@[simp] theorem State.updTil_chip (f : TileUnit → TileUnit) (p : Part) (s : State) : (s.updTil f).chip p = s.chip p := by
  cases p <;> rfl
@[simp] theorem State.updPix_sender (f : PixUnit → PixUnit) (s : State) : (s.updPix f).sender = s.sender := rfl
@[simp] theorem State.updPix_tile (f : PixUnit → PixUnit) (s : State) : (s.updPix f).tile = s.tile := rfl
@[simp] theorem State.updPix_host (f : PixUnit → PixUnit) (s : State) : (s.updPix f).host = s.host := rfl
@[simp] theorem State.updPix_snd (f : PixUnit → PixUnit) (s : State) : (s.updPix f).snd = s.snd := rfl
@[simp] theorem State.updPix_til (f : PixUnit → PixUnit) (s : State) : (s.updPix f).til = { s.til with pix := f s.til.pix } := rfl
@[simp] theorem State.updPix_pvd (f : PixUnit → PixUnit) (s : State) : (s.updPix f).pvd = s.pvd := rfl
@[simp] theorem State.updPix_out (f : PixUnit → PixUnit) (s : State) : (s.updPix f).out = s.out := rfl
@[simp] theorem State.updPix_draws (f : PixUnit → PixUnit) (s : State) : (s.updPix f).draws = s.draws := rfl
@[simp] theorem State.updPix_pending (f : PixUnit → PixUnit) (s : State) : (s.updPix f).pending = s.pending := rfl
@[simp] theorem State.updPix_chip (f : PixUnit → PixUnit) (p : Part) (s : State) : (s.updPix f).chip p = s.chip p := by
  cases p <;> rfl
@[simp] theorem State.updLmp_sender (f : LampUnit → LampUnit) (s : State) : (s.updLmp f).sender = s.sender := rfl
@[simp] theorem State.updLmp_tile (f : LampUnit → LampUnit) (s : State) : (s.updLmp f).tile = s.tile := rfl
@[simp] theorem State.updLmp_host (f : LampUnit → LampUnit) (s : State) : (s.updLmp f).host = s.host := rfl
@[simp] theorem State.updLmp_snd (f : LampUnit → LampUnit) (s : State) : (s.updLmp f).snd = s.snd := rfl
@[simp] theorem State.updLmp_til (f : LampUnit → LampUnit) (s : State) : (s.updLmp f).til = { s.til with lmp := f s.til.lmp } := rfl
@[simp] theorem State.updLmp_pvd (f : LampUnit → LampUnit) (s : State) : (s.updLmp f).pvd = s.pvd := rfl
@[simp] theorem State.updLmp_out (f : LampUnit → LampUnit) (s : State) : (s.updLmp f).out = s.out := rfl
@[simp] theorem State.updLmp_draws (f : LampUnit → LampUnit) (s : State) : (s.updLmp f).draws = s.draws := rfl
@[simp] theorem State.updLmp_pending (f : LampUnit → LampUnit) (s : State) : (s.updLmp f).pending = s.pending := rfl
@[simp] theorem State.updLmp_chip (f : LampUnit → LampUnit) (p : Part) (s : State) : (s.updLmp f).chip p = s.chip p := by
  cases p <;> rfl
@[simp] theorem State.emit_sender (o : Output) (s : State) : (s.emit o).sender = s.sender := rfl
@[simp] theorem State.emit_tile (o : Output) (s : State) : (s.emit o).tile = s.tile := rfl
@[simp] theorem State.emit_host (o : Output) (s : State) : (s.emit o).host = s.host := rfl
@[simp] theorem State.emit_snd (o : Output) (s : State) : (s.emit o).snd = s.snd := rfl
@[simp] theorem State.emit_til (o : Output) (s : State) : (s.emit o).til = s.til := rfl
@[simp] theorem State.emit_pvd (o : Output) (s : State) : (s.emit o).pvd = s.pvd := rfl
@[simp] theorem State.emit_out (o : Output) (s : State) : (s.emit o).out = s.out ++ [o] := rfl
@[simp] theorem State.emit_draws (o : Output) (s : State) : (s.emit o).draws = s.draws := rfl
@[simp] theorem State.emit_pending (o : Output) (s : State) : (s.emit o).pending = s.pending := rfl
@[simp] theorem State.emit_chip (o : Output) (p : Part) (s : State) : (s.emit o).chip p = s.chip p := by
  cases p <;> rfl

/-! ### A folio register set -/

@[simp] theorem State.wr_host (p : Part) (a : Nat) (v : Word) (s : State) : (s.wr p a v).host = s.host := by
  cases p <;> rfl
@[simp] theorem State.wr_snd (p : Part) (a : Nat) (v : Word) (s : State) : (s.wr p a v).snd = s.snd := by
  cases p <;> rfl
@[simp] theorem State.wr_til (p : Part) (a : Nat) (v : Word) (s : State) : (s.wr p a v).til = s.til := by
  cases p <;> rfl
@[simp] theorem State.wr_pvd (p : Part) (a : Nat) (v : Word) (s : State) : (s.wr p a v).pvd = s.pvd := by
  cases p <;> rfl
@[simp] theorem State.wr_out (p : Part) (a : Nat) (v : Word) (s : State) : (s.wr p a v).out = s.out := by
  cases p <;> rfl
@[simp] theorem State.wr_draws (p : Part) (a : Nat) (v : Word) (s : State) : (s.wr p a v).draws = s.draws := by
  cases p <;> rfl
@[simp] theorem State.wr_pending (p : Part) (a : Nat) (v : Word) (s : State) : (s.wr p a v).pending = s.pending := by
  cases p <;> rfl
@[simp] theorem State.wr_chip_phase (p q : Part) (a : Nat) (v : Word) (s : State) :
    ((s.wr p a v).chip q).phase = (s.chip q).phase := by
  cases p <;> cases q <;> rfl
@[simp] theorem State.wr_chip_cores (p q : Part) (a : Nat) (v : Word) (s : State) :
    ((s.wr p a v).chip q).cores = (s.chip q).cores := by
  cases p <;> cases q <;> rfl
@[simp] theorem State.wr_chip_dmem (p q : Part) (a : Nat) (v : Word) (s : State) :
    ((s.wr p a v).chip q).dmem = (s.chip q).dmem := by
  cases p <;> cases q <;> rfl
@[simp] theorem State.wr_chip_flash (p q : Part) (a : Nat) (v : Word) (s : State) :
    ((s.wr p a v).chip q).flash = (s.chip q).flash := by
  cases p <;> cases q <;> rfl
@[simp] theorem State.wr_chip_count (p q : Part) (a : Nat) (v : Word) (s : State) :
    ((s.wr p a v).chip q).count = (s.chip q).count := by
  cases p <;> cases q <;> rfl
@[simp] theorem State.wr_chip_cycles (p q : Part) (a : Nat) (v : Word) (s : State) :
    ((s.wr p a v).chip q).cycles = (s.chip q).cycles := by
  cases p <;> cases q <;> rfl
@[simp] theorem State.wr_chip_log (p q : Part) (a : Nat) (v : Word) (s : State) :
    ((s.wr p a v).chip q).log = (s.chip q).log := by
  cases p <;> cases q <;> rfl
@[simp] theorem State.wr_chip_logLost (p q : Part) (a : Nat) (v : Word) (s : State) :
    ((s.wr p a v).chip q).logLost = (s.chip q).logLost := by
  cases p <;> cases q <;> rfl
@[simp] theorem State.wr_chip_att (p q : Part) (a : Nat) (v : Word) (s : State) :
    ((s.wr p a v).chip q).att = (s.chip q).att := by
  cases p <;> cases q <;> rfl
@[simp] theorem State.wr_chip_acc (p q : Part) (a : Nat) (v : Word) (s : State) :
    ((s.wr p a v).chip q).acc = (s.chip q).acc := by
  cases p <;> cases q <;> rfl
@[simp] theorem State.wr_chip_rxq (p q : Part) (a : Nat) (v : Word) (s : State) :
    ((s.wr p a v).chip q).rxq = (s.chip q).rxq := by
  cases p <;> cases q <;> rfl
@[simp] theorem State.wr_chip_commit (p q : Part) (a : Nat) (v : Word) (s : State) :
    ((s.wr p a v).chip q).commit = (s.chip q).commit := by
  cases p <;> cases q <;> rfl
@[simp] theorem State.wr_chip_ports (p q : Part) (a : Nat) (v : Word) (s : State) :
    ((s.wr p a v).chip q).ports = (s.chip q).ports := by
  cases p <;> cases q <;> rfl
@[simp] theorem State.wr_chip_txq (p q : Part) (a : Nat) (v : Word) (s : State) :
    ((s.wr p a v).chip q).txq = (s.chip q).txq := by
  cases p <;> cases q <;> rfl
@[simp] theorem State.wr_chip_nextLatch (p q : Part) (a : Nat) (v : Word) (s : State) :
    ((s.wr p a v).chip q).nextLatch = (s.chip q).nextLatch := by
  cases p <;> cases q <;> rfl
@[simp] theorem State.wr_chip_nextOrigin (p q : Part) (a : Nat) (v : Word) (s : State) :
    ((s.wr p a v).chip q).nextOrigin = (s.chip q).nextOrigin := by
  cases p <;> cases q <;> rfl
@[simp] theorem State.wr_chip_origins (p q : Part) (a : Nat) (v : Word) (s : State) :
    ((s.wr p a v).chip q).origins = (s.chip q).origins := by
  cases p <;> cases q <;> rfl
@[simp] theorem State.wr_chip_thm (p q : Part) (a : Nat) (v : Word) (s : State) :
    ((s.wr p a v).chip q).thm = (s.chip q).thm := by
  cases p <;> cases q <;> rfl
@[simp] theorem State.wr_chip_upd (p q : Part) (a : Nat) (v : Word) (s : State) :
    ((s.wr p a v).chip q).upd = (s.chip q).upd := by
  cases p <;> cases q <;> rfl
@[simp] theorem State.wr_chip_vfy (p q : Part) (a : Nat) (v : Word) (s : State) :
    ((s.wr p a v).chip q).vfy = (s.chip q).vfy := by
  cases p <;> cases q <;> rfl
@[simp] theorem State.wr_chip_fullBoot (p q : Part) (a : Nat) (v : Word) (s : State) :
    ((s.wr p a v).chip q).fullBoot = (s.chip q).fullBoot := by
  cases p <;> cases q <;> rfl
@[simp] theorem State.wr_chip_tap (p q : Part) (a : Nat) (v : Word) (s : State) :
    ((s.wr p a v).chip q).tap = (s.chip q).tap := by
  cases p <;> cases q <;> rfl
@[simp] theorem State.wr_chip_railAt (p q : Part) (a : Nat) (v : Word) (s : State) :
    ((s.wr p a v).chip q).railAt = (s.chip q).railAt := by
  cases p <;> cases q <;> rfl

/-! ### A core changed -/

@[simp] theorem State.updCore_host (p : Part) (n : Nat) (f : Core → Core) (s : State) : (s.updCore p n f).host = s.host := by
  cases p <;> rfl
@[simp] theorem State.updCore_snd (p : Part) (n : Nat) (f : Core → Core) (s : State) : (s.updCore p n f).snd = s.snd := by
  cases p <;> rfl
@[simp] theorem State.updCore_til (p : Part) (n : Nat) (f : Core → Core) (s : State) : (s.updCore p n f).til = s.til := by
  cases p <;> rfl
@[simp] theorem State.updCore_pvd (p : Part) (n : Nat) (f : Core → Core) (s : State) : (s.updCore p n f).pvd = s.pvd := by
  cases p <;> rfl
@[simp] theorem State.updCore_out (p : Part) (n : Nat) (f : Core → Core) (s : State) : (s.updCore p n f).out = s.out := by
  cases p <;> rfl
@[simp] theorem State.updCore_draws (p : Part) (n : Nat) (f : Core → Core) (s : State) : (s.updCore p n f).draws = s.draws := by
  cases p <;> rfl
@[simp] theorem State.updCore_pending (p : Part) (n : Nat) (f : Core → Core) (s : State) : (s.updCore p n f).pending = s.pending := by
  cases p <;> rfl
@[simp] theorem State.updCore_chip_folio (p q : Part) (n : Nat) (f : Core → Core) (s : State) :
    ((s.updCore p n f).chip q).folio = (s.chip q).folio := by
  cases p <;> cases q <;> rfl
@[simp] theorem State.updCore_chip_phase (p q : Part) (n : Nat) (f : Core → Core) (s : State) :
    ((s.updCore p n f).chip q).phase = (s.chip q).phase := by
  cases p <;> cases q <;> rfl
@[simp] theorem State.updCore_chip_dmem (p q : Part) (n : Nat) (f : Core → Core) (s : State) :
    ((s.updCore p n f).chip q).dmem = (s.chip q).dmem := by
  cases p <;> cases q <;> rfl
@[simp] theorem State.updCore_chip_flash (p q : Part) (n : Nat) (f : Core → Core) (s : State) :
    ((s.updCore p n f).chip q).flash = (s.chip q).flash := by
  cases p <;> cases q <;> rfl
@[simp] theorem State.updCore_chip_count (p q : Part) (n : Nat) (f : Core → Core) (s : State) :
    ((s.updCore p n f).chip q).count = (s.chip q).count := by
  cases p <;> cases q <;> rfl
@[simp] theorem State.updCore_chip_cycles (p q : Part) (n : Nat) (f : Core → Core) (s : State) :
    ((s.updCore p n f).chip q).cycles = (s.chip q).cycles := by
  cases p <;> cases q <;> rfl
@[simp] theorem State.updCore_chip_log (p q : Part) (n : Nat) (f : Core → Core) (s : State) :
    ((s.updCore p n f).chip q).log = (s.chip q).log := by
  cases p <;> cases q <;> rfl
@[simp] theorem State.updCore_chip_logLost (p q : Part) (n : Nat) (f : Core → Core) (s : State) :
    ((s.updCore p n f).chip q).logLost = (s.chip q).logLost := by
  cases p <;> cases q <;> rfl
@[simp] theorem State.updCore_chip_att (p q : Part) (n : Nat) (f : Core → Core) (s : State) :
    ((s.updCore p n f).chip q).att = (s.chip q).att := by
  cases p <;> cases q <;> rfl
@[simp] theorem State.updCore_chip_acc (p q : Part) (n : Nat) (f : Core → Core) (s : State) :
    ((s.updCore p n f).chip q).acc = (s.chip q).acc := by
  cases p <;> cases q <;> rfl
@[simp] theorem State.updCore_chip_rxq (p q : Part) (n : Nat) (f : Core → Core) (s : State) :
    ((s.updCore p n f).chip q).rxq = (s.chip q).rxq := by
  cases p <;> cases q <;> rfl
@[simp] theorem State.updCore_chip_commit (p q : Part) (n : Nat) (f : Core → Core) (s : State) :
    ((s.updCore p n f).chip q).commit = (s.chip q).commit := by
  cases p <;> cases q <;> rfl
@[simp] theorem State.updCore_chip_ports (p q : Part) (n : Nat) (f : Core → Core) (s : State) :
    ((s.updCore p n f).chip q).ports = (s.chip q).ports := by
  cases p <;> cases q <;> rfl
@[simp] theorem State.updCore_chip_txq (p q : Part) (n : Nat) (f : Core → Core) (s : State) :
    ((s.updCore p n f).chip q).txq = (s.chip q).txq := by
  cases p <;> cases q <;> rfl
@[simp] theorem State.updCore_chip_nextLatch (p q : Part) (n : Nat) (f : Core → Core) (s : State) :
    ((s.updCore p n f).chip q).nextLatch = (s.chip q).nextLatch := by
  cases p <;> cases q <;> rfl
@[simp] theorem State.updCore_chip_nextOrigin (p q : Part) (n : Nat) (f : Core → Core) (s : State) :
    ((s.updCore p n f).chip q).nextOrigin = (s.chip q).nextOrigin := by
  cases p <;> cases q <;> rfl
@[simp] theorem State.updCore_chip_origins (p q : Part) (n : Nat) (f : Core → Core) (s : State) :
    ((s.updCore p n f).chip q).origins = (s.chip q).origins := by
  cases p <;> cases q <;> rfl
@[simp] theorem State.updCore_chip_thm (p q : Part) (n : Nat) (f : Core → Core) (s : State) :
    ((s.updCore p n f).chip q).thm = (s.chip q).thm := by
  cases p <;> cases q <;> rfl
@[simp] theorem State.updCore_chip_upd (p q : Part) (n : Nat) (f : Core → Core) (s : State) :
    ((s.updCore p n f).chip q).upd = (s.chip q).upd := by
  cases p <;> cases q <;> rfl
@[simp] theorem State.updCore_chip_vfy (p q : Part) (n : Nat) (f : Core → Core) (s : State) :
    ((s.updCore p n f).chip q).vfy = (s.chip q).vfy := by
  cases p <;> cases q <;> rfl
@[simp] theorem State.updCore_chip_fullBoot (p q : Part) (n : Nat) (f : Core → Core) (s : State) :
    ((s.updCore p n f).chip q).fullBoot = (s.chip q).fullBoot := by
  cases p <;> cases q <;> rfl
@[simp] theorem State.updCore_chip_tap (p q : Part) (n : Nat) (f : Core → Core) (s : State) :
    ((s.updCore p n f).chip q).tap = (s.chip q).tap := by
  cases p <;> cases q <;> rfl
@[simp] theorem State.updCore_chip_railAt (p q : Part) (n : Nat) (f : Core → Core) (s : State) :
    ((s.updCore p n f).chip q).railAt = (s.chip q).railAt := by
  cases p <;> cases q <;> rfl

end Sys2Proof.Machine
end

