-- ==== Sys2Proof/Laws/Ops.lean ====
section
/-!
SUPPORT. What the named operations do: a register reads as it was last written, a core's registers and data memory
likewise, and each operation keeps the canonical forms.
-/

namespace Sys2Proof.Machine

/-! ### Lists changed at one place -/

@[simp] theorem length_listModify {α : Type} (l : List α) (i : Nat) (f : α → α) : (listModify l i f).length = l.length := by
  induction l generalizing i with
  | nil => rfl
  | cons x l ih => cases i <;> simp [listModify, ih]

theorem getElem?_listModify {α : Type} (l : List α) (i j : Nat) (f : α → α) :
    (listModify l i f)[j]? = if j = i then l[j]?.map f else l[j]? := by
  induction l generalizing i j with
  | nil => cases i <;> simp [listModify]
  | cons x l ih =>
    cases i with
    | zero => cases j <;> simp [listModify]
    | succ i => cases j <;> simp [listModify, ih]

@[simp] theorem listModify_listModify {α : Type} (l : List α) (i : Nat) (f g : α → α) :
    listModify (listModify l i f) i g = listModify l i fun x => g (f x) := by
  induction l generalizing i with
  | nil => rfl
  | cons x l ih => cases i <;> simp [listModify, ih]

theorem mem_listModify {α : Type} {l : List α} {i : Nat} {f : α → α} {x : α} (h : x ∈ listModify l i f) :
    x ∈ l ∨ ∃ y ∈ l, x = f y := by
  induction l generalizing i with
  | nil => cases h
  | cons y l ih =>
    cases i with
    | zero =>
      rcases List.mem_cons.1 h with h | h
      · exact .inr ⟨y, List.mem_cons_self .., h⟩
      · exact .inl (List.mem_cons_of_mem _ h)
    | succ i =>
      rcases List.mem_cons.1 h with h | h
      · exact .inl (h ▸ List.mem_cons_self ..)
      · rcases ih h with h | ⟨z, hz, h⟩
        · exact .inl (List.mem_cons_of_mem _ h)
        · exact .inr ⟨z, List.mem_cons_of_mem _ hz, h⟩

/-! ### The register file -/

/-- A register after a write of the same one, or of another. -/
theorem State.rd_wr (p q : Part) (a b : Nat) (v : Word) (s : State) :
    (s.wr p a v).rd q b = if q = p ∧ b = a then v else s.rd q b := by
  unfold State.rd State.wr
  rw [State.chip_upd]
  by_cases hp : q = p
  · subst hp; simp [SMap.get_set]
  · simp [hp]

@[simp] theorem State.rd_wr_same (p : Part) (a : Nat) (v : Word) (s : State) : (s.wr p a v).rd p a = v := by
  simp [State.rd_wr]

theorem State.rd_wr_ne (p q : Part) {a b : Nat} (v : Word) (s : State) (h : b ≠ a) :
    (s.wr p a v).rd q b = s.rd q b := by simp [State.rd_wr, h]

theorem State.rd_wr_part {p q : Part} (a b : Nat) (v : Word) (s : State) (h : q ≠ p) :
    (s.wr p a v).rd q b = s.rd q b := by simp [State.rd_wr, h]

/-- An update that keeps a part's register file keeps every register of it. -/
theorem State.rd_of_folio {p : Part} {s t : State} (h : (t.chip p).folio = (s.chip p).folio) (a : Nat) :
    t.rd p a = s.rd p a := by unfold State.rd; rw [h]

@[simp] theorem State.rd_updCore (p q : Part) (n a : Nat) (f : Core → Core) (s : State) :
    (s.updCore p n f).rd q a = s.rd q a := State.rd_of_folio (by simp) a
@[simp] theorem State.rd_emit (o : Output) (q : Part) (a : Nat) (s : State) : (s.emit o).rd q a = s.rd q a :=
  State.rd_of_folio (by simp) a
@[simp] theorem State.rd_updSnd (f : SenderUnit → SenderUnit) (q : Part) (a : Nat) (s : State) :
    (s.updSnd f).rd q a = s.rd q a := State.rd_of_folio (by simp) a
@[simp] theorem State.rd_updTil (f : TileUnit → TileUnit) (q : Part) (a : Nat) (s : State) :
    (s.updTil f).rd q a = s.rd q a := State.rd_of_folio (by simp) a
@[simp] theorem State.rd_updPix (f : PixUnit → PixUnit) (q : Part) (a : Nat) (s : State) :
    (s.updPix f).rd q a = s.rd q a := State.rd_of_folio (by simp) a
@[simp] theorem State.rd_updLmp (f : LampUnit → LampUnit) (q : Part) (a : Nat) (s : State) :
    (s.updLmp f).rd q a = s.rd q a := State.rd_of_folio (by simp) a

/-! ### Bits and fields -/

theorem getLsbD_putFld (w : Word) (hi lo v i : Nat) (hi' : i < 32) :
    (putFld w hi lo v).getLsbD i = if lo ≤ i ∧ i ≤ hi ∧ lo ≤ hi then v.testBit (i - lo) else
      if i = lo ∧ hi < lo then v.testBit 0 else w.getLsbD i := by
  unfold putFld
  simp only [BitVec.getLsbD_or, BitVec.getLsbD_and, BitVec.getLsbD_not, BitVec.getLsbD_ofNat, hi', decide_true,
    Bool.true_and, Nat.testBit_shiftLeft, Nat.testBit_two_pow_sub_one]
  by_cases h : lo ≤ i
  · by_cases h2 : i ≤ hi
    · simp [h, h2, show i - lo < hi - lo + 1 by omega, show lo ≤ hi by omega]
    · by_cases h3 : i = lo
      · subst h3; simp [show hi < i by omega, show ¬ i ≤ hi by omega]
      · simp [h, h2, h3, show ¬ (i - lo < hi - lo + 1) by omega]
  · simp [h, show ¬ i = lo by omega]

/-- A bit just set or cleared. -/
theorem bit_putBit (w : Word) (i j : Nat) (b : Bool) (h : j < 32) :
    bit (putBit w i b) j = if j = i then b else bit w j := by
  unfold bit putBit
  rw [getLsbD_putFld _ _ _ _ _ h]
  by_cases e : j = i
  · subst e; cases b <;> simp
  · simp only [e, if_false, false_and]
    rw [if_neg (by omega)]

@[simp] theorem bit_putBit_same (w : Word) (i : Nat) (b : Bool) (h : i < 32) : bit (putBit w i b) i = b := by
  simp [bit_putBit w i i b h]

theorem testBit_fld (w : Word) (hi lo i : Nat) :
    (fld w hi lo).testBit i = (decide (i < hi - lo + 1) && w.getLsbD (lo + i)) := by
  unfold fld
  rw [Nat.testBit_mod_two_pow, Nat.testBit_shiftRight, BitVec.testBit_toNat]

/-- A field just written reads as its value, modulo its width. -/
theorem fld_putFld_same (w : Word) (hi lo v : Nat) (h : lo ≤ hi) (h' : hi < 32) :
    fld (putFld w hi lo v) hi lo = v % 2 ^ (hi - lo + 1) := by
  apply Nat.eq_of_testBit_eq
  intro i
  rw [testBit_fld, Nat.testBit_mod_two_pow]
  by_cases hi2 : i < hi - lo + 1
  · rw [getLsbD_putFld _ _ _ _ _ (by omega), if_pos (by omega)]
    simp
  · simp [hi2]

/-- A field clear of the one written. -/
theorem fld_putFld_ne (w : Word) (hi lo v hi2 lo2 : Nat) (h : lo ≤ hi) (h2 : hi2 < 32) (h3 : lo2 ≤ hi2)
    (h4 : hi2 < lo ∨ hi < lo2) : fld (putFld w hi lo v) hi2 lo2 = fld w hi2 lo2 := by
  apply Nat.eq_of_testBit_eq
  intro i
  rw [testBit_fld, testBit_fld]
  by_cases hi3 : i < hi2 - lo2 + 1
  · rw [getLsbD_putFld _ _ _ _ _ (by omega), if_neg (by omega), if_neg (by omega)]
  · simp [hi3]

theorem State.bitOf_wrBit (p : Part) (a i : Nat) (b : Bool) (s : State) (h : i < 32) :
    (s.wrBit p a i b).bitOf p a i = b := by
  simp [State.bitOf, State.wrBit, h]

theorem State.fldOf_wrFld (p : Part) (a hi lo v : Nat) (s : State) (h : lo ≤ hi) (h' : hi < 32) :
    (s.wrFld p a hi lo v).fldOf p a hi lo = v % 2 ^ (hi - lo + 1) := by
  simp [State.fldOf, State.wrFld, fld_putFld_same _ _ _ _ h h']

/-! ### General registers and cores (R70) -/

@[simp] theorem Core.gpr_zero (k : Core) : k.gpr 0 = 0 := rfl
@[simp] theorem Core.setGpr_zero (k : Core) (v : Word) : k.setGpr 0 v = k := rfl

/-- A general register after a write. -/
theorem Core.gpr_setGpr (k : Core) (i j : BitVec 5) (v : Word) :
    (k.setGpr i v).gpr j = if j = i ∧ i ≠ 0 then v else k.gpr j := by
  unfold Core.setGpr Core.gpr
  by_cases hi : i = 0
  · simp [hi]
  · simp only [hi, if_false, SMap.get_set]
    by_cases hj : j = 0
    · subst hj; rw [if_pos rfl, if_neg fun h => hi h.1.symm, if_pos rfl]
    · simp only [hj, if_false]
      by_cases e : j = i
      · subst e; rw [if_pos rfl, if_pos ⟨rfl, hi⟩]
      · have : j.toNat ≠ i.toNat := fun h => e (BitVec.eq_of_toNat_eq h)
        simp [e, this]

@[simp] theorem Core.setGpr_pc (k : Core) (i : BitVec 5) (v : Word) : (k.setGpr i v).pc = k.pc := by
  unfold Core.setGpr; split <;> rfl
@[simp] theorem Core.setGpr_stall (k : Core) (i : BitVec 5) (v : Word) : (k.setGpr i v).stall = k.stall := by
  unfold Core.setGpr; split <;> rfl
@[simp] theorem Core.setGpr_stepping (k : Core) (i : BitVec 5) (v : Word) : (k.setGpr i v).stepping = k.stepping := by
  unfold Core.setGpr; split <;> rfl
@[simp] theorem Core.setGpr_halted (k : Core) (i : BitVec 5) (v : Word) : (k.setGpr i v).halted = k.halted := by
  unfold Core.setGpr; split <;> rfl
@[simp] theorem Core.setGpr_imem (k : Core) (i : BitVec 5) (v : Word) : (k.setGpr i v).imem = k.imem := by
  unfold Core.setGpr; split <;> rfl
@[simp] theorem Core.setGpr_posted (k : Core) (i : BitVec 5) (v : Word) : (k.setGpr i v).posted = k.posted := by
  unfold Core.setGpr; split <;> rfl

/-- A core after an update of one. -/
theorem State.core_updCore (p q : Part) (n m : Nat) (f : Core → Core) (s : State) :
    (s.updCore p n f).core q m =
      if q = p ∧ m = n ∧ n < (s.chip p).cores.length then f (s.core q m) else s.core q m := by
  unfold State.core State.updCore
  rw [State.chip_upd]
  by_cases hq : q = p
  · subst hq
    simp only [if_true, getElem?_listModify, true_and]
    by_cases hm : m = n
    · subst hm
      by_cases hl : m < (s.chip q).cores.length
      · simp [hl]
      · simp [hl]
    · simp [hm]
  · simp [hq]

/-- An update of a core that is there. -/
theorem State.core_updCore_same (p : Part) (n : Nat) (f : Core → Core) (s : State) (h : n < (s.chip p).cores.length) :
    (s.updCore p n f).core p n = f (s.core p n) := by simp [State.core_updCore, h]

@[simp] theorem State.updCore_updCore (p : Part) (n : Nat) (f g : Core → Core) (s : State) :
    (s.updCore p n f).updCore p n g = s.updCore p n fun k => g (f k) := by
  cases p <;> simp [State.updCore, State.upd]

@[simp] theorem State.core_wr (p q : Part) (a n : Nat) (v : Word) (s : State) : (s.wr p a v).core q n = s.core q n := by
  unfold State.core; simp

/-- A core that is not there reads as a reset core, which boot holds. -/
theorem State.core_absent (p : Part) (n : Nat) (s : State) (h : (s.chip p).cores.length ≤ n) :
    s.core p n = Core.reset := by
  unfold State.core; rw [List.getElem?_eq_none h]; rfl

/-! ### Conditions and time -/

theorem State.alive_of_phase {p : Part} {s t : State} (h : (t.chip p).phase = (s.chip p).phase) :
    t.alive p = s.alive p := by unfold State.alive; rw [h]

@[simp] theorem State.alive_wr (p q : Part) (a : Nat) (v : Word) (s : State) : (s.wr p a v).alive q = s.alive q :=
  State.alive_of_phase (by simp)
@[simp] theorem State.alive_updCore (p q : Part) (n : Nat) (f : Core → Core) (s : State) :
    (s.updCore p n f).alive q = s.alive q := State.alive_of_phase (by simp)

@[simp] theorem State.wall_wr (p q : Part) (a : Nat) (v : Word) (s : State) : (s.wr p a v).wall q = s.wall q := by
  unfold State.wall; simp

/-- A command of a part that runs. -/
theorem State.when'_pos {p : Part} {f : State → State} {s : State} (h : s.alive p = true) : s.when' p f = f s := by
  simp [State.when', h]

/-- A command of a part that does not run changes nothing. -/
theorem State.when'_neg {p : Part} {f : State → State} {s : State} (h : s.alive p = false) : s.when' p f = s := by
  simp [State.when', h]

/-! ### Data memory -/

/-- A word of data memory after a word is written. -/
theorem State.dmemRd_dmemWr_same (p : Part) (a : Nat) (v : Word) (s : State) : (s.dmemWr p a v).dmemRd p a = v := by
  simp [State.dmemRd, State.dmemWr]

/-- A byte of data memory after a word is written. -/
theorem State.dmem_byte_dmemWr (p q : Part) (a x : Nat) (v : Word) (s : State) :
    SMap.get zeroByte ((s.dmemWr p a v).chip q).dmem x =
      if q = p ∧ a ≤ x ∧ x < a + 4 then byteOf v (x - a) else SMap.get zeroByte (s.chip q).dmem x := by
  unfold State.dmemWr
  rw [State.chip_upd]
  by_cases hq : q = p
  · subst hq; simp [Mem.get_writeWord]
  · simp [hq]

/-! ### Canonical forms -/

/-- Setting a register keeps the canonical form of the register file. -/
theorem State.folio_wf_wr {p q : Part} {s : State} (a : Nat) (v : Word)
    (h : SMap.wf (regReset q) (s.chip q).folio = true) : SMap.wf (regReset q) ((s.wr p a v).chip q).folio = true := by
  unfold State.wr
  rw [State.chip_upd]
  by_cases hq : q = p
  · subst hq; simpa using SMap.wf_set a v h
  · simpa [hq] using h

/-- Writing a word keeps the canonical form of data memory. -/
theorem State.dmem_wf_dmemWr {p q : Part} {s : State} (a : Nat) (v : Word)
    (h : Memory.wf zeroByte (s.chip q).dmem = true) : Memory.wf zeroByte ((s.dmemWr p a v).chip q).dmem = true := by
  unfold State.dmemWr
  rw [State.chip_upd]
  by_cases hq : q = p
  · subst hq; simpa using Memory.wf_writeWord a v h
  · simpa [hq] using h

end Sys2Proof.Machine
end

