-- ==== Sys2Proof/Laws/Flags.lean ====
section
/-!
SUPPORT. Everything that raising events can do (R411 to R426): what it leaves, in one relation, and that an event raised
is pending.
-/

namespace Sys2Proof.Machine

theorem Core.Calm.refl (k : Core) : Core.Calm k k :=
  ⟨rfl, rfl, rfl, rfl, rfl, rfl, rfl, ⟨rfl, rfl⟩, fun h => ⟨h, rfl⟩, id, id⟩

theorem Core.Calm.trans {a b c : Core} (h : Core.Calm a b) (h' : Core.Calm b c) : Core.Calm a c :=
  ⟨h'.g.trans h.g, h'.pc.trans h.pc, h'.posted.trans h.posted, h'.transit.trans h.transit, h'.xfer.trans h.xfer, h'.imem.trans h.imem,
    h'.held.trans h.held, ⟨h'.dbg.1.trans h.dbg.1, h'.dbg.2.trans h.dbg.2⟩, fun e => ⟨(h'.halted (h.halted e).1).1, (h'.halted (h.halted e).1).2.trans (h.halted e).2⟩,
    fun e => h'.stepping (h.stepping e), fun e => h'.stall (h.stall e)⟩

/-- Where nothing has left the block, no message has. -/
theorem out_same {p : Part} {s t : State} (h : t.out = s.out) :
    ∃ l : List Nat, t.out = s.out ++ l.map Output.msix ∧ (p = .tile → l = []) := ⟨[], by simp [h], fun _ => rfl⟩

@[simp] theorem keptOf_self (u : TileUnit) : u.keptOf u = u := rfl

theorem Calm.refl (p : Part) (s : State) : Calm p s s where
  rd _ _ _ := rfl
  pend _ _ h := h
  other _ _ := rfl
  safe _ := rfl
  acc h := ⟨h, rfl, rfl⟩
  phase _ := rfl
  dmem _ := rfl
  flash _ := rfl
  count _ := rfl
  cycles _ := rfl
  rxq _ := rfl
  commit _ := rfl
  ports _ := rfl
  txq _ := rfl
  nextLatch _ := rfl
  nextOrigin _ := rfl
  upd _ := rfl
  tap _ := rfl
  cores _ _ := Core.Calm.refl _
  coreCount _ := rfl
  thm _ := rfl
  origins _ := rfl
  vfy _ := rfl
  host := rfl
  snd := rfl
  til := rfl
  pvd := rfl
  draws := rfl
  pending := rfl
  out := out_same rfl

theorem Calm.trans {p : Part} {a b c : State} (h : Calm p a b) (h' : Calm p b c) : Calm p a c where
  rd q x hx := (h'.rd q x hx).trans (h.rd q x hx)
  pend id hi hp := h'.pend id hi (h.pend id hi hp)
  other q hq := (h'.other q hq).trans (h.other q hq)
  safe hs := by
    have e := h.safe hs
    have : b.safe p = true := by unfold State.safe State.bitOf at *; rw [e]; exact hs
    exact (h'.safe this).trans e
  acc ha := by
    obtain ⟨x, y, z⟩ := h.acc ha
    obtain ⟨x', y', z'⟩ := h'.acc x
    exact ⟨x', y'.trans y, z'.trans z⟩
  phase q := (h'.phase q).trans (h.phase q)
  dmem q := (h'.dmem q).trans (h.dmem q)
  flash q := (h'.flash q).trans (h.flash q)
  count q := (h'.count q).trans (h.count q)
  cycles q := (h'.cycles q).trans (h.cycles q)
  rxq q := (h'.rxq q).trans (h.rxq q)
  commit q := (h'.commit q).trans (h.commit q)
  ports q := (h'.ports q).trans (h.ports q)
  txq q := (h'.txq q).trans (h.txq q)
  nextLatch q := (h'.nextLatch q).trans (h.nextLatch q)
  nextOrigin q := (h'.nextOrigin q).trans (h.nextOrigin q)
  upd q := (h'.upd q).trans (h.upd q)
  tap q := (h'.tap q).trans (h.tap q)
  cores q n := (h.cores q n).trans (h'.cores q n)
  coreCount q := (h'.coreCount q).trans (h.coreCount q)
  thm q := (h'.thm q).trans (h.thm q)
  origins q := (h'.origins q).trans (h.origins q)
  vfy q := (h'.vfy q).trans (h.vfy q)
  host := (congrArg (fun x => { x with pba := a.host.pba }) h'.host).trans h.host
  snd := (congrArg (fun x => { x with ras := a.snd.ras, comps := a.snd.comps, pv := a.snd.pv, release := a.snd.release })
    h'.snd).trans h.snd
  til := (congrArg (TileUnit.keptOf a.til) h'.til).trans h.til
  pvd := h'.pvd.trans h.pvd
  draws := h'.draws.trans h.draws
  pending := h'.pending.trans h.pending
  out := by
    obtain ⟨l, e, hl⟩ := h.out
    obtain ⟨l', e', hl'⟩ := h'.out
    exact ⟨l ++ l', by rw [e', e, List.map_append, List.append_assoc], fun hp => by rw [hl hp, hl' hp]; rfl⟩

/-- A change that keeps every register file, core and field of Calm is calm. -/
theorem Calm.of_eq {p : Part} {s t : State} (ho : ∀ q, q ≠ p → t.chip q = s.chip q)
    (hacc : (s.chip p).acc.valid = true → (t.chip p).acc.valid = true ∧
      (t.chip p).acc.record = (s.chip p).acc.record ∧ (t.chip p).acc.pos = (s.chip p).acc.pos) (hf : ∀ q, (t.chip q).folio = (s.chip q).folio)
    (h1 : ∀ q, (t.chip q).phase = (s.chip q).phase) (h2 : ∀ q, (t.chip q).dmem = (s.chip q).dmem)
    (h3 : ∀ q, (t.chip q).flash = (s.chip q).flash) (h4 : ∀ q, (t.chip q).count = (s.chip q).count)
    (h5 : ∀ q, (t.chip q).cycles = (s.chip q).cycles) (h6 : ∀ q, (t.chip q).rxq = (s.chip q).rxq)
    (h7 : ∀ q, (t.chip q).commit = (s.chip q).commit) (h8 : ∀ q, (t.chip q).ports = (s.chip q).ports)
    (h9 : ∀ q, (t.chip q).txq = (s.chip q).txq) (h10 : ∀ q, (t.chip q).nextLatch = (s.chip q).nextLatch)
    (h11 : ∀ q, (t.chip q).nextOrigin = (s.chip q).nextOrigin) (h12 : ∀ q, (t.chip q).upd = (s.chip q).upd)
    (h13 : ∀ q, (t.chip q).tap = (s.chip q).tap) (hc : ∀ q, (t.chip q).cores = (s.chip q).cores)
    (hth : ∀ q, (t.chip q).thm = (s.chip q).thm) (hor : ∀ q, (t.chip q).origins = (s.chip q).origins)
    (hvf : ∀ q, (t.chip q).vfy = (s.chip q).vfy)
    (hh : { t.host with pba := s.host.pba } = s.host)
    (hsn : { t.snd with ras := s.snd.ras, comps := s.snd.comps, pv := s.snd.pv, release := s.snd.release } = s.snd)
    (htl : TileUnit.keptOf s.til t.til = s.til)
    (hv : t.pvd = s.pvd) (hd : t.draws = s.draws) (hp : t.pending = s.pending)
    (hout : ∃ l : List Nat, t.out = s.out ++ l.map Output.msix ∧ (p = .tile → l = [])) : Calm p s t where
  rd q a _ := State.rd_of_folio (hf q) a
  pend id _ h := by
    have : t.pendBit p id = s.pendBit p id := by
      unfold State.pendBit State.bitOf; rw [State.rd_of_folio (hf p)]
    rw [this]; exact h
  other := ho
  safe _ := State.rd_of_folio (hf p) _
  acc := hacc
  phase := h1
  dmem := h2
  flash := h3
  count := h4
  cycles := h5
  rxq := h6
  commit := h7
  ports := h8
  txq := h9
  nextLatch := h10
  nextOrigin := h11
  upd := h12
  tap := h13
  cores q n := by
    have : t.core q n = s.core q n := by unfold State.core; rw [hc q]
    rw [this]; exact Core.Calm.refl _
  coreCount q := by rw [hc]
  thm := hth
  origins := hor
  vfy := hvf
  host := hh
  snd := hsn
  til := htl
  pvd := hv
  draws := hd
  pending := hp
  out := hout

/-- Setting a register that is not calm, and clears no pending bit, is calm. -/
theorem Calm.wr {p : Part} {a : Nat} (v : Word) (s : State) (h : calmReg a = false)
    (hp : ∀ id, id < 0x600 → Reg.EVT_PEND (id / 32) = a → s.pendBit p id = true → bit v (id % 32) = true)
    (hs : a ≠ Reg.FLT_STAT ∨ s.safe p = false) :
    Calm p s (s.wr p a v) where
  rd q b hb := by
    rcases hb with hq | hb
    · exact State.rd_wr_part a b v s hq
    · exact State.rd_wr_ne p q v s fun e => by rw [e, h] at hb; cases hb
  pend id hi hs := by
    unfold State.pendBit State.bitOf at *
    by_cases e : Reg.EVT_PEND (id / 32) = a
    · rw [e, State.rd_wr_same]; exact hp id hi e hs
    · rw [State.rd_wr_ne p p v s e]; exact hs
  other q hq := by unfold State.wr; rw [State.chip_upd, if_neg hq]
  safe h := by
    rcases hs with hs | hs
    · exact State.rd_wr_ne p p v s hs.symm
    · rw [hs] at h; cases h
  acc h := by simp [h]
  phase := by simp
  dmem := by simp
  flash := by simp
  count := by simp
  cycles := by simp
  rxq := by simp
  commit := by simp
  ports := by simp
  txq := by simp
  nextLatch := by simp
  nextOrigin := by simp
  upd := by simp
  tap := by simp
  cores q n := by simp [Core.Calm.refl]
  coreCount := by simp
  thm := by simp
  origins := by simp
  vfy := by simp
  host := by simp
  snd := by simp
  til := by simp
  pvd := by simp
  draws := by simp
  pending := by simp
  out := out_same (by simp)

theorem evtPend_ge (w : Nat) : 0x20010 ≤ Reg.EVT_PEND w := by unfold Reg.EVT_PEND; omega

theorem evtPend_lt {id : Nat} (h : id < 0x600) : Reg.EVT_PEND (id / 32) < 0x200D0 := by
  unfold Reg.EVT_PEND; omega

/-- Setting a register that is not calm and no pending word is calm. -/
theorem Calm.wr_far {p : Part} {a : Nat} (v : Word) (s : State) (h : calmReg a = false)
    (ha : a < 0x20010 ∨ 0x200D0 ≤ a) (hs : a ≠ Reg.FLT_STAT ∨ s.safe p = false := by exact .inl (by decide)) : Calm p s (s.wr p a v) :=
  Calm.wr v s h (fun id hi e => by unfold Reg.EVT_PEND at e; omega) hs

theorem Calm.wrBit_far {p : Part} {a : Nat} (i : Nat) (b : Bool) (s : State) (h : calmReg a = false)
    (ha : a < 0x20010 ∨ 0x200D0 ≤ a) (hs : a ≠ Reg.FLT_STAT ∨ s.safe p = false := by exact .inl (by decide)) : Calm p s (s.wrBit p a i b) :=
  Calm.wr_far _ s h ha hs
theorem Calm.wrFld_far {p : Part} {a : Nat} (hi lo v : Nat) (s : State) (h : calmReg a = false)
    (ha : a < 0x20010 ∨ 0x200D0 ≤ a) (hs : a ≠ Reg.FLT_STAT ∨ s.safe p = false := by exact .inl (by decide)) : Calm p s (s.wrFld p a hi lo v) :=
  Calm.wr_far _ s h ha hs
theorem Calm.bump_far {p : Part} {a : Nat} (n : Nat) (s : State) (h : calmReg a = false)
    (ha : a < 0x20010 ∨ 0x200D0 ≤ a) (hs : a ≠ Reg.FLT_STAT ∨ s.safe p = false := by exact .inl (by decide)) : Calm p s (s.bump p a n) :=
  Calm.wr_far _ s h ha hs

theorem calmReg_pend {id : Nat} (h : id < 0x600) : calmReg (Reg.EVT_PEND (id / 32)) = false := by
  have h1 := evtPend_ge (id / 32)
  have h2 := evtPend_lt h
  unfold calmReg
  simp [show (0x20010 : Nat) ≤ Reg.EVT_PEND (id / 32) by omega, h2]

/-- Setting a pending bit is calm. -/
theorem Calm.setPend {p : Part} {id : Nat} (s : State) (h : id < 0x600) : Calm p s (s.setPend p id true) := by
  refine Calm.wr _ s (calmReg_pend h) (fun j hj e hs => ?_)
    (.inl fun e => by have := evtPend_lt h; rw [e] at this; exact absurd this (by decide))
  rw [bit_putBit _ _ _ _ (by omega)]
  split
  · rfl
  · unfold State.pendBit State.bitOf at hs; rwa [e] at hs

theorem pendBit_setPend {p : Part} {id : Nat} (b : Bool) (s : State) : (s.setPend p id b).pendBit p id = b := by
  unfold State.setPend State.pendBit
  exact State.bitOf_wrBit _ _ _ _ _ (by omega)

/-- A change of only what the sender, the tile or the host holds, or of the output, is calm. -/
theorem Calm.of_chips {p : Part} {s t : State} (hs : t.sender = s.sender) (ht : t.tile = s.tile)
    (hh : { t.host with pba := s.host.pba } = s.host)
    (hsn : { t.snd with ras := s.snd.ras, comps := s.snd.comps, pv := s.snd.pv, release := s.snd.release } = s.snd)
    (htl : TileUnit.keptOf s.til t.til = s.til)
    (hv : t.pvd = s.pvd) (hd : t.draws = s.draws) (hp : t.pending = s.pending)
    (hout : ∃ l : List Nat, t.out = s.out ++ l.map Output.msix ∧ (p = .tile → l = [])) : Calm p s t := by
  have h : ∀ q, t.chip q = s.chip q := fun q => by cases q <;> assumption
  exact Calm.of_eq (fun q _ => h q) (fun e => by rw [h]; exact ⟨e, rfl, rfl⟩) (fun q => by rw [h]) (fun q => by rw [h]) (fun q => by rw [h]) (fun q => by rw [h]) (fun q => by rw [h]) (fun q => by rw [h])
    (fun q => by rw [h]) (fun q => by rw [h]) (fun q => by rw [h]) (fun q => by rw [h]) (fun q => by rw [h]) (fun q => by rw [h])
    (fun q => by rw [h]) (fun q => by rw [h]) (fun q => by rw [h]) (fun q => by rw [h]) (fun q => by rw [h]) (fun q => by rw [h]) hh hsn htl hv hd hp hout

/-- A change of a part's logs, ATTEND slots and accession record is calm. -/
theorem Calm.upd_chip {p : Part} (f : Chip → Chip) (s : State)
    (h : ∀ c, (f c).folio = c.folio ∧ (f c).phase = c.phase ∧ (f c).dmem = c.dmem ∧ (f c).flash = c.flash ∧
      (f c).count = c.count ∧ (f c).cycles = c.cycles ∧ (f c).rxq = c.rxq ∧ (f c).commit = c.commit ∧
      (f c).ports = c.ports ∧ (f c).txq = c.txq ∧ (f c).nextLatch = c.nextLatch ∧ (f c).nextOrigin = c.nextOrigin ∧
      (f c).upd = c.upd ∧ (f c).tap = c.tap ∧ (f c).cores = c.cores ∧ (f c).thm = c.thm ∧ (f c).origins = c.origins ∧
      (f c).vfy = c.vfy)
    (ha : (s.chip p).acc.valid = true → (f (s.chip p)).acc.valid = true ∧
      (f (s.chip p)).acc.record = (s.chip p).acc.record ∧ (f (s.chip p)).acc.pos = (s.chip p).acc.pos) :
    Calm p s (s.upd p f) := by
  have h' : ∀ r, (s.upd p f).chip r = s.chip r ∨ (s.upd p f).chip r = f (s.chip r) := fun r => by
    rw [State.chip_upd]; split
    · exact .inr rfl
    · exact .inl rfl
  refine Calm.of_eq (fun q hq => by rw [State.chip_upd, if_neg hq]) (fun e => by rw [State.chip_upd, if_pos rfl]; exact ha e)
    ?_ ?_ ?_ ?_ ?_ ?_ ?_ ?_ ?_ ?_ ?_ ?_ ?_ ?_ ?_ ?_ ?_ ?_ (by simp) (by simp) (by simp) (by simp)
    (by simp) (by simp) (out_same (by simp)) <;>
  · intro r
    rcases h' r with e | e <;> rw [e]
    obtain ⟨a1, a2, a3, a4, a5, a6, a7, a8, a9, a10, a11, a12, a13, a14, a15, a16, a17, a18⟩ := h (s.chip r)
    assumption

theorem Calm.msixSend (v : Nat) (s : State) : Calm .sender s (s.msixSend v) := by
  unfold State.msixSend State.pbaSet State.emit
  split
  · split
    · exact Calm.of_chips rfl rfl rfl rfl rfl rfl rfl rfl (out_same rfl)
    · exact Calm.of_chips rfl rfl rfl rfl rfl rfl rfl rfl ⟨[v], rfl, fun e => nomatch e⟩
  · exact Calm.refl _ s

theorem Core.Calm.halt (cause : Nat) (k : Core) (h : k.halted = false) : Core.Calm k (Core.halt cause k) :=
  ⟨rfl, rfl, rfl, rfl, rfl, rfl, rfl, ⟨rfl, rfl⟩, (fun e => by rw [h] at e; cases e), (fun _ => rfl), (fun e => by unfold Core.halt; rw [e])⟩

/-- Halting a core that runs is calm. -/
theorem Calm.halt {p : Part} (n cause : Nat) (s : State) (hh : (s.core p n).halted = false) :
    Calm p s (s.updCore p n (Core.halt cause)) where
  rd r a _ := by simp
  pend id _ h := by
    unfold State.pendBit State.bitOf at *; simpa using h
  other q hq := by unfold State.updCore; rw [State.chip_upd, if_neg hq]
  safe _ := by simp
  acc h := by simp [h]
  phase := by simp
  dmem := by simp
  flash := by simp
  count := by simp
  cycles := by simp
  rxq := by simp
  commit := by simp
  ports := by simp
  txq := by simp
  nextLatch := by simp
  nextOrigin := by simp
  upd := by simp
  tap := by simp
  cores r m := by
    rw [State.core_updCore]
    split
    · next e => rw [e.1, e.2.1]; exact Core.Calm.halt _ _ hh
    · exact Core.Calm.refl _
  coreCount q := by
    unfold State.updCore; rw [State.chip_upd]; split <;> simp_all
  thm := by simp
  origins := by simp
  vfy := by simp
  host := by simp
  snd := by simp
  til := by simp
  pvd := by simp
  draws := by simp
  pending := by simp
  out := out_same (by simp)

theorem Calm.updSnd {p : Part} (f : SenderUnit → SenderUnit) (s : State)
    (h : { f s.snd with ras := s.snd.ras, comps := s.snd.comps, pv := s.snd.pv, release := s.snd.release } = s.snd) :
    Calm p s (s.updSnd f) := Calm.of_chips rfl rfl rfl h rfl rfl rfl rfl (out_same rfl)
theorem Calm.updTil {p : Part} (f : TileUnit → TileUnit) (s : State) (h : s.til.keptOf (f s.til) = s.til) :
    Calm p s (s.updTil f) := Calm.of_chips rfl rfl rfl rfl h rfl rfl rfl (out_same rfl)

theorem Calm.foldl {p : Part} {α : Type} (f : State → α → State) (hf : ∀ s a, Calm p s (f s a)) (l : List α) :
    ∀ s, Calm p s (l.foldl f s) := by
  induction l with
  | nil => exact fun s => Calm.refl p s
  | cons a l ih => exact fun s => (hf s a).trans (ih _)

/-! ### The safe state -/

theorem Calm.safeHalt (s : State) : Calm .tile s s.safeHalt.1 := by
  unfold State.safeHalt
  split
  · exact Calm.refl _ s
  · next h =>
    simp at h
    exact Calm.halt (p := .tile) 0 2 s h.1

theorem Calm.rxIdle (s : State) : Calm .tile s s.rxIdle := by
  unfold State.rxIdle
  exact   ((Calm.wr_far (a := Reg.PIX_STAT) _ s (by decide) (by decide)).trans
    (Calm.wr_far (a := Reg.PIX_RX_MISSING) _ _ (by decide) (by decide))).trans (Calm.updTil _ _ rfl)

theorem Calm.scanOff (s : State) : Calm .tile s s.scanOff := by
  unfold State.scanOff
  exact (Calm.wrBit_far (a := Reg.SCAN_STAT) _ _ s (by decide) (by decide)).trans (Calm.updTil _ _ rfl)

theorem Calm.releaseChains (mask : Nat) (e : Word) (s : State) : Calm .sender s (s.releaseChains mask e) := by
  unfold State.releaseChains
  refine Calm.foldl _ (fun s k => ?_) _ s
  dsimp only
  split
  · exact Calm.of_chips rfl rfl rfl rfl rfl rfl rfl rfl (out_same rfl)
  · exact Calm.refl _ s

theorem Calm.rasStop (s : State) : Calm .sender s s.rasStop := by
  unfold State.rasStop
  exact   (Calm.wrBit_far (a := Reg.CMP_PV_STAT) _ _ s (by decide) (by decide)).trans (Calm.updSnd _ _ rfl)

theorem Calm.safeStops (p : Part) (s : State) : Calm p s (s.safeStops p).1 := by
  cases p with
  | sender =>
    refine (((Calm.rasStop s).trans (Calm.wrFld_far (a := Reg.LOAN_STAT) 31 30 2 _ (by decide) (by decide))).trans
      (Calm.updSnd (fun t => { t with release := [] }) _ rfl)).trans ?_
    unfold State.safeStops
    dsimp only
    split
    · exact Calm.releaseChains _ _ _
    · exact Calm.refl _ _
  | tile => exact ((Calm.rxIdle s).trans (Calm.scanOff _)).trans (Calm.safeHalt _)

/-- Events with IDs that a pending word holds. -/
def EvSmall (l : List (Nat × Word)) : Prop := ∀ e ∈ l, e.1 < 0x600

theorem EvSmall.nil : EvSmall [] := fun _ h => by cases h
theorem EvSmall.cons {a : Nat × Word} {l : List (Nat × Word)} (h : a.1 < 0x600) (hl : EvSmall l) : EvSmall (a :: l) :=
  fun e he => by
    rcases List.mem_cons.1 he with he | he
    · exact he ▸ h
    · exact hl e he
theorem EvSmall.append {l m : List (Nat × Word)} (hl : EvSmall l) (hm : EvSmall m) : EvSmall (l ++ m) := fun e he => by
  rcases List.mem_append.1 he with he | he
  · exact hl e he
  · exact hm e he

theorem safeStops_small (p : Part) (s : State) : EvSmall (s.safeStops p).2 := by
  cases p with
  | sender =>
    unfold State.safeStops
    dsimp only
    split
    · exact EvSmall.nil
    · exact EvSmall.cons (by decide) EvSmall.nil
  | tile =>
    show EvSmall (State.safeHalt _).2
    unfold State.safeHalt
    split
    · exact EvSmall.nil
    · exact EvSmall.cons (by decide) EvSmall.nil

theorem Calm.safeEnter (p : Part) (cause id : Nat) (s : State) :
    Calm p s (s.safeEnter p cause id).1 ∧ EvSmall (s.safeEnter p cause id).2 := by
  unfold State.safeEnter
  split
  · exact ⟨Calm.refl _ _, EvSmall.nil⟩
  · next h =>
    refine ⟨((Calm.wr_far (a := Reg.FLT_STAT) _ s (by decide) (by decide) (.inr (by simpa using h))).trans
      (Calm.upd_chip _ _ (fun c => ?_) fun e => ⟨e, rfl, rfl⟩)).trans (Calm.safeStops p _), EvSmall.append (safeStops_small p _) ?_⟩
    · simp
    · split
      · exact EvSmall.nil
      · exact EvSmall.cons (show Ev.SAFE_STATE p < _ from by cases p <;> decide) EvSmall.nil

/-! ### One event, and the events of a cycle -/

theorem flt_esc_small (p : Part) : Ev.FLT_ESCALATED p < 0x600 := by cases p <;> decide

theorem Calm.escalate (p : Part) (id : Nat) (s : State) :
    Calm p s (s.escalate p id).1 ∧ EvSmall (s.escalate p id).2 := by
  unfold State.escalate
  dsimp only
  have hb : Calm p s (s.bump p Reg.FLT_ESC_CNT 1) := Calm.bump_far 1 s (by decide) (by decide)
  split
  · exact ⟨hb.trans (Calm.safeEnter p 2 id _).1, EvSmall.cons (flt_esc_small p) (Calm.safeEnter p 2 id _).2⟩
  · exact ⟨hb, EvSmall.cons (flt_esc_small p) EvSmall.nil⟩

theorem Calm.attend (p : Part) (id : Nat) (s : State) :
    Calm p s (s.attend p id).1 ∧ EvSmall (s.attend p id).2 := by
  unfold State.attend
  dsimp only
  split
  · exact ⟨Calm.refl _ _, EvSmall.nil⟩
  · split
    · refine ⟨?_, EvSmall.nil⟩
      dsimp only
      exact Calm.upd_chip (fun c => { c with att := _ }) s (fun c => by simp) fun e => ⟨e, rfl, rfl⟩
    · exact Calm.escalate p id s

/-- One raise is calm; the events it raises in turn are small; an edge event is pending after it. -/
theorem Calm.raise1 (p : Part) (id : Nat) (d : Word) (s : State) (h : id < 0x600) :
    Calm p s (s.raise1 p id d).1 ∧ EvSmall (s.raise1 p id d).2.1 ∧
      (evLevel p id = false → (s.raise1 p id d).1.pendBit p id = true) := by
  unfold State.raise1
  dsimp only
  have h1 : Calm p s (s.bump p Reg.EVT_RAISED 1) := Calm.bump_far 1 s (by decide) (by decide)
  generalize s.bump p Reg.EVT_RAISED 1 = s1 at *
  obtain ⟨s2, hs2, h2, hp2⟩ : ∃ t, t = (if evLevel p id = true then s1 else s1.setPend p id true) ∧ Calm p s1 t ∧
      (evLevel p id = false → t.pendBit p id = true) := by
    refine ⟨_, rfl, ?_, ?_⟩
    · split
      · exact Calm.refl _ _
      · exact Calm.setPend s1 h
    · intro e; rw [if_neg (by simp [e])]; exact pendBit_setPend true s1
  rw [← hs2]
  obtain ⟨s3, hs3, h3⟩ : ∃ t, t = (if (decide (p = Part.sender) && bit (s2.rd p (Reg.EVT_ROUTE id)) 29 &&
      decide (8 ≤ fld (s2.rd p (Reg.EVT_ROUTE id)) 21 16)) = true
      then s2.msixSend (fld (s2.rd p (Reg.EVT_ROUTE id)) 21 16) else s2) ∧ Calm p s2 t := by
    refine ⟨_, rfl, ?_⟩
    split
    · next e =>
      obtain rfl : p = .sender := by simp at e; exact e.1.1
      exact Calm.msixSend _ _
    · exact Calm.refl _ _
  rw [← hs3]
  obtain ⟨x4, hx4, h4, e4⟩ : ∃ x : State × List (Nat × Word), x =
      (if (decide (s2.classOf p id = Cls.attend) && !s.pendBit p id) = true then s3.attend p id else (s3, [])) ∧
      Calm p s3 x.1 ∧ EvSmall x.2 := by
    refine ⟨_, rfl, ?_⟩
    split
    · exact Calm.attend p id s3
    · exact ⟨Calm.refl _ _, EvSmall.nil⟩
  rw [← hx4]
  obtain ⟨x5, hx5, h5, e5⟩ : ∃ x : State × List (Nat × Word), x =
      (if s2.classOf p id = Cls.fatal then x4.1.safeEnter p 1 id else (x4.1, [])) ∧ Calm p x4.1 x.1 ∧ EvSmall x.2 := by
    refine ⟨_, rfl, ?_⟩
    split
    · exact Calm.safeEnter p 1 id x4.1
    · exact ⟨Calm.refl _ _, EvSmall.nil⟩
  rw [← hx5]
  refine ⟨(((h1.trans h2).trans h3).trans h4).trans h5, EvSmall.append e4 e5, fun e => ?_⟩
  exact h5.pend id h (h4.pend id h (h3.pend id h (hp2 e)))

theorem Calm.raiseLoop (f : Nat) (p : Part) : ∀ (evs : List (Nat × Word)) (rs : List Raised) (s : State), EvSmall evs →
    Calm p s (raiseLoop f p evs rs s).1 := by
  induction f with
  | zero => exact fun _ _ s _ => Calm.refl p s
  | succ f ih =>
    intro evs rs s h
    match evs with
    | [] => exact Calm.refl p s
    | (id, d) :: todo =>
      have h1 := Calm.raise1 p id d s (h (id, d) (List.mem_cons_self ..))
      exact h1.1.trans (ih _ _ _ (EvSmall.append (fun e he => h e (List.mem_cons_of_mem _ he)) h1.2.1))

/-- Every edge event of a list that the loop reaches is pending after it. -/
theorem pend_raiseLoop (f : Nat) (p : Part) : ∀ (evs : List (Nat × Word)) (rs : List Raised) (s : State), EvSmall evs →
    ∀ (n id : Nat), n < f → (evs[n]?).map Prod.fst = some id → evLevel p id = false →
    (raiseLoop f p evs rs s).1.pendBit p id = true := by
  induction f with
  | zero => intro _ _ _ _ n _ h; omega
  | succ f ih =>
    intro evs rs s h n id hn hid hl
    match evs with
    | [] => simp at hid
    | (i, d) :: todo =>
      have h1 := Calm.raise1 p i d s (h (i, d) (List.mem_cons_self ..))
      have hs : EvSmall (todo ++ (s.raise1 p i d).2.1) :=
        EvSmall.append (fun e he => h e (List.mem_cons_of_mem _ he)) h1.2.1
      have h2 := Calm.raiseLoop f p _ (insRaised (s.raise1 p i d).2.2 rs) (s.raise1 p i d).1 hs
      cases n with
      | zero =>
        have e : i = id := by simpa using hid
        subst e
        exact h2.pend i (h (i, d) (List.mem_cons_self ..)) (h1.2.2 hl)
      | succ n =>
        refine ih _ _ _ hs n id (by omega) ?_ hl
        have hid : (todo[n]?).map Prod.fst = some id := by simpa using hid
        have hlt : n < todo.length := by
          refine Nat.lt_of_not_le fun hc => ?_
          rw [List.getElem?_eq_none hc] at hid; cases hid
        rw [List.getElem?_append_left hlt]; exact hid

theorem mem_insEvent (e x : Nat × Word) (l : List (Nat × Word)) : e ∈ insEvent x l ↔ e = x ∨ e ∈ l := by
  induction l with
  | nil => simp [insEvent]
  | cons y l ih =>
    unfold insEvent
    split
    · simp
    · simp only [List.mem_cons, ih]
      exact ⟨fun h => h.elim (fun h => .inr (.inl h)) (fun h => h.elim .inl fun h => .inr (.inr h)),
        fun h => h.elim (fun h => .inr (.inl h)) (fun h => h.elim .inl fun h => .inr (.inr h))⟩

theorem length_insEvent (x : Nat × Word) (l : List (Nat × Word)) : (insEvent x l).length = l.length + 1 := by
  induction l with
  | nil => rfl
  | cons y l ih => unfold insEvent; split <;> simp [ih]

theorem foldl_insEvent (l : List (Nat × Word)) : ∀ m : List (Nat × Word),
    (l.foldl (fun l e => insEvent e l) m).length = m.length + l.length ∧
      ∀ e, e ∈ l.foldl (fun l e => insEvent e l) m ↔ e ∈ m ∨ e ∈ l := by
  induction l with
  | nil => intro m; simp
  | cons x l ih =>
    intro m
    obtain ⟨h, h'⟩ := ih (insEvent x m)
    refine ⟨?_, fun e => ?_⟩
    · rw [List.foldl_cons, h, length_insEvent, List.length_cons]; omega
    · rw [List.foldl_cons, h', mem_insEvent, List.mem_cons]
      exact ⟨fun h => h.elim (fun h => h.elim (fun h => .inr (.inl h)) .inl) (fun h => .inr (.inr h)),
        fun h => h.elim (fun h => .inl (.inr h)) (fun h => h.elim (fun h => .inl (.inl h)) .inr)⟩

theorem length_byId (l : List (Nat × Word)) : (byId l).length = l.length := by
  rw [byId, (foldl_insEvent l []).1]; simp
theorem mem_byId (e : Nat × Word) (l : List (Nat × Word)) : e ∈ byId l ↔ e ∈ l := by
  rw [byId, (foldl_insEvent l []).2 e]; simp
theorem EvSmall.byId {l : List (Nat × Word)} (h : EvSmall l) : EvSmall (byId l) := fun e he => h e ((mem_byId e l).1 he)

theorem Calm.accession (p : Part) (rs : List Raised) : ∀ s, Calm p s (accession p rs s).1 := by
  induction rs with
  | nil => exact fun s => Calm.refl p s
  | cons r rs ih =>
    intro s
    unfold Machine.accession
    split
    · split
      · exact (Calm.upd_chip _ s (fun c => by simp) fun e => ⟨e, rfl, rfl⟩).trans (ih _)
      · next h =>
        exact (Calm.upd_chip _ s (fun c => by simp) fun e => absurd e h).trans (ih _)
    · exact ih s

theorem Calm.pushRec (p : Part) (r : EvRec) (s : State) : Calm p s (s.pushRec p r).1 ∧ EvSmall (s.pushRec p r).2 := by
  unfold State.pushRec
  dsimp only
  split
  · have h : Calm p s (s.upd p fun c => { c with logLost := true }) := Calm.upd_chip _ s (fun c => by simp) fun e => ⟨e, rfl, rfl⟩
    cases p
    · exact ⟨h, EvSmall.cons (by decide) EvSmall.nil⟩
    · exact ⟨h.trans (Calm.bump_far 1 _ (by decide) (by decide)), EvSmall.cons (by decide) EvSmall.nil⟩
  · have h : ∀ r : EvRec, Calm p s (s.upd p fun c => { c with log := c.log ++ [r], logLost := false }) :=
      fun r => Calm.upd_chip _ s (fun c => by simp) fun e => ⟨e, rfl, rfl⟩
    cases p
    · dsimp only
      split
      · exact ⟨h _, EvSmall.nil⟩
      · exact ⟨(h _).trans (Calm.setPend _ (by decide)), EvSmall.cons (by decide) EvSmall.nil⟩
    · exact ⟨h _, EvSmall.nil⟩

/-- The safe state of a FATAL fault is calm, and what it raises is small. -/
theorem Calm.fatalFirst (p : Part) (evs : List (Nat × Word)) (s : State) :
    Calm p s (s.fatalFirst p evs).1 ∧ EvSmall (s.fatalFirst p evs).2 := by
  unfold State.fatalFirst
  split
  · exact ⟨Calm.refl _ s, EvSmall.nil⟩
  · exact Calm.safeEnter p 1 _ s

theorem Calm.raiseSet (p : Part) (evs : List (Nat × Word)) (s : State) (h : EvSmall evs) :
    Calm p s (s.raiseSet p evs).1 := by
  unfold State.raiseSet
  dsimp only
  have h0 := Calm.fatalFirst p (byId evs) s
  have h1 := h0.1.trans (Calm.raiseLoop (raiseFuel evs.length) p (byId evs ++ (s.fatalFirst p (byId evs)).2) []
    (s.fatalFirst p (byId evs)).1 ((EvSmall.byId h).append h0.2))
  generalize Machine.raiseLoop (raiseFuel evs.length) p (byId evs ++ (s.fatalFirst p (byId evs)).2) []
    (s.fatalFirst p (byId evs)).1 = x at *
  have h2 := Calm.accession p x.2 x.1
  generalize Machine.accession p x.2 x.1 = y at *
  split
  · exact (h1.trans h2).trans ((Calm.raiseLoop (raiseFuel 1) p _ [] y.1
      (EvSmall.cons (show Ev.FLT_FIRST p < _ from by cases p <;> decide) EvSmall.nil)).trans (Calm.accession p _ _))
  · exact h1.trans h2

theorem pend_raiseSet (p : Part) (evs : List (Nat × Word)) (s : State) (h : EvSmall evs) (id : Nat)
    (hid : id ∈ evs.map Prod.fst) (hl : evLevel p id = false) :
    (s.raiseSet p evs).1.pendBit p id = true := by
  obtain ⟨e, he, rfl⟩ := List.mem_map.1 hid
  have hlt := h e he
  obtain ⟨n, hn, hne⟩ := List.getElem_of_mem ((mem_byId e evs).2 he)
  have h0 := pend_raiseLoop (raiseFuel evs.length) p (byId evs ++ (s.fatalFirst p (byId evs)).2) []
    (s.fatalFirst p (byId evs)).1 ((EvSmall.byId h).append (Calm.fatalFirst p _ s).2) n e.1
    (by rw [length_byId] at hn; unfold raiseFuel; omega)
    (by rw [List.getElem?_append_left hn, List.getElem?_eq_getElem hn, hne]; rfl) hl
  unfold State.raiseSet
  dsimp only
  generalize Machine.raiseLoop (raiseFuel evs.length) p (byId evs ++ (s.fatalFirst p (byId evs)).2) []
    (s.fatalFirst p (byId evs)).1 = x at *
  have h2 := Calm.accession p x.2 x.1
  generalize Machine.accession p x.2 x.1 = y at *
  have h3 := h2.pend e.1 hlt h0
  split
  · exact ((Calm.raiseLoop (raiseFuel 1) p _ [] y.1
      (EvSmall.cons (show Ev.FLT_FIRST p < _ from by cases p <;> decide) EvSmall.nil)).trans (Calm.accession p _ _)).pend e.1 hlt h3
  · exact h3

theorem Calm.recordLoop (f : Nat) (p : Part) : ∀ (rs : List Raised) (s : State), Calm p s (recordLoop f p rs s) := by
  induction f with
  | zero => exact fun _ s => Calm.refl p s
  | succ f ih =>
    intro rs s
    match rs with
    | [] => exact Calm.refl p s
    | r :: rs =>
      unfold Machine.recordLoop
      split
      · have h1 := Calm.pushRec p r.rec' s
        generalize s.pushRec p r.rec' = x at *
        obtain ⟨t, evs⟩ := x
        dsimp only
        split
        · exact h1.1.trans (ih _ _)
        · exact (h1.1.trans (Calm.raiseSet p _ t h1.2)).trans (ih _ _)
      · exact ih _ _

/-- Raising events is calm: all that it can do. -/
theorem Calm.raiseAll (p : Part) (evs : List (Nat × Word)) (s : State) (h : EvSmall evs) : Calm p s (s.raiseAll p evs) := by
  unfold State.raiseAll
  split
  · exact Calm.refl _ _
  · exact (Calm.raiseSet p evs s h).trans (Calm.recordLoop _ _ _ _)

theorem Calm.raise (p : Part) (id : Nat) (s : State) (d : Word) (h : id < 0x600) : Calm p s (s.raise p id d) :=
  Calm.raiseAll p _ s (EvSmall.cons h EvSmall.nil)

/-- Every edge event that is raised is pending (R411). -/
theorem pend_raiseAll (p : Part) (evs : List (Nat × Word)) (s : State) (h : EvSmall evs) (ht : s.tapTakes p = false)
    (id : Nat) (hid : id ∈ evs.map Prod.fst) (hl : evLevel p id = false) :
    (s.raiseAll p evs).pendBit p id = true := by
  have hlt : id < 0x600 := by
    obtain ⟨e, he, rfl⟩ := List.mem_map.1 hid
    exact h e he
  unfold State.raiseAll
  rw [if_neg (by simp [ht])]
  exact (Calm.recordLoop _ _ _ _).pend id hlt (pend_raiseSet p evs s h id hid hl)

theorem pend_raise (p : Part) (id : Nat) (s : State) (d : Word) (h : id < 0x600) (ht : s.tapTakes p = false)
    (hl : evLevel p id = false) : (s.raise p id d).pendBit p id = true :=
  pend_raiseAll p _ s (EvSmall.cons h EvSmall.nil) ht id (List.mem_cons_self ..) hl

/-- A register clear of events and of what the safe state stops reads as before. -/
theorem State.rd_raiseAll {p q : Part} {a : Nat} (evs : List (Nat × Word)) (s : State) (h : EvSmall evs)
    (ha : q ≠ p ∨ calmReg a = true) : (s.raiseAll p evs).rd q a = s.rd q a := (Calm.raiseAll p evs s h).rd q a ha

theorem State.rd_raise {p q : Part} {a : Nat} (id : Nat) (s : State) (d : Word) (h : id < 0x600)
    (ha : q ≠ p ∨ calmReg a = true) : (s.raise p id d).rd q a = s.rd q a := (Calm.raise p id s d h).rd q a ha

theorem Ev.core_fault_small (p : Part) {n : Nat} (h : n < 4) : Ev.CORE_FAULT p n < 0x600 := by
  unfold Ev.CORE_FAULT; split <;> omega
theorem Ev.core_halt_small (p : Part) {n : Nat} (h : n < 4) : Ev.CORE_HALT p n < 0x600 := by
  unfold Ev.CORE_HALT; split <;> omega

/-- Halting a core that runs, with its event, is calm. -/
theorem Calm.haltCore (p : Part) (n cause : Nat) (fault : Bool) (s : State) (h : n < 4) (hh : (s.core p n).halted = false) :
    Calm p s (s.haltCore p n cause fault) := by
  have h1 := Ev.core_fault_small p h
  have h2 := Ev.core_halt_small p h
  unfold State.haltCore
  cases p <;> cases fault <;> dsimp only <;> simp only [if_true, if_false, Bool.false_eq_true]
  · exact ((Calm.halt n cause s hh).trans (Calm.raise _ _ _ _ h2)).trans (Calm.msixSend _ _)
  · exact ((Calm.halt n cause s hh).trans (Calm.raise _ _ _ _ h1)).trans (Calm.msixSend _ _)
  · exact (Calm.halt n cause s hh).trans (Calm.raise _ _ _ _ h2)
  · exact (Calm.halt n cause s hh).trans (Calm.raise _ _ _ _ h1)

end Sys2Proof.Machine
end

