-- ==== Sys2Proof/Laws/Folko.lean ====
section
/-!
SUPPORT. What issuing, completing and writing a general register do on a core that is ready (R64, R70, R71).
-/

namespace Sys2Proof.Machine

open Sys2Proof

theorem issues_alive {c : CoreId} {s : State} (h : s.issues c = true) : s.alive c.part = true := by
  unfold State.issues at h; simp at h; exact h.1.1.1.1
theorem issues_stall {c : CoreId} {s : State} (h : s.issues c = true) : (s.core c.part c.idx).stall = .none := by
  unfold State.issues at h; simp at h; exact h.2
theorem issues_held {c : CoreId} {s : State} (h : s.issues c = true) : (s.core c.part c.idx).held = false := by
  unfold State.issues at h; simp at h; exact h.1.1.1.2
theorem issues_idx {c : CoreId} {s : State} (h : s.issues c = true) : c.idx < (s.chip c.part).cores.length := by
  refine Nat.lt_of_not_le fun hc => ?_
  have := issues_held h
  rw [State.core_absent _ _ _ hc] at this
  cases this
theorem issue_eq {c : CoreId} {s : State} (h : Ready c s) (f : State → State) : s.issue c f = f s := by
  unfold State.issue; simp [h.1, h.2.1]

theorem upd_congr (c : CoreId) (f g : Core → Core) (s : State) (h : f (s.core c.part c.idx) = g (s.core c.part c.idx)) :
    s.upCore c f = s.upCore c g := by
  unfold State.upCore State.updCore
  have : listModify (s.chip c.part).cores c.idx f = listModify (s.chip c.part).cores c.idx g := by
    unfold State.core at h
    generalize (s.chip c.part).cores = l at *
    generalize c.idx = i at *
    induction l generalizing i with
    | nil => rfl
    | cons x l ih =>
      cases i with
      | zero => simp at h; simp [listModify, h]
      | succ i => simp at h; simp [listModify, ih _ h]
  generalize c.part = p at *
  cases p <;> (simp only [State.upd]; unfold State.chip at this; simp [this])

theorem finish_eq {c : CoreId} {s : State} (pc : Word) (h : Ready c s) :
    s.finish c pc = s.moved c pc := by
  have hi := issues_idx h.1
  unfold State.finish
  have e : s.upCore c (fun k => { k with pc := pc, stall := .none }) = s.moved c pc := by
    unfold State.moved
    apply upd_congr
    have := issues_stall h.1
    generalize s.core c.part c.idx = k at *
    cases k; simp_all
  simp only [e]
  rw [if_neg]
  unfold State.moved State.upCore
  rw [State.core_updCore_same _ _ _ _ hi]
  simp [h.2.2]

theorem ready_upd {c : CoreId} {s : State} (f : Core → Core) (h : Ready c s)
    (hf : (f (s.core c.part c.idx)).held = (s.core c.part c.idx).held ∧ (f (s.core c.part c.idx)).halted = (s.core c.part c.idx).halted ∧
      (f (s.core c.part c.idx)).haltReq = (s.core c.part c.idx).haltReq ∧ (f (s.core c.part c.idx)).stall = (s.core c.part c.idx).stall ∧
      (f (s.core c.part c.idx)).pc = (s.core c.part c.idx).pc ∧ (f (s.core c.part c.idx)).stepping = (s.core c.part c.idx).stepping) :
    Ready c (s.upCore c f) := by
  have hi := issues_idx h.1
  obtain ⟨h1, h2, h3⟩ := h
  unfold Ready State.issues State.pc State.upCore at *
  rw [State.core_updCore_same _ _ _ _ hi]
  simp only [hf.1, hf.2.1, hf.2.2.1, hf.2.2.2.1, hf.2.2.2.2.1, hf.2.2.2.2.2, h2, h3]
  refine ⟨?_, trivial, trivial⟩
  simpa using h1

theorem setGpr_flags (k : Core) (d : BitVec 5) (v : Word) : (k.setGpr d v).held = k.held ∧ (k.setGpr d v).halted = k.halted ∧
    (k.setGpr d v).haltReq = k.haltReq ∧ (k.setGpr d v).stall = k.stall ∧ (k.setGpr d v).pc = k.pc ∧ (k.setGpr d v).stepping = k.stepping := by
  unfold Core.setGpr; split <;> simp

theorem result_eq {c : CoreId} {s : State} (d : BitVec 5) (v : Word) (h : Ready c s) : s.result c d v = s.wrote c d v := by
  unfold State.result State.advance
  have h' := ready_upd (fun k => k.setGpr d v) h (setGpr_flags _ d v)
  rw [finish_eq _ h']
  unfold State.moved State.wrote State.upCore State.pc
  rw [State.updCore_updCore]
  apply upd_congr
  rw [State.core_updCore_same _ _ _ _ (issues_idx h.1)]
  simp

theorem advance_eq {c : CoreId} {s : State} (h : Ready c s) : s.advance c = s.moved c (s.pc c + 4) := finish_eq _ h

/-! ### Halts and faults (R64, R69, R104) -/

theorem CoreId.idx_lt (c : CoreId) : c.idx < 4 := by cases c with
  | sender n => exact n.isLt
  | tile => exact (by decide : 0 < 4)

theorem core_event_edge (c : CoreId) : evLevel c.part (Ev.CORE_FAULT c.part c.idx) = false ∧
    evLevel c.part (Ev.CORE_HALT c.part c.idx) = false := by
  cases c with
  | sender n => revert n; decide
  | tile => decide

/-- What a halt leaves, after the core's own record: the rest is calm, and its event is pending. -/
theorem haltCore_calm (c : CoreId) (cause : Nat) (fault : Bool) (s : State) :
    Calm c.part (s.updCore c.part c.idx (Core.halt cause)) (s.haltCore c.part c.idx cause fault) ∧
      (s.tapTakes c.part = false → (s.haltCore c.part c.idx cause fault).pendBit c.part
        (if fault = true then Ev.CORE_FAULT c.part c.idx else Ev.CORE_HALT c.part c.idx) = true) := by
  have h1 := Ev.core_fault_small c.part (CoreId.idx_lt c)
  have h2 := Ev.core_halt_small c.part (CoreId.idx_lt c)
  have h3 := core_event_edge c
  have ht : ∀ f, (s.updCore c.part c.idx f).tapTakes c.part = s.tapTakes c.part := fun f => by
    unfold State.tapTakes; simp
  unfold State.haltCore
  generalize c.part = p at *
  generalize c.idx = n at *
  cases p <;> cases fault <;> dsimp only <;> simp only [if_true, if_false, Bool.false_eq_true]
  · exact ⟨(Calm.raise _ _ _ _ h2).trans (Calm.msixSend _ _), fun e =>
      (Calm.msixSend _ _).pend _ h2 (pend_raise _ _ _ _ h2 (by rw [ht]; exact e) h3.2)⟩
  · exact ⟨(Calm.raise _ _ _ _ h1).trans (Calm.msixSend _ _), fun e =>
      (Calm.msixSend _ _).pend _ h1 (pend_raise _ _ _ _ h1 (by rw [ht]; exact e) h3.1)⟩
  · exact ⟨Calm.raise _ _ _ _ h2, fun e => pend_raise _ _ _ _ h2 (by rw [ht]; exact e) h3.2⟩
  · exact ⟨Calm.raise _ _ _ _ h1, fun e => pend_raise _ _ _ _ h1 (by rw [ht]; exact e) h3.1⟩

theorem State.dmemByte_of {s t : State} {q : Part} (h : (t.chip q).dmem = (s.chip q).dmem) (a : Nat) :
    t.dmemByte q a = s.dmemByte q a := by unfold State.dmemByte; rw [h]

/-- Everything that a fault does (R104, R105). -/
theorem faultCore_faulted {c : CoreId} {s : State} (code : Nat) (addr : Word)
    (hi : c.idx < (s.chip c.part).cores.length) : Faulted c code addr s (s.faultCore c code addr) := by
  unfold State.faultCore
  dsimp only
  have ht : ∀ a b d, (((s.wr c.part (Reg.SYS_CORE_FCODE c.idx) a).wr c.part (Reg.SYS_CORE_FPC c.idx) b).wr c.part
      (Reg.SYS_CORE_FADDR c.idx) d).tapTakes c.part = s.tapTakes c.part := fun a b d => by
    unfold State.tapTakes; simp
  obtain ⟨h1, h2⟩ := haltCore_calm c 2 true (((s.wr c.part (Reg.SYS_CORE_FCODE c.idx) (wd (2 ^ 31 + code))).wr c.part
    (Reg.SYS_CORE_FPC c.idx) (s.pc c)).wr c.part (Reg.SYS_CORE_FADDR c.idx) addr)
  have hpc : (s.wr c.part (Reg.SYS_CORE_FCODE c.idx) (wd (2 ^ 31 + code))).pc c = s.pc c := by unfold State.pc; simp
  rw [hpc]
  generalize hu : (((s.wr c.part (Reg.SYS_CORE_FCODE c.idx) (wd (2 ^ 31 + code))).wr c.part
    (Reg.SYS_CORE_FPC c.idx) (s.pc c)).wr c.part (Reg.SYS_CORE_FADDR c.idx) addr) = u at *
  have hc : ∀ q n, u.core q n = s.core q n := fun q n => by rw [← hu]; simp
  have hl : c.idx < (u.chip c.part).cores.length := by rw [← hu]; simpa using hi
  have hr : ∀ q a, u.rd q a = if q = c.part ∧ a = Reg.SYS_CORE_FADDR c.idx then addr else
      if q = c.part ∧ a = Reg.SYS_CORE_FPC c.idx then s.pc c else
      if q = c.part ∧ a = Reg.SYS_CORE_FCODE c.idx then wd (2 ^ 31 + code) else s.rd q a := fun q a => by
    rw [← hu]; simp [State.rd_wr]
  have hx := CoreId.idx_lt c
  have e1 : ∀ n, n < 4 → calmReg (Reg.SYS_CORE_FCODE n) = true ∧ calmReg (Reg.SYS_CORE_FPC n) = true ∧
      calmReg (Reg.SYS_CORE_FADDR n) = true ∧ Reg.SYS_CORE_FCODE n ≠ Reg.SYS_CORE_FADDR n ∧
      Reg.SYS_CORE_FCODE n ≠ Reg.SYS_CORE_FPC n ∧ Reg.SYS_CORE_FPC n ≠ Reg.SYS_CORE_FADDR n := by decide
  obtain ⟨a1, a2, a3, a4, a5, a6⟩ := e1 _ hx
  have hk := h1.cores c.part c.idx
  rw [State.core_updCore_same _ _ _ _ hl, hc] at hk
  have hh := hk.halted (by unfold Core.halt; rfl)
  have hk' : (Core.halt 2 (s.core c.part c.idx)).g = (s.core c.part c.idx).g ∧
      (Core.halt 2 (s.core c.part c.idx)).pc = (s.core c.part c.idx).pc ∧
      (Core.halt 2 (s.core c.part c.idx)).posted = (s.core c.part c.idx).posted ∧
      (Core.halt 2 (s.core c.part c.idx)).xfer = (s.core c.part c.idx).xfer ∧
      (Core.halt 2 (s.core c.part c.idx)).cause = 2 := ⟨rfl, rfl, rfl, rfl, rfl⟩
  exact {
    halted := hh.1
    cause := hh.2
    pc := hk.pc
    gprs := fun r => by unfold State.gpr Core.gpr; rw [hk.g, hk'.1]
    posted := hk.posted
    xfer := hk.xfer
    fcode := by
      rw [h1.rd _ _ (.inr a1), State.rd_updCore, hr]; simp [a4, a5]
    fpc := by
      rw [h1.rd _ _ (.inr a2), State.rd_updCore, hr]; simp [a6]
    faddr := by
      rw [h1.rd _ _ (.inr a3), State.rd_updCore, hr]; simp
    event := fun e => h2 (by rw [← hu, ht]; exact e)
    regs := fun q a ha => by
      rw [h1.rd _ _ (ha.imp id fun x => x.1), State.rd_updCore, hr]
      rcases ha with ha | ⟨-, b1, b2, b3⟩
      · simp [ha]
      · simp [b1, b2, b3]
    dmem := fun q a => State.dmemByte_of (by rw [h1.dmem, ← hu]; simp) a
    flash := fun q => by rw [h1.flash, ← hu]; simp
    queues := fun q => ⟨by rw [h1.rxq, ← hu]; simp, by rw [h1.txq, ← hu]; simp, by rw [h1.commit, ← hu]; simp⟩
    others := fun q n hq => by
      have := h1.cores q n
      rw [State.core_updCore, if_neg (by rintro ⟨x, y, -⟩; rcases hq with hq | hq; exact hq x; exact hq y), hc] at this
      exact this
    pending := by rw [h1.pending, ← hu]; simp }

/-- Everything that a halt without a fault does (R62, R69, R102), from the state in which the core stands at `pc`. -/
theorem haltCore_halted {c : CoreId} {s : State} (cause : Nat) (hi : c.idx < (s.chip c.part).cores.length) :
    Halted c cause (s.pc c) s (s.haltCore c.part c.idx cause false) := by
  obtain ⟨h1, h2⟩ := haltCore_calm c cause false s
  have hk := h1.cores c.part c.idx
  rw [State.core_updCore_same _ _ _ _ hi] at hk
  have hh := hk.halted (by unfold Core.halt; rfl)
  exact {
    halted := hh.1
    cause := hh.2
    pc := hk.pc
    gprs := fun r => by unfold State.gpr Core.gpr; rw [hk.g]; rfl
    posted := hk.posted
    event := fun e => h2 e
    regs := fun q a ha => by rw [h1.rd _ _ ha, State.rd_updCore]
    dmem := fun q a => State.dmemByte_of (by rw [h1.dmem]; simp) a
    commit := fun q => by rw [h1.commit]; simp
    others := fun q n hq => by
      have := h1.cores q n
      rw [State.core_updCore, if_neg (by rintro ⟨x, y, -⟩; rcases hq with hq | hq; exact hq x; exact hq y)] at this
      exact this }

end Sys2Proof.Machine
end

