-- ==== Sys2Proof/Tests/Slice0.lean ====
section
/-!
SUPPORT. Tests: the encodings of R75 written out bit by bit, the published check values of the hash functions, one
refused term for each check of well-formedness, and for every obligation a witness: a concrete state and operands that
meet its hypotheses, at the boundaries of its clauses, with what the command then does.
-/

namespace Sys2Proof.Tests

open Sys2Proof.Machine

set_option Elab.async false
set_option synthInstance.maxSize 1024
set_option synthInstance.maxHeartbeats 200000

/-! ### Small states -/

/-- The state after a command, marked where the command has none. -/
def run (i : Instr) (s : State) : State :=
  match exec i s with
  | .next t => t
  | .fault _ => { s with draws := s.draws + 1000 }
  | .refused _ => { s with draws := s.draws + 1000 }

/-- A command changes nothing. -/
def idle (i : Instr) (s : State) : Bool := decide (run i s = s)

/-- A core that boot has released. -/
def core : Core := { Core.reset with held := false }

/-- Both parts run, their cores released. -/
def up : State :=
  { State.reset with
    sender := { Chip.reset .sender with phase := .up, cores := [core, core, core, core] }
    tile := { Chip.reset .tile with phase := .up, cores := [core] } }

/-- A general register set. -/
def g (c : CoreId) (r : BitVec 5) (v : Word) (s : State) : State := s.updCore c.part c.idx fun k => k.setGpr r v

/-- A wall time set. -/
def at' (p : Part) (w : Nat) (s : State) : State := s.upd p fun c => { c with count := w * 2 ^ 32 }

/-- `n` CORE cycles have passed in each part. -/
def later (n : Nat) (s : State) : State := (s.upd .sender fun c => { c with cycles := n }).upd .tile fun c => { c with cycles := n }

/-- A core stalled. -/
def stalled (c : CoreId) (st : Stall) (s : State) : State := s.updCore c.part c.idx fun k => { k with stall := st }

/-- An event raised. -/
def ev (p : Part) (id : Nat) (s : State) : State := s.raise p id 0

/-- A TAP that holds EXTEST. -/
def taken (p : Part) (s : State) : State := s.upd p fun c => { c with tap := .extest }

/-- A core that has halted. -/
def halted (p : Part) (n : Nat) (s : State) : State := s.updCore p n fun k => { k with halted := true }

/-- A port ACTIVE with both directions UP. -/
def linked (p : Part) (i : Nat) (s : State) : State := s.wr p (Reg.LNK_STAT i) 0xA2200000

/-- The sender's chain port 0 and the tile's ports are ACTIVE, port 0 is a chain of 8, and the tile is at position 3. -/
def net : State :=
  (linked .tile 1 (linked .tile 0 (linked .sender 0 up))).wr .tile Reg.LNK_POS 0x80000003
    |>.wr .sender (Reg.CHN_CTRL 0) 0x40000008

/-- The host is attached. -/
def host (s : State) : State := s.wr .sender Reg.SYS_STRAP 8

/-- Sender A holds the loan of the tile until wall time 1,000,000. -/
def lent (s : State) : State :=
  (s.wr .tile Reg.LOAN_REC 0x50000000).wr .tile Reg.LOAN_EXPIRY 1000000 |>.wr .tile Reg.LOAN_REC_TERM 250000

/-- Frame memory is trained. -/
def trained (s : State) : State := s.wr .sender Reg.DRC_STAT 0xFF01

/-- Sender A holds the tile's loan. -/
def held : State := lent net

/-- Sender B holds the loan of the tile. -/
def lentB (s : State) : State := s.wr .tile Reg.LOAN_REC 0x90000000

/-- The frame schedule of both parts runs with a period of 2^23 ns; the next origin and latch point are those of frame 2. -/
def framed (now : Nat) : State :=
  let f := fun p s => (((s.wr p Reg.TIME_FRM_CTRL 0x80000001).wr p Reg.TIME_FRM_PER 0x800000).wr p Reg.TIME_FRM_PERF 0).upd p
    fun c => { c with nextLatch := 2, nextOrigin := 2 }
  f .tile (f .sender (at' .tile now (at' .sender now net)))

/-- Frame memory is trained and filled with zeros. -/
def ram (s : State) : State :=
  (trained s).updSnd fun t => { t with dram := { t.dram with fill := some 0 } }

/-- The test of PlainRw. -/
theorem plain {p : Part} {a m : Nat}
    (h : (a < 0x800000 && match findReg p a with
      | some (r, _) => r.acc == .rw && r.hook == .none && r.mask == m
      | none => false) = true) : PlainRw p a m := by
  unfold PlainRw
  rw [Bool.and_eq_true] at h
  refine ⟨by simpa using h.1, ?_⟩
  cases hf : findReg p a with
  | none => rw [hf] at h; simp at h
  | some x =>
    rw [hf] at h
    obtain ⟨_, h2⟩ := h
    simp only [Bool.and_eq_true, beq_iff_eq] at h2
    exact ⟨x.1, x.2, rfl, h2.1.1, h2.1.2, h2.2⟩

/-- The test of ShadowImage. -/
theorem image {p : Part} {a m : Nat}
    (h : (a < 0x800000 && (findReg p a).isNone && match findShadow p a with
      | some (r, _) => r.mask == m
      | none => false) = true) : ShadowImage p a m := by
  unfold ShadowImage
  simp only [Bool.and_eq_true] at h
  obtain ⟨⟨h1, h2⟩, h3⟩ := h
  refine ⟨by simpa using h1, by simpa using h2, ?_⟩
  cases hf : findShadow p a with
  | none => rw [hf] at h3; simp at h3
  | some x => rw [hf] at h3; exact ⟨x.1, x.2, rfl, by simpa using h3⟩

/-! ### Words of R75, written out from its table -/

theorem test_decode_alu : decodeFolko .tile 0 0b000000_00001_00010_00011_00000000000 = some (.add .tile 1 2 3) ∧
    decodeFolko .tile 0 0b000000_00001_00010_00011_00000001010 = some (.sar .tile 1 2 3) ∧
    decodeFolko .tile 0 0b000000_00001_00010_00000_00000100000 = some (.clz .tile 1 2) := by decide

theorem test_decode_immediate : decodeFolko .tile 0 0x16A00001 = some (.lui .tile 21 1) ∧
    decodeFolko .tile 0 0x18A3003C = some (.shi .tile 5 3 0x3C) ∧
    decodeFolko .tile 0 0b000001_00001_00010_1111111111111111 = some (.addi .tile 1 2 0xFFFF) := by decide

theorem test_decode_memory : decodeFolko .tile 0 0x2CD51004 = some (.fwr .tile 6 21 0x1004) ∧
    decodeFolko .tile 0 0b001000_00001_00010_0000000000000100 = some (.ldw .tile 1 2 4) := by decide

theorem test_decode_control : decodeFolko .tile 0 0x4CE0FFFB = some (.bge .tile 7 0 0xFFFB) ∧
    decodeFolko .tile 0 0x63FFFFFC = some (.jmp .tile 0x3FFFFFC) ∧
    decodeFolko .tile 0 0b011010_00001_00010_00000_00000000000 = some (.jr .tile 1 2) := by decide

theorem test_decode_system : decodeFolko .tile 0 0x84602004 = some (.waitePoll .tile 3 4) ∧
    decodeFolko .tile 0 0x89173800 = some (.cmt .tile 8 23 7) ∧
    decodeFolko .tile 0 0b101011_00001_00000_00000_00000000001 = some (.nowFrame .tile 1) ∧
    decodeFolko .tile 0 0b111111_00000000000000000000000101 = some (.trap .tile 5) := by decide

/-- R74: a word of no row raises ILLEGAL. -/
theorem test_decode_illegal : decodeFolko .tile 0 0x00221805 = none ∧ decodeFolko .tile 0 0x18A30060 = none ∧
    decodeFolko .tile 0 0x14A10001 = none ∧ decodeFolko .tile 0 0x1C000000 = none := by decide

theorem test_encode : encodeFolko (.add .tile 1 2 3) = some 0x00221800 ∧
    encodeFolko (.fwr .tile 6 21 0x1004) = some 0x2CD51004 ∧ encodeFolko (.hostMbxOutAck) = none := by decide

/-! ### Published check values -/

/-- CRC-32C of "123456789" is E3069283 and with initial value FF the CRC-8 of polynomial 07 is FB and the CRC-16 of polynomial 1021 is 29B1. -/
theorem test_crc : crc32c (asciiBytes "123456789") = 0xE3069283 ∧ crc8 (asciiBytes "123456789") = 0xFB ∧ crc16 (asciiBytes "123456789") = 0x29B1 := by decide +kernel

/-- FIPS 180-4: SHA-256 of "abc" begins BA7816BF. -/
theorem test_sha256 : (sha256w (asciiBytes "abc")).take 2 = [0xBA7816BF, 0x8F01CFEA] := by decide +kernel

/-! ### Terms that are not well formed -/

theorem test_wf_words : (Instr.shi .tile 1 2 0x60).wf = false ∧ (Instr.shi .tile 1 2 0x5F).wf = true ∧
    (Instr.waitePoll .tile 1 0x440).wf = false ∧ (Instr.waiteNotime (.sender 0) 1 0x600).wf = false ∧
    (Instr.waiteTimed .tile 1 1 0x43F).wf = true ∧ (Instr.evset .tile true 1 5).wf = false ∧
    (Instr.evack .tile false 1 5).wf = false ∧ (Instr.bcst .tile 1 2 3).wf = false ∧
    (Instr.illegalOpcode .tile 0x00221800).wf = false ∧ (Instr.illegalOpcode .tile 0x1C000000).wf = true := by
  decide +kernel

/-! ### Instructions of the cores -/

/-- Registers for the arithmetic of R76: g1 is the least integer, g2 is −1, g3 is 33. -/
def alu : State := g .tile 3 33 (g .tile 2 0xFFFFFFFF (g .tile 1 0x80000000 up))

/-- What g4 holds after an instruction of the tile's core. -/
def out4 (i : Instr) (s : State) : Word := (run i s).gpr .tile 4

theorem witness_StepRunsFrontCommand : ({ up with pending := [.fence .tile, .brk .tile 0] } : State).pending =
    .fence .tile :: [.brk .tile 0] ∧
    (match step { up with pending := [.fence .tile, .brk .tile 0] } with
      | .next t => t.pending
      | _ => []) = [.brk .tile 0] := by decide +kernel

theorem witness_EveryStepAnswersOrCountsTime : up.pending = [] ∧ up.alive .sender = true ∧ up.alive .tile = true ∧
    up.til.refSeen = false ∧ State.reset.alive .sender = false ∧ State.reset.alive .tile = false ∧
    (match step up with
      | .next t => t.sender.count
      | _ => 0) = 2 ^ 33 := by decide +kernel

/-- A tile that has seen its reference counts too. -/
theorem witness_idle_tile : (up.updTil fun t => { t with refSeen := true }).til.refSeen = true ∧
    (match step (up.updTil fun t => { t with refSeen := true }) with
      | .next t => t.tile.count
      | _ => 0) = 2 ^ 33 := by decide +kernel

theorem witness_ResetLeaves : Sound State.reset := by unfold Sound; decide +kernel

theorem witness_ArithmeticResults : Ready .tile alu ∧ (0x5F : BitVec 16).toNat < 0x60 ∧
    out4 (.add .tile 4 1 1) alu = 0 ∧ out4 (.sub .tile 4 3 2) alu = 34 ∧ out4 (.sar .tile 4 1 3) alu = 0xC0000000 ∧
    out4 (.shr .tile 4 1 3) alu = 0x40000000 ∧ out4 (.shl .tile 4 3 3) alu = 66 ∧
    out4 (.mulhu .tile 4 2 2) alu = 0xFFFFFFFE ∧ out4 (.min .tile 4 1 3) alu = 0x80000000 ∧
    out4 (.sltu .tile 4 1 3) alu = 0 ∧ out4 (.slt .tile 4 1 3) alu = 1 ∧ out4 (.clz .tile 4 0) alu = 32 ∧
    out4 (.clz .tile 4 3) alu = 26 := by unfold Ready; decide +kernel

theorem witness_immediates : out4 (.addi .tile 4 3 0xFFFF) alu = 32 ∧ out4 (.andi .tile 4 2 0xFFFF) alu = 0xFFFF ∧
    out4 (.xori .tile 4 2 1) alu = 0xFFFFFFFE ∧ out4 (.lui .tile 4 0x8001) alu = 0x80010000 ∧
    out4 (.shi .tile 4 1 0x5F) alu = 0xFFFFFFFF ∧ out4 (.shi .tile 4 1 0x3F) alu = 1 ∧
    out4 (.shi .tile 4 3 0x1F) alu = 0x80000000 := by decide +kernel

theorem witness_RegisterWriteFrame : Ready (.sender 3) up ∧ (up.wrote (.sender 3) 0 7).gpr (.sender 3) 0 = 0 ∧
    (up.wrote (.sender 3) 31 7).gpr (.sender 3) 31 = 7 := by unfold Ready; decide +kernel

theorem witness_BranchesAndJumps : Ready .tile alu ∧ (alu.gpr .tile 1).toNat % 4 = 0 ∧
    (run (.jr .tile 4 1) alu).pc .tile = 0x80000000 ∧ (run (.blt .tile 1 3 0xFFFF) alu).pc .tile = 0xFFFFFFFC ∧
    (run (.bltu .tile 1 3 0xFFFF) alu).pc .tile = 4 ∧ (run (.jmp .tile 0x2000000) alu).pc .tile = 0xF8000000 ∧
    (run (.call .tile 2) alu).gpr .tile 31 = 4 := by unfold Ready; decide +kernel

/-- Addresses at the ends of data memory, in g1 and g2 of both kinds of core. -/
def mem : State :=
  g (.sender 1) 2 0x7FF80 (g (.sender 1) 1 0x7FF7C (g .tile 2 0x10000 (g .tile 1 0xFFFC up)))

theorem witness_LoadsStoresAndLockWords : Ready .tile mem ∧ Ready (.sender 1) mem ∧
    (mem.gpr .tile 1).toNat < dmemSize .tile ∧ (mem.gpr .tile 1).toNat % 4 = 0 ∧
    (mem.gpr (.sender 1) 1).toNat < 0x7FF80 ∧ 0x7FF80 ≤ (mem.gpr (.sender 1) 2).toNat ∧
    out4 (.ldw .tile 4 1 0) (run (.stw .tile 1 1 0) mem) = 0xFFFC ∧
    (run (.ldw (.sender 1) 4 2 0) mem).dmemRd .sender 0x7FF80 = 2 ∧
    (run (.ldw (.sender 1) 4 2 0) (run (.ldw (.sender 1) 4 2 0) mem)).gpr (.sender 1) 4 = 2 ∧
    (run (.stw (.sender 1) 0 2 0) (run (.ldw (.sender 1) 4 2 0) mem)).dmemRd .sender 0x7FF80 = 0 := by
  unfold Ready; decide +kernel

/-- A plain register of each part, and a shadow image. -/
theorem plain_thr : PlainRw .tile Reg.TIME_STEP_THR 0xFFFFFFFF := plain (by decide +kernel)
theorem plain_ringBase : PlainRw .sender (Reg.RING_BASE 0) 0xFFFFFFFF := plain (by decide +kernel)
theorem image_snum : ShadowImage .tile (Reg.TIME_FRM_SNUM + 0x8000) 0xFFFFFFFF := image (by decide +kernel)

/-- A posted write of a core, oldest of its queue. -/
def posts (c : CoreId) (l : List (Word × Word)) (s : State) : State :=
  s.updCore c.part c.idx fun k => { k with posted := l }

/-- A pending commit that names TIME alone. -/
def locked (s : State) : State :=
  s.upd .tile fun c => { c with commit := some ⟨2, 1, .byFrame, false, 0⟩ }

/-- The tile's g1 holds the address of `TIME_STEP_THR`. -/
def thr : State := g .tile 1 0x50030 up

theorem witness_FolioAccesses : Ready .tile thr ∧ folioMapped .tile (thr.gpr .tile 1).toNat = true ∧
    (thr.gpr .tile 1).toNat % 4 = 0 ∧ (run (.frd .tile 4 1 0) thr).core .tile 0 =
      { thr.core .tile 0 with stall := .frd 4 0x50030 } ∧
    ((posts .tile (List.replicate 7 (0x50030, 1)) thr).core .tile 0).posted.length < 8 ∧
    ((run (.fwr .tile 4 1 0) (posts .tile (List.replicate 7 (0x50030, 1)) thr)).core .tile 0).posted.length = 8 ∧
    8 ≤ ((posts .tile (List.replicate 8 (0x50030, 1)) thr).core .tile 0).posted.length ∧
    ((run (.fwr .tile 4 1 0) (posts .tile (List.replicate 8 (0x50030, 1)) thr)).core .tile 0).stall =
      .fwr 0x50030 0 := by
  unfold Ready; decide +kernel

theorem witness_FolioAccesses_return : Stalled .tile (.frd 4 0x50030) (stalled .tile (.frd 4 0x50030) up) ∧
    (up.core .tile 0).posted = [] ∧ Stalled .tile .fence (stalled .tile .fence up) ∧
    out4 (.frdReturn .tile) (stalled .tile (.frd 4 0x50030) up) = 0x3E8 ∧
    (run (.fenceDone .tile) (stalled .tile .fence up)).pc .tile = 4 := by
  unfold Stalled; decide +kernel

theorem witness_FolioAccesses_arrival : up.alive .tile = true ∧
    (up.core .tile 0).stall = .none ∧ (up.core .tile 0).dbgFwr = [] ∧ up.tile.cores.length = 1 ∧
    up.lockedAt .tile 0x59010 = false ∧ (locked up).lockedAt .tile 0x59010 = true ∧
    (run (.folioWriteArrival .tile) (posts .tile [(0x50030, 9)] up)).rd .tile 0x50030 = 9 ∧
    (run (.folioWriteArrival .tile) (posts .tile [(0x59010, 9)] up)).rd .tile 0x59010 = 9 ∧
    (run (.folioWriteArrival .tile) (posts .tile [(0x59010, 9)] (locked up))).rd .tile 0x59010 = 0 ∧
    (run (.folioWriteArrival .tile) (posts .tile [(0x59010, 9)] (locked up))).rd .tile Reg.SYS_CMT_LOCKDROP = 1 ∧
    (run (.folioWriteArrival .tile) (posts .tile [(0x59010, 9)] (locked up))).pendBit .tile Ev.SHADOW_LOCKED = true := by
  decide +kernel

/-- The fault code of the tile's core after an instruction. -/
def faultOf (i : Instr) (s : State) : Word := (run i s).rd .tile (Reg.SYS_CORE_FCODE 0)

theorem witness_FaultsAndHalts : Ready .tile mem ∧ dmemSize .tile ≤ (mem.gpr .tile 2).toNat ∧
    decodeFolko .tile 0 0x1C000000 = none ∧
    faultOf (.ldw .tile 4 2 0) mem = 0x80000003 ∧ faultOf (.stw .tile 4 1 1) mem = 0x80000004 ∧
    faultOf (.stw .tile 4 2 1) mem = 0x80000003 ∧ faultOf (.frd .tile 4 0 4) up = 0x80000005 ∧
    folioMapped .tile 4 = false ∧ faultOf (.fwr .tile 4 1 1) thr = 0x80000006 ∧
    faultOf (.jr .tile 4 1) (g .tile 1 2 up) = 0x80000002 ∧ faultOf (.illegalOpcode .tile 0x1C000000) up = 0x80000001 ∧
    faultOf (.trap .tile 5) up = 0x80000008 ∧ (run (.trap .tile 5) up).rd .tile (Reg.SYS_CORE_FADDR 0) = 5 := by
  unfold Ready; decide +kernel

/-- The PC of the tile's core lies at the end of its instruction memory. -/
def atEnd : State := up.updCore .tile 0 fun k => { k with pc := 0x10000 }

theorem witness_FaultsAndHalts_halt : atEnd.issues .tile = true ∧ imemSize .tile ≤ (atEnd.pc .tile).toNat ∧
    faultOf (.ifetch .tile) atEnd = 0x80000002 ∧ ((run (.brk .tile 7) up).core .tile 0).cause = 1 ∧
    (run (.brk .tile 7) up).pendBit .tile (Ev.CORE_HALT .tile 0) = true ∧
    (let s := up.updCore .sender 3 fun k => { k with haltReq := true }
     (s.core .sender 3).halted = false ∧ (s.core .sender 3).haltReq = true ∧ (s.core .sender 3).stall = .none ∧
     s.alive .sender = true ∧ 3 < s.sender.cores.length ∧ ((run (.coreHalt (.sender 3)) s).core .sender 3).halted = true) := by
  decide +kernel

/-- The tile counts time, g1 is its wall time 100 and g2 is 101. -/
def clocked : State := (g .tile 2 101 (g .tile 1 100 (at' .tile 100 up))).updTil fun t => { t with refSeen := true }

theorem witness_WaitsForTime : clocked.timeRuns .tile = true ∧ Ready .tile clocked ∧
    Stalled .tile (.waitt 100) (stalled .tile (.waitt 100) clocked) ∧
    Stalled .tile (.waitt 101) (stalled .tile (.waitt 101) clocked) ∧
    (run (.waitt .tile 1) clocked).pc .tile = 4 ∧ ((run (.waitt .tile 2) clocked).core .tile 0).stall = .waitt 101 ∧
    (run (.waittWake .tile) (stalled .tile (.waitt 100) clocked)).pc .tile = 4 ∧
    idle (.waittWake .tile) (stalled .tile (.waitt 101) clocked) = true := by
  unfold Ready Stalled; decide +kernel

/-- A software event of the tile and of the sender is pending. -/
def sw : State := ev .sender 0x5E0 (ev .tile 0x430 clocked)

theorem witness_EventsAndTimeOfPrograms : Ready .tile sw ∧ sw.pendBit .tile 0x430 = true ∧
    sw.bitOf .tile (Reg.EVT_ROUTE 0x430) 0 = true ∧ sw.pendBit .tile 0x43F = false ∧
    out4 (.waiteTimed .tile 4 2 0x430) (g .tile 4 7 sw) = 0 ∧ out4 (.waitePoll .tile 4 0x43F) sw = 1 ∧
    out4 (.waiteTimed .tile 4 1 0x43F) sw = 1 ∧
    ((run (.waiteTimed .tile 4 2 0x43F) sw).core .tile 0).stall = .waite 4 0x43F (some 101) ∧
    ((run (.waiteNotime .tile 4 0x43F) sw).core .tile 0).stall = .waite 4 0x43F none ∧
    faultOf (.waitePoll .tile 4 0x440) sw = 0x80000007 := by
  unfold Ready; decide +kernel

theorem witness_EventsAndTimeOfPrograms_wake :
    Stalled .tile (.waite 4 0x430 (some 100)) (stalled .tile (.waite 4 0x430 (some 100)) sw) ∧
    Stalled .tile (.waite 4 0x43F (some 100)) (stalled .tile (.waite 4 0x43F (some 100)) sw) ∧
    out4 (.waiteTimeout .tile) (g .tile 4 7 (stalled .tile (.waite 4 0x430 (some 100)) sw)) = 0 ∧
    out4 (.waiteTimeout .tile) (stalled .tile (.waite 4 0x43F (some 100)) sw) = 1 ∧
    out4 (.waiteWake .tile 0x430) (g .tile 4 7 (stalled .tile (.waite 4 0x430 (some 100)) sw)) = 0 ∧
    (let s := stalled (.sender 1) (.waite 4 0x5E0 none) (stalled (.sender 0) (.waite 4 0x5E0 none)
       (sw.wr .sender (Reg.EVT_ROUTE 0x5E0) 2))
     s.alive .sender = true ∧ s.sender.cores.length = 4 ∧ s.pendBit .sender 0x5E0 = true ∧
     (∀ n : Fin 4, (s.core .sender n.val).stepping = false) ∧
     (run (.waiteWake .sender 0x5E0) s).pc (.sender 1) = 4 ∧ (run (.waiteWake .sender 0x5E0) s).pc (.sender 0) = 0) := by
  unfold Stalled; decide +kernel

theorem witness_EventsAndTimeOfPrograms_set : sw.tapTakes .tile = false ∧ evLevel .tile 0x430 = false ∧
    evLevel .tile Ev.TRCV_READY = true ∧ (run (.evset .tile false 0 0x43F) sw).pendBit .tile 0x43F = true ∧
    (run (.evset .tile true 1 0) (g .tile 1 0x1430 up)).pendBit .tile 0x430 = true ∧
    (run (.evack .tile false 0 0x430) sw).pendBit .tile 0x430 = false ∧
    (run (.evack .tile false 0 (BitVec.ofNat 12 Ev.TRCV_READY)) (sw.setPend .tile Ev.TRCV_READY true)).pendBit .tile
      Ev.TRCV_READY = true ∧
    faultOf (.evset .tile false 0 0x42F) sw = 0x80000007 ∧ faultOf (.evack .tile false 0 0x440) sw = 0x80000007 := by
  decide +kernel

theorem witness_EventsAndTimeOfPrograms_now : out4 (.nowWall .tile 4 8) clocked = 92 ∧
    clocked.schedOn .tile = false ∧ (clocked.wrBit .tile Reg.TIME_FRM_CTRL 31 true).schedOn .tile = true ∧
    out4 (.nowFrame .tile 4) (clocked.wr .tile Reg.TIME_FRM_NUM 77) = 77 ∧
    out4 (.nowCycles .tile 4) (up.upd .tile fun c => { c with cycles := 2 ^ 32 + 5 }) = 5 := by decide +kernel

/-! ### Commits, messages and transfers -/

/-- The tile's schedule runs from wall time 0, a frame each 2^23 ns. -/
def paced : State :=
  (((at' .tile 100 net).wr .tile Reg.TIME_FRM_CTRL 0x80000001).wr .tile Reg.TIME_FRM_PER 0x800000).wr .tile
    Reg.TIME_FRM_PERF 0

theorem witness_CommitAnswers : Ready .tile up ∧ Stalled .tile (.cmt 4 2 0) (stalled .tile (.cmt 4 2 0) up) ∧
    (up.core .tile 0).posted = [] ∧ up.validate .tile 8 (up.cmtFrame .tile 0) (up.wall .tile) = none ∧
    ((run (.cmt .tile 4 1 2) (g .tile 1 2 up)).core .tile 0).stall = .cmt 4 2 0 ∧
    (run (.cmtComplete .tile) (stalled .tile (.cmt 4 8 0) up)).rd .tile Reg.SYS_CMT_MASK = 8 ∧
    out4 (.cmtComplete .tile) (stalled .tile (.cmt 4 0 0) up) = 0xFF000001 ∧
    out4 (.cmtComplete .tile) (stalled .tile (.cmt 4 0x10 0) up) = 0xFF000002 ∧
    out4 (.cmtComplete .tile) (stalled .tile (.cmt 4 2 0) (locked up)) = 0xFF000003 ∧
    (run (.cmtComplete .tile) (stalled .tile (.cmt 4 0 0) up)).rd .tile Reg.SYS_CMT_REJ = 1 ∧
    out4 (.cmtq .tile 4 1 0) (g .tile 4 7 (g .tile 1 8 up)) = 0 ∧ out4 (.cmtq .tile 4 0 0) up = 0xFF000001 := by
  unfold Ready Stalled; decide +kernel

theorem witness_CommitAnswers_sender : (up.wrBit .sender Reg.FLT_STAT 31 true).bitOf .sender Reg.FLT_STAT 31 = true ∧
    (up.wrBit .sender Reg.FLT_STAT 31 true).validate .sender 1 0 0 = some 0xFF000004 ∧
    up.validate .sender 0x200 0 0 = some 0xFF000002 ∧
    (run (.cmtComplete (.sender 2)) (stalled (.sender 2) (.cmt 4 8 0) up)).rd .sender Reg.SYS_CMT_STAT = 0x80000000 := by
  decide +kernel

theorem witness_CommitAnswers_frame : paced.schedOn .tile = true ∧ up.schedOn .tile = false ∧
    1000 ≤ (paced.latchAt .tile paced.tile.nextLatch - paced.wall .tile).toInt ∧
    paced.cmtFrame .tile 0 = paced.tile.nextLatch + 1 := by decide +kernel

/-- A commit of SIG waits in the tile for wall time 100. -/
def sigWaits : State := (at' .tile 100 up).upd .tile fun c => { c with commit := some ⟨8, 5, .byTime 100 0, false, 0⟩ }

theorem witness_CommitLandsAndBroadcasts : sigWaits.alive .tile = true ∧ sigWaits.schedOn .tile = false ∧
    sigWaits.tile.commit = some ⟨8, 5, .byTime 100 0, false, 0⟩ ∧ (100 - sigWaits.wall .tile).toInt ≤ 0 ∧
    (run (.commitWReached .tile) sigWaits).tile.commit = none ∧
    (run (.commitWReached .tile) sigWaits).rd .tile Reg.SYS_CMT_GEN = 1 ∧
    (run (.commitWReached .tile) sigWaits).pendBit .tile Ev.CMT_APPLIED = true := by decide +kernel

/-- A BCST descriptor at the end of data memory names chain 0, TIME and tag 7; g1 is its address. -/
def bcast : State :=
  g (.sender 0) 1 0x7FFF4 (net.dmemWrs .sender 0x7FFF4 [1, 2, 7])

theorem witness_CommitLandsAndBroadcasts_bcst : Ready (.sender 0) bcast ∧ (0x7FFF4 : Word).toNat % 4 = 0 ∧
    bcast.safe .sender = false ∧ bcast.isChain 0 = true ∧ bcast.isChain 1 = false ∧ bcast.txActive .sender 0 = true ∧
    (run (.bcst (.sender 0) 4 0 1) bcast).out.length = 1 ∧
    (run (.bcst (.sender 0) 4 0 1) bcast).rd .sender Reg.SYS_CMT_LAST = 0 ∧
    (run (.bcst (.sender 0) 4 0 1) (bcast.wrBit .sender Reg.FLT_STAT 31 true)).rd .sender Reg.SYS_CMT_LAST = 0xFF000004 ∧
    (run (.bcst (.sender 0) 4 0 1) (bcast.dmemWr .sender 0x7FFF4 2)).rd .sender Reg.SYS_CMT_LAST = 0xFF000020 ∧
    (run (.bcst (.sender 0) 4 0 1) (bcast.dmemWr .sender 0x7FFFC 0x10000)).rd .sender Reg.SYS_CMT_LAST = 0xFF000021 ∧
    (run (.bcst (.sender 0) 4 0 1) (g (.sender 0) 1 0x7FFF8 bcast)).rd .sender (Reg.SYS_CORE_FCODE 0) = 0x80000003 ∧
    (run (.bcst (.sender 0) 4 0 1) (g (.sender 0) 1 2 bcast)).rd .sender (Reg.SYS_CORE_FCODE 0) = 0x80000004 ∧
    Ready .tile bcast ∧ faultOf (.bcst .tile 4 0 1) bcast = 0x8000000A := by unfold Ready; decide +kernel

/-- A MSG descriptor of one word at the end of the data memory of both parts; g1 its address, g2 the destination. -/
def msg : State :=
  g (.sender 0) 1 0x7FFF0 (g .tile 1 0xFFF0 ((net.dmemWrs .sender 0x7FFF0 [0x40010009, 0, 0, 5]).dmemWrs .tile 0xFFF0
    [0x40010009, 0, 0, 5]))

/-- Transmit command queue 0 of both parts holds n commands. -/
def txq (n : Nat) (s : State) : State :=
  (s.upd .sender fun c => { c with txq := c.txq.set 0 (List.replicate n ⟨[0x40010009, 0, 0, 5], 0⟩) }).upd .tile
    fun c => { c with txq := [List.replicate n ⟨[0x40010009, 0, 0, 5], 0⟩] }

theorem witness_MessagesAndTransfers : Ready .tile msg ∧ Ready (.sender 0) msg ∧
    descOk (msg.dmemRds .tile 0xFFF0 4) = true ∧ descMsg (msg.dmemRds .tile 0xFFF0 4) = true ∧
    msg.dstOkS (msg.dmemRds .sender 0x7FFF0 4) 7 = true ∧ msg.dstOkS (msg.dmemRds .sender 0x7FFF0 4) 8 = false ∧
    msg.txActive .tile 0 = true ∧ 0xFFF0 + 4 * (3 + 1) ≤ dmemSize .tile ∧
    out4 (.tsnd .tile 4 1 0) msg = 0 ∧ ((run (.tsnd .tile 4 1 0) msg).tile.txq.getD 0 []).length = 1 ∧
    out4 (.tsnd .tile 4 1 2) (g .tile 2 3 msg) = 2 ∧ out4 (.tsnd .tile 4 1 0) (txq 7 msg) = 0 ∧
    out4 (.tsnd .tile 4 1 0) (txq 8 msg) = 1 ∧
    out4 (.tsnd .tile 4 1 0) (msg.wr .tile (Reg.LNK_STAT 0) 0) = 3 := by unfold Ready; decide +kernel

theorem witness_MessagesAndTransfers_send :
    (run (.tsnd (.sender 0) 4 1 2) (g (.sender 0) 2 8 msg)).gpr (.sender 0) 4 = 2 ∧
    (run (.tsnd (.sender 0) 4 1 2) (g (.sender 0) 2 0x10000 msg)).gpr (.sender 0) 4 = 3 ∧
    (run (.tsnd (.sender 0) 4 1 2) (g (.sender 0) 2 7 (txq 16 msg))).gpr (.sender 0) 4 = 1 ∧
    (txq 2 net).alive .sender = true ∧ (txq 2 net).safe .sender = false ∧ (txq 2 net).txActive .sender 0 = true ∧
    0 < (txq 2 net).sender.txq.length ∧ ((run (.tsndCommandSend (.chain 0)) (txq 2 net)).sender.txq.getD 0 []).length = 1 ∧
    (run (.tsndCommandSend (.chain 0)) (txq 2 net)).out.length = 1 ∧
    portToward ((txq 2 net).dstLetter 0) = 0 ∧ ((run (.tsndCommandSend .u) (txq 2 net)).tile.txq.getD 0 []).length = 1 ∧
    (run (.tsndCommandSend .u) (txq 2 net)).til.telSeq = 1 := by decide +kernel

/-- Messages wait for TRCV. -/
def rxq (l : List (List Word)) (s : State) : State := s.upd .tile fun c => { c with rxq := l }

theorem witness_MessagesAndTransfers_trcv : Ready .tile mem ∧ out4 (.trcv .tile 4 1) mem = 0 ∧
    out4 (.trcv .tile 4 1) (rxq [[9]] mem) = 9 ∧ (run (.trcv .tile 4 1) (rxq [[9]] mem)).dmemRd .tile 0xFFFC = 9 ∧
    (run (.trcv .tile 4 1) (rxq [[9], [8]] mem)).tile.rxq = [[8]] ∧
    faultOf (.trcv .tile 4 1) (rxq [[9, 8]] mem) = 0x80000003 ∧ faultOf (.trcv .tile 4 2) mem = 0x80000003 := by
  unfold Ready; decide +kernel

/-- An XFER descriptor at address 0 of the tile: one word from 0 to 12. -/
def moving : State := up.dmemWrs .tile 0 [0, 12, 1]

/-- The tile's transfer engine runs a job. -/
def xfers (j : XferJob) (s : State) : State := s.updCore .tile 0 fun k => { k with xfer := some j }

theorem witness_MessagesAndTransfers_xfer : Ready .tile moving ∧ xferOf .tile 0 12 1 = some ⟨0, 12, 0, 0, 1⟩ ∧
    xferOf .tile 0 12 0 = none ∧ out4 (.xfer .tile 4 0) (g .tile 4 7 moving) = 0 ∧
    (run (.xfer .tile 4 0) moving).rd .tile (Reg.SYS_XFER_STAT 0) = 0x80000001 ∧
    out4 (.xfer .tile 4 0) (xfers ⟨0, 12, 0, 0, 1⟩ moving) = 1 ∧ out4 (.xfer .tile 4 0) (moving.dmemWr .tile 8 0) = 2 ∧
    (run (.xferDone .tile none) (xfers ⟨8, 0xFFFC, 0, 0, 1⟩ moving)).dmemRd .tile 0xFFFC = 1 ∧
    (run (.xferDone .tile none) (xfers ⟨4, 0, 1, 0, 1⟩ moving)).rd .tile (Reg.SYS_XFER_STAT 0) = 0x41000001 ∧
    folioMapped .tile 4 = false ∧
    (run (.xferDone .tile (some 0)) (xfers ⟨0, 0, 3, 0, 2⟩ moving)).rd .tile (Reg.SYS_XFER_STAT 0) = 0x43000002 ∧
    (run (.xferDone .tile (some 0)) (xfers ⟨0, 0, 3, 0, 2⟩ moving)).pendBit .tile (Ev.XFER_ERR .tile 0) = true := by
  unfold Ready; decide +kernel

/-! ### The host interface and register writes -/

/-- A host is attached and a core of the sender is halted. -/
def hosted : State := halted .sender 0 (host up)

theorem witness_MailboxAndDoorbell : (host up).hosted = true ∧ (64 : BitVec 7).toNat ≤ 64 ∧
    bit (host up).host.mbxIn 31 = false ∧
    (let s := run (.hostDoorbell 64) (host up)
     s.host.mbxIn = 0x80000040 ∧ s.pendBit .sender Ev.MBX_IN = true ∧ s.msixMasked 1 = true ∧
     (run (.sysMbxInAck) s).host.mbxIn = 0x40 ∧ (run (.sysMbxInAck) s).pendBit .sender Ev.MBX_IN = false ∧
     bit (SMap.get (fun _ => 0) (run .sysMbxInAck s).host.pba 0) 1 = true ∧
     (run (.sysMbxInAck) (run (.msixUnmask 1) s)).out = [.msix 1] ∧
     bit (run (.hostDoorbell 1) s).host.mbxIn 30 = true) ∧
    (run (.hostDoorbell 65) (host up)).host.mbxIn = 0x40000041 ∧ idle .sysMbxInAck (host up) = true ∧
    (let s := run (.sysMbxOutSend 1) (host up)
     s.rd .sender Reg.SYS_MBX_OUT_CTRL = 0x80000001 ∧ bit ((run .hostMbxOutAck s).rd .sender Reg.SYS_MBX_OUT_CTRL) 31 = false ∧
     (run .hostMbxOutAck s).pendBit .sender Ev.MBX_OUT_ACK = true) := by decide +kernel

/-- The halted core has ADDI g4, g0, −1 at its PC. -/
def stepped : State :=
  hosted.updCore .sender 0 fun k => { k with imem := Mem.writeWord zeroByte k.imem 0 0x0480FFFF }

theorem witness_HostDebug : hosted.hosted = true ∧ 3 < hosted.sender.cores.length ∧
    (hosted.core .sender 0).halted = true ∧ (hosted.core .sender 3).halted = false ∧
    ((run (.hostCoreHalt 3) hosted).core .sender 3).haltReq = true ∧
    ((run (.hostCoreResume 0) hosted).core .sender 0).halted = false ∧
    (run (.hostCorePcWrite 0 8) hosted).pc (.sender 0) = 8 ∧ idle (.hostCorePcWrite 3 8) hosted = true ∧
    stepped.fetched (.sender 0) = wordI 0x01 4 0 0xFFFF ∧ (stepped.core .sender 0).stall = .none ∧
    (run (.hostCoreStep 0) stepped).gpr (.sender 0) 4 = 0xFFFFFFFF ∧
    ((run (.hostCoreStep 0) stepped).core .sender 0).cause = 3 ∧
    ((run (.hostCoreStep 0) stepped).core .sender 0).halted = true := by decide +kernel

/-- The debug window at an address with a datum. -/
def dbg (a v : Word) : State := hosted.updHost fun h => { h with dbgAddr := a, dbgData := v }

theorem witness_HostDebug_window : (dbg 0 7).dbgCore = 0 ∧
    (run (.dbgReadReg 4) (g (.sender 0) 4 9 (dbg 0 7))).host.dbgData = 9 ∧
    (run (.dbgWriteReg 31) (dbg 0 7)).gpr (.sender 0) 31 = 7 ∧ (run .dbgStw (dbg 0x7FFFC 7)).dmemRd .sender 0x7FFFC = 7 ∧
    (run .dbgLdw (dbg 0x7FF7C 7)).host.dbgData = 0 ∧ (run .dbgLdw (dbg 0x7FF7C 7)).host.dbgStat = 1 ∧
    folioMapped .sender 0x92000 = true ∧ ((run .dbgFrd (dbg 0x92000 7)).core .sender 0).dbgFrd = some 0x92000 ∧
    (run (.frdReturn (.sender 0)) (run .dbgFrd (dbg 0x92000 7))).host.dbgStat = 1 ∧
    ((run .dbgFwr (dbg 0x92000 7)).core .sender 0).posted = [(0x92000, 7)] ∧
    (run .dbgLdw (dbg 0x80000 7)).host.dbgStat = 0x303 ∧ (run .dbgStw (dbg 0x7FFFD 7)).host.dbgStat = 0x403 ∧
    folioMapped .sender 4 = false ∧ (run .dbgFrd (dbg 4 7)).host.dbgStat = 0x503 ∧
    folioMapped .sender 0x92001 = true ∧ (run .dbgFwr (dbg 0x92001 7)).host.dbgStat = 0x603 ∧
    (run .dbgLdw (host up)).host.dbgStat = 2 := by decide +kernel

theorem witness_WindowsAndWrites : (run (.hostImemWrite 0 0x1FFFC 9) hosted).fetched (.sender 0) = 0 ∧
    Mem.readWord zeroByte ((run (.hostImemWrite 0 0x1FFFC 9) hosted).core .sender 0).imem 0x1FFFC = 9 ∧
    (run (.hostImemWrite 3 0 9) hosted).pendBit .sender Ev.HOST_DENIED = true ∧
    4 ≤ (trained hosted).installed ∧ (run (.hostFrameWindow true 4 0xAABBCCDD) (trained hosted)).fmWord 4 = 0xAABBCCDD ∧
    (run (.hostFrameWindow false 4 0) (run (.hostFrameWindow true 4 0xAABBCCDD) (trained hosted))).out = [.hostRead 0xAABBCCDD false] ∧
    hosted.installed = 0 ∧ (run (.hostFrameWindow true 0 1) hosted).pendBit .sender Ev.HOST_DENIED = true ∧
    (run (.hostFrameWindow false 0 1) hosted).out = [.hostRead 0xFFFFFFFF false] ∧
    (run (.msixUnmask 63) hosted).msixMasked 63 = false := by decide +kernel

theorem witness_WindowsAndWrites_folio : up.alive .tile = true ∧ folioMapped .tile 0x50030 = true ∧
    folioMapped .tile 0x59010 = true ∧
    (run (.registerWrite (.folio .tile 0x50030) 5) up).rd .tile 0x50030 = 5 ∧
    (run (.registerWrite (.folio .tile 0x59010) 5) up).rd .tile 0x59010 = 5 ∧
    idle (.registerWrite (.folio .tile 0x51010) 5) up = true ∧ idle (.registerWrite (.folio .tile 0x50010) 5) up = true ∧
    idle (.registerWrite (.folio .tile 0x50031) 5) up = true ∧ idle (.registerWrite (.folio .tile 4) 5) up = true ∧
    (run (.registerWrite (.bar0 4) 0xFF) (host up)).host.dmaSel = 0x1F := by decide +kernel

/-! ### Remote access -/

/-- A CMD packet from sender A to the tile at position 3. -/
def cmd (kind tag : Nat) (body : List Word) : Packet :=
  mkPacket 3 3 0 0x7E (BitVec.ofNat 32 (kind * 2 ^ 28 + tag * 2 ^ 8)) body

/-- A WRITE of `TIME_STEP_THR` with a sequence number. -/
def write (tag seq : Nat) : Packet := cmd 1 tag [0x50030, BitVec.ofNat 32 (0x10000 + seq), 77]

/-- Tag 7 is open with two writes, the last numbered 5. -/
def open7 (s : State) : State :=
  ((s.wr .tile Reg.SYS_RW_STAT 0x40000007).wr .tile Reg.SYS_RW_COUNT 2).updTil fun t => { t with rwSeq := 5 }

theorem witness_RemoteAccess_write : TileTakes 0 (write 7 5) held ∧ Pkt.is (write 7 5) 3 1 = true ∧
    held.fromHolder .a = true ∧ (lentB net).fromHolder .a = false ∧ held.safe .tile = false ∧ (write 7 5).length = 6 ∧
    calmReg 0x50030 = true ∧ Pkt.tag (write 7 5) = 7 ∧
    idle (.cmdWrite .u (write 7 5)) (lentB net) = true ∧
    (run (.cmdWrite .u (write 0 5)) held).rd .tile 0x50030 = 77 ∧
    (run (.cmdWrite .u (write 7 5)) held).rd .tile Reg.SYS_RW_STAT = 0x40000007 ∧
    (run (.cmdWrite .u (write 7 5)) held).rd .tile Reg.SYS_RW_COUNT = 1 ∧
    (run (.cmdWrite .u (write 7 6)) (open7 held)).rd .tile Reg.SYS_RW_COUNT = 3 ∧
    (run (.cmdWrite .u (write 7 7)) (open7 held)).fldOf .tile Reg.SYS_RW_STAT 31 30 = 3 ∧
    (run (.cmdWrite .u (write 7 7)) (open7 held)).pendBit .tile Ev.RW_GAP = true ∧
    (run (.cmdWrite .u (write 8 9)) (open7 held)).rd .tile Reg.SYS_RW_STAT = 0x40000008 ∧
    (run (.cmdWrite .u (write 7 6)) ((open7 held).wr .tile Reg.SYS_RW_STAT 0x80000007)).fldOf .tile Reg.SYS_RW_STAT 31 30 =
      3 := by unfold TileTakes; decide +kernel

/-- Tag 7 is closed, and the tile's schedule runs. -/
def closed7 (s : State) : State :=
  ((open7 s).wr .tile Reg.SYS_RW_STAT 0x80000007).wr .tile Reg.TIME_FRM_CTRL 0x80000001
    |>.wr .tile Reg.TIME_FRM_PER 0x800000 |>.upd .tile fun c => { c with nextLatch := 2 }

/-- A swap of SIG under a tag, for a frame. -/
def swap (tag : Nat) (f : Word) : Packet := cmd 5 tag [8, f]

theorem witness_RemoteAccess_swap : TileTakes 0 (swap 7 4) held ∧ Pkt.is (swap 7 4) 3 5 = true ∧
    (run (.cmdSwap .u (swap 8 4)) (closed7 held)).rd .tile Reg.SYS_CMT_LAST = 0xFF000012 ∧
    (run (.cmdSwap .u (swap 7 4)) ((closed7 held).wrBit .tile Reg.SYS_RW_STAT 29 true)).rd .tile Reg.SYS_CMT_LAST =
      0xFF000013 ∧
    (run (.cmdSwap .u (swap 7 4)) (open7 held)).rd .tile Reg.SYS_CMT_LAST = 0xFF000010 ∧
    (run (.cmdSwap .u (swap 7 4)) (locked (closed7 held))).rd .tile Reg.SYS_CMT_LAST = 0xFF000003 ∧
    (closed7 held).swapLate 2 = true ∧ (closed7 held).swapLate 4 = false ∧
    (run (.cmdSwap .u (swap 7 2)) (closed7 held)).rd .tile Reg.SYS_CMT_LAST = 0xFF000011 ∧
    (run (.cmdSwap .u (swap 7 2)) (closed7 held)).pendBit .tile Ev.SWAP_REFUSED = true ∧
    (closed7 held).validate .tile 8 4 0 = none ∧
    (run (.cmdSwap .u (swap 7 4)) (closed7 held)).rd .tile Reg.SYS_CMT_STAT = 0xC0000007 ∧
    (run (.cmdSwap .u (swap 7 4)) (closed7 held)).rd .tile Reg.SYS_RW_STAT = 0 := by unfold TileTakes; decide +kernel

/-- CLOSE of tag 7 with a count, READ of one word, MSG of one word. -/
def close (n : Word) : Packet := cmd 3 7 [n, 0]
def read : Packet := cmd 2 7 [0x50030, 0x10000]
def message : Packet := cmd 4 7 [0, 0x10000, 0xABCD]

theorem witness_RemoteAccess_read : TileTakes 0 (close 2) held ∧ TileTakes 0 read held ∧ TileTakes 0 message held ∧
    Pkt.is (close 2) 3 3 = true ∧ Pkt.is read 3 2 = true ∧ Pkt.is message 3 4 = true ∧
    (Pkt.w read 3).toNat / 65536 = 1 ∧
    (run (.cmdClose .u (close 2)) (open7 held)).rd .tile Reg.SYS_RW_STAT = 0x80000007 ∧
    (run (.cmdClose .u (close 3)) (open7 held)).rd .tile Reg.SYS_RW_STAT = 0xC0000007 ∧
    (run (.cmdClose .u (close 2)) held).rd .tile Reg.SYS_RW_STAT = 0 ∧
    ((run (.cmdRead .u read) held).port .tile 0).own =
      [mkPacket 4 0x7E 0 3 0x50000700 [0x00010000, 0x3E8]] ∧
    (run (.cmdMsg .u message) held).tile.rxq = [[0x40010007, 0x7E, 0xABCD]] ∧
    (run (.cmdMsg .u message) (rxq (List.replicate 15 [0]) held)).tile.rxq.length = 16 ∧
    (run (.cmdMsg .u message) (rxq (List.replicate 16 [0]) held)).rd .tile Reg.SYS_TRCV_DROP = 1 := by
  unfold TileTakes; decide +kernel

/-- A TEL packet of the tile at position 3 with a SEQ. -/
def tel (kind seq : Nat) (ws : List Word) : Packet :=
  mkPacket 4 0x7E 0 3 (BitVec.ofNat 32 (kind * 2 ^ 28 + 7 * 2 ^ 8)) (BitVec.ofNat 32 (seq * 2 ^ 24 + ws.length * 2 ^ 16) :: ws)

theorem witness_TileAnswersAndLogs : SenderTakes 0 (tel 4 1 [9]) net ∧ SenderTakes 0 (tel 6 1 [0, 0, 0xFF000011, 0]) net ∧
    SenderTakes 0 (tel 7 1 [1, 2, 3, 4]) net ∧ SenderTakes 0 (tel 5 1 [9]) net ∧
    (run (.telMsg 0 (tel 4 1 [9])) net).sender.rxq = [[0x40010007, 3, 9]] ∧
    (run (.telReadData 0 (tel 5 1 [9])) net).pendBit .sender Ev.TRCV_READY = true ∧
    (let s := net.updSnd fun t => { t with telSeq := [(3, 255)] }
     AMap.find s.snd.telSeq 3 = some 255 ∧ (run (.telMsg 0 (tel 4 1 [9])) s).pendBit .sender Ev.TEL_SEQ_GAP = true ∧
     (run (.telMsg 0 (tel 4 0 [9])) s).pendBit .sender Ev.TEL_SEQ_GAP = false) ∧
    (run (.telReport 0 (tel 6 1 [0, 0, 0xFF000011, 0])) net).pendBit .sender Ev.SWAP_REPORT = true ∧
    (run (.telReport 0 (tel 6 1 [0, 0, 0, 0])) (net.upd .sender fun c => { c with rxq := List.replicate 256 [] })).rd .sender
      Reg.SYS_TRCV_DROP = 1 ∧
    (run (.telEventRecords 0 (tel 7 1 [1, 2, 3, 4])) net).snd.tlog.length = 1 := by unfold SenderTakes; decide +kernel

/-- One record in each log. -/
def logged : State :=
  ((net.upd .sender fun c => { c with log := [⟨1, 0, 0, 0, 0⟩] }).upd .tile fun c =>
    { c with log := List.replicate 17 ⟨1, 0, 0, 0, 0⟩ }).updSnd fun t => { t with tlog := [(⟨1, 0, 0, 0, 0⟩, 0)] }

theorem witness_TileAnswersAndLogs_logs : (run .evtLogPop logged).sender.log = [] ∧
    (run .evtTlogPop logged).snd.tlog = [] ∧ logged.telDue = true ∧ logged.txActive .tile (portToward logged.followed) = true ∧
    (run .telBatchSend logged).tile.log.length = 1 ∧
    (((run .telBatchSend logged).port .tile 0).own.getD 0 []).length = 68 := by decide +kernel

/-! ### Events, the safe state and time -/

/-- ATTEND slot 15 of the tile is due at wall time 100. -/
def attends : State := (at' .tile 100 up).upd .tile fun c => { c with att := [(15, ⟨5, 100⟩)] }

theorem witness_RaisedEventIsPending : up.tapTakes .tile = false ∧ evLevel .tile 0x430 = false ∧
    (up.raise .tile 0x430 0).pendBit .tile 0x430 = true ∧
    (run (.evtRouteWrite .tile 0x43F 0xFFFFFFFF) up).rd .tile (Reg.EVT_ROUTE 0x43F) = 0xC0000001 ∧
    (run (.evtRouteWrite .sender Ev.LOG_OVF 0xFFFFFFFF) up).rd .sender (Reg.EVT_ROUTE Ev.LOG_OVF) = 0xA03F000F := by
  decide +kernel

theorem witness_SafeStateAndFaultNodes : AMap.find attends.tile.att 15 = some ⟨5, 100⟩ ∧
    (100 - attends.wall .tile).toInt ≤ 0 ∧ (run (.fltEscalated .tile 15) attends).pendBit .tile (Ev.FLT_ESCALATED .tile) = true ∧
    idle (.fltEscalated .tile 15) (at' .tile 99 attends) = true ∧ up.safe .tile = false ∧
    (run (.fltSafeCmd .tile 0x5AFE) up).rd .tile Reg.FLT_STAT = 0xC0000000 ∧
    ((run (.fltSafeCmd .tile 0x5AFE) up).core .tile 0).cause = 2 ∧
    (run (.fltSafeCmd .sender 0x5AFE) up).pendBit .sender (Ev.SAFE_STATE .sender) = true ∧
    idle (.fltSafeCmd .tile 0x5AFF) up = true ∧ idle (.collCheck .tile false true) up = true ∧
    (run (.collCheck .tile true true) up).safe .tile = true ∧ (run (.collCheck .tile true true) up).tile.acc.valid = true ∧
    (run (.collCheck .sender true false) up).sender.acc.valid = false ∧
    (run (.fltClrFirst .tile) (run (.collCheck .tile true true) up)).tile.acc = Accession.empty := by decide +kernel

theorem witness_SafeStateAndFaultNodes_nodes :
    (run (.nodeBlock .tile 0) up).pendBit .tile (Ev.NODE_BLOCK .tile) = true ∧
    (run (.nodeBlock .sender 17) up).pendBit .sender (Ev.NODE_BLOCK .sender) = true ∧
    (run (.nodeBlock .sender 16) up).pipeFailed 16 = true ∧
    (run (.nodeRegion .tile 3) up).safe .tile = true ∧ (run .fabricChip up).safe .sender = true ∧
    (run (.fabricErr 3 8 false) up).pendBit .sender (Ev.FABRIC_ERR 3) = true ∧
    bit ((run (.fabricErr 3 8 false) up).rd .sender (Reg.LNK_CTRL 15)) 31 = false := by decide +kernel

/-- The sender counts 2^64 + 5 ns and half a nanosecond. -/
def late : State := up.upd .sender fun c => { c with count := 2 ^ 96 - 2 ^ 64 * 2 ^ 32 + 5 * 2 ^ 32 + 2 ^ 31 }

theorem witness_TimeAndPhaseInputs : late.alive .sender = true ∧
    (run (.timeNowRead .sender) late).rd .sender Reg.TIME_NOW_FRAC = 0x80000000 ∧
    (run (.timeNowRead .sender) (up.upd .sender fun c => { c with count := 2 ^ 64 })).rd .sender Reg.TIME_NOW_HI = 1 ∧
    (let s := (up.wrBit .sender Reg.TIME_CTRL 12 true).updSnd fun t => { t with setHi := 3 }
     s.stepAllowed = true ∧ (run (.timeSet 7) s).ptp = 3 * 2 ^ 32 + 7) ∧
    (up.wrBit .sender Reg.TIME_CTRL 12 false).stepAllowed = false ∧
    (run (.timeSet 7) (up.wrBit .sender Reg.TIME_CTRL 12 false)).pendBit .sender Ev.TIME_STEP_BLOCKED = true ∧
    (let s := up.updSnd fun t => { t with txStamps := [[], [], [], [(1, 2), (3, 4)]] }
     (run (.timeTxqPop 3) s).snd.txStamps.getD 3 [] = [(3, 4)] ∧ idle (.timeTxqPop 0) s = true ∧
     (run (.timeTxqPop 3) s).pendBit .sender (Ev.TXQ_READY 3) = true) := by decide +kernel

/-- PPS is the source, an edge is expected at 100 with a window of 5. -/
def pps (now : Nat) : State :=
  (((at' .sender now up).wrFld .sender Reg.TIME_CTRL 1 0 1).wr .sender Reg.TIME_PPS_EXP 100).wr .sender Reg.TIME_PPS_WIN 5

theorem witness_TimeAndPhaseInputs_pps : (pps 105).fldOf .sender Reg.TIME_CTRL 1 0 = 1 ∧
    (run .ppsEdge (pps 105)).rd .sender Reg.TIME_PPS_EXP = 1000000100 ∧
    (run .ppsEdge (pps 105)).rd .sender Reg.TIME_PPS_CAP = 105 ∧
    (run .ppsEdge (pps 106)).pendBit .sender Ev.PPS_OUTLIER = true ∧
    (run .ppsEdge ((pps 105).wrFld .sender Reg.TIME_CTRL 1 0 0)).rd .sender Reg.TIME_PPS_EXP = 100 ∧
    (run .ppsMissing (pps 105)).pendBit .sender Ev.PPS_MISSING = true ∧ idle .ppsMissing (pps 104) = true ∧
    bit ((up.wr .sender Reg.TIME_STAT 0x10).rd .sender Reg.TIME_STAT) 4 = true ∧
    (run .refLost (up.wr .sender Reg.TIME_STAT 0x10)).pendBit .sender Ev.REF_LOST = true ∧
    bit ((run .refResume up).rd .sender Reg.TIME_STAT) 4 = true := by decide +kernel

/-- Phase input 3 in a state, enabled, an edge seen at wall time 0. -/
def phase (now st : Nat) : State :=
  (((at' .sender now up).wrBit .sender (Reg.TIME_PH_CFG 3) 31 true).wr .sender (Reg.TIME_PH_STAT 3)
    (BitVec.ofNat 32 st)).updSnd fun t => { t with phSeen := [false, false, false, true] }

/-- A SYNC on the cross-link with two slots, for frame 0. -/
def xsync : Packet := mkPacket 2 0x7E 0 0x7E 0x20000000 [0, 0x80000000, 500, 9, 700, 9]

/-- Chain port 0 is the cross-link and the time source. -/
def crossed : State :=
  ((net.wr .sender (Reg.CHN_CTRL 0) 0x80000000).wrFld .sender Reg.TIME_CTRL 1 0 2)

theorem witness_TimeAndPhaseInputs_phase : 3 < (phase 0 3).snd.phSeen.length ∧ (phase 100 3).tooEarly 3 100 = true ∧
    idle (.phaseEdge 3) (phase 100 3) = true ∧ (phase 5000000 3).tooEarly 3 5000000 = false ∧
    (phase 5000000 3).schedOn .sender = false ∧
    (run (.phaseEdge 3) (phase 5000000 3)).rd .sender (Reg.TIME_PH_CAP 3) = 5000000 ∧
    (run (.phaseEdge 3) (phase 5000000 3)).fldOf .sender (Reg.TIME_PH_STAT 3) 1 0 = 1 ∧
    (run (.phaseEdge 3) ((phase 5000000 3).wrBit .sender (Reg.TIME_PH_CFG 3) 31 false)).rd .sender (Reg.TIME_PH_CAP 3) =
      5000000 ∧
    up.snd.winDue = [] ∧ idle (.phaseLost 3) (phase 0 1) = true ∧
    (run (.phaseLost 3) (later 1000000000 (phase 0 1))).fldOf .sender (Reg.TIME_PH_STAT 3) 1 0 = 3 ∧
    (run (.phaseLost 3) (later 1000000000 (phase 0 2))).pendBit .sender (Ev.PHASE_STATE 3) = true ∧
    idle (.phaseLost 3) (later 1000000000 (phase 0 0)) = true ∧
    SenderTakes 0 xsync crossed ∧ Pkt.type xsync = 2 ∧
    (run (.crossLinkSync 0 xsync) crossed).rd .sender (Reg.TIME_SLOT_CUR 1) = 700 ∧
    idle (.crossLinkSync 0 xsync) (crossed.wrFld .sender Reg.TIME_CTRL 1 0 1) = true := by
  unfold SenderTakes; decide +kernel

/-- The servo in a state, with gain 1 for both terms, source 0. -/
def servo (st : Nat) (run : Nat) : State :=
  ((((up.wrFld .sender Reg.TIME_CTRL 1 0 0).wr .sender Reg.TIME_KP 0x100).wr .sender Reg.TIME_KI 0x100).wrFld .sender Reg.TIME_STAT 2 0 st).updSnd fun t =>
    { t with lockRun := run }

theorem witness_Servo : (servo 0 0).fldOf .sender Reg.TIME_CTRL 1 0 = 0 ∧
    (run (.timeSrvOfsWrite 10) (servo 0 0)).rd .sender Reg.TIME_RATE = -20 ∧
    (run (.timeSrvOfsWrite 10) (servo 0 0)).fldOf .sender Reg.TIME_STAT 2 0 = 1 ∧
    (run (.timeSrvOfsWrite 10) (servo 3 0)).fldOf .sender Reg.TIME_STAT 2 0 = 1 ∧
    10 ≤ ((servo 1 15).rd .sender Reg.TIME_LOCK_THR).toNat ∧
    (run (.timeSrvOfsWrite 10) (servo 1 15)).fldOf .sender Reg.TIME_STAT 2 0 = 2 ∧
    (run (.timeSrvOfsWrite 10) (servo 1 14)).fldOf .sender Reg.TIME_STAT 2 0 = 1 ∧
    (run (.timeSrvOfsWrite 0x7FFFFFFF) (servo 2 0)).fldOf .sender Reg.TIME_STAT 2 0 = 1 ∧
    (run (.timeSrvOfsWrite 0x80000000) ((servo 0 0).wrBit .sender Reg.TIME_CTRL 12 true)).sender.count = 2 ^ 31 * 2 ^ 32 ∧
    (run (.timeSrvOfsWrite 0x80000000) ((servo 0 0).wrBit .sender Reg.TIME_CTRL 12 false)).pendBit .sender
      Ev.TIME_STEP_BLOCKED = true ∧
    idle (.timeSrvOfsWrite 10) ((servo 0 0).wrFld .sender Reg.TIME_CTRL 1 0 1) = true := by decide +kernel

theorem witness_Servo_holdover : (run (.timeSrcChange 3) (servo 1 0)).fldOf .sender Reg.TIME_STAT 2 0 = 3 ∧
    (run (.timeSrcChange 1) (servo 2 0)).pendBit .sender Ev.TIME_STATE = true ∧
    (run (.timeSrcChange 1) (servo 0 0)).fldOf .sender Reg.TIME_STAT 2 0 = 0 ∧
    (let s := ((servo 2 0).wr .sender Reg.TIME_INTEG 5).wr .sender Reg.TIME_HOLD_TO 1
     (run .servoHoldover (later 1000000 s)).rd .sender Reg.TIME_RATE = -5 ∧ idle .servoHoldover (later 999999 s) = true) ∧
    idle .servoHoldover (later 1000000000 (servo 0 0)) = true := by decide +kernel

/-- A TIME packet from sender A with a send time. -/
def timePkt (w : Word) (k : Word) : Packet := mkPacket 5 0x7F 0 0x7E 0 [w, 7, k]

theorem witness_TimeOnTheChain : (run .timeTx net).out.length = 1 ∧ TileTakes 0 (timePkt 0 0) net ∧
    Pkt.is (timePkt 0 0) 5 0 = true ∧ net.followed = .a ∧
    (run (.timeRxTile .u (timePkt 0 0)) net).rd .tile Reg.TIME_RATE = 7 ∧
    (run (.timeRxTile .u (timePkt 0 0)) net).til.timeTaken = true ∧
    (run (.timeRxTile .u (timePkt 1001 0)) net).pendBit .tile Ev.TIME_STEP = true ∧
    (run (.timeRxTile .u (timePkt 1000 0)) net).pendBit .tile Ev.TIME_STEP = false ∧
    (run (.timeRxTile .u (timePkt 0 0x80000000)) net).til.timeTaken = false ∧
    bit (net.rd .sender Reg.LNK_SSC) 31 = false ∧
    (let s := ((net.updTil fun t => { t with timeTaken := true }).wr .tile Reg.TIME_TXINT 1000)
     (run (.timeSrcLost) (later 2000000 s)).pendBit .tile Ev.TIME_SRC_LOST = true ∧ idle .timeSrcLost (later 1999999 s) = true) ∧
    (let s := (crossed.updSnd fun t => { t with linkAt := some 0 }).wr .sender Reg.TIME_TXINT 1000
     (run (.timeSrcLost) (later 4000000 s)).pendBit .sender Ev.TIME_SRC_LOST = true ∧ idle .timeSrcLost (later 3999999 s) = true) ∧
    idle .timeSrcLost net = true := by unfold TileTakes; decide +kernel

theorem witness_TimeOnTheChain_sender : SenderTakes 0 (timePkt 0 0x80000000) crossed ∧
    (run (.timeRxSender 0 (timePkt 0 0x80000000)) (crossed.wr .sender Reg.TIME_STAT 0)).fldOf .sender Reg.TIME_STAT 2 0 = 1 ∧
    run (.timeRxSender 0 (timePkt 0 0xC0000000)) crossed = (crossed.updSnd fun t => { t with linkAt := some 0 }) ∧
    idle (.timeRxSender 0 (timePkt 0 0)) (crossed.wrFld .sender Reg.TIME_CTRL 1 0 1) = true := by unfold SenderTakes; decide +kernel

/-- A PROBE and an ECHO, and a tile whose probe 9 left at 100. -/
def probe9 : Packet := mkPacket 5 0x7F 0 0x7E 0x10000000 [9]
def echo9 : Packet := mkPacket 5 0x7F 0 0x7E 0x20000000 [9, 20]
def probed : State := net.updPort .tile 0 fun q => { q with probe := some (9, 100) }

theorem witness_TimeOnTheChain_probe : TileTakes 0 probe9 net ∧ TileTakes 0 echo9 net ∧ Pkt.is probe9 5 1 = true ∧
    Pkt.is echo9 5 2 = true ∧
    (let s := net.wrFld .tile (Reg.LNK_STAT 0) 31 29 4
     s.fldOf .tile (Reg.LNK_STAT 0) 31 29 = 4 ∧ (run (.probeSend .u 9 100) s).out.length = 1 ∧
     ((run (.probeSend .u 9 100) s).port .tile 0).probe = some (9, 100) ∧ TileTakes 0 probe9 s ∧
     (run (.probe .u probe9 20) s).out = [.packet .u (mkPacket 5 0x7F 0 3 0x20000000 [9, 20])]) ∧
    ((run (.echo .u echo9 140) probed).port .tile 0).hops = [20] ∧ idle (.echo .u echo9 140) net = true := by
  unfold TileTakes; decide +kernel

theorem witness_FrameScheduleAndBase : (framed 0).schedOn .tile = true ∧
    (run (.frameOrigin .tile) (framed 0x2000000)).rd .tile Reg.TIME_FRM_NUM = 2 ∧
    (run (.frameOrigin .sender) (framed 0x2000000)).pendBit .sender Ev.FRAME_ORIGIN = true ∧
    idle (.frameOrigin .tile) (framed 0) = true ∧
    (run .frameLatch (framed 0x2000000)).pendBit .sender Ev.FRAME_LATCH = true ∧
    (run .frameLatch (framed 0x2000000)).sender.nextLatch = 3 ∧ idle .frameLatch (framed 0) = true ∧
    (run .tileLatchPoint (framed 0x2000000)).tile.nextLatch = 3 ∧ idle .tileLatchPoint (framed 0) = true ∧
    (framed 0).baseOf .tile 3 = 0x1800000 := by decide +kernel

/-! ### Networks, frame memory and the rasters -/

/-- NET port 3 is up; ring 5 takes EtherType 0x88CC from it, with 16 buffers of 64 bytes at 64 KiB of frame memory. -/
def eth : State :=
  (((((ram up).wr .sender (Reg.NET_CTRL 3) 1).wr .sender (Reg.NET_STAT 3) 0xF3).wr .sender (Reg.FLOW_RF 31)
    0x880588CC).wr .sender (Reg.RING_CFG 5) 0x80000104).wr .sender (Reg.RING_BASE 5) 0x1000
    |>.wr .sender (Reg.RING_TAIL 5) 1

/-- A frame of n bytes to a group address, of an EtherType. -/
def frame (n : Nat) (hi lo : Byte) : List Byte :=
  [1, 0, 0, 0, 0, 0, 2, 0, 0, 0, 0, 1, hi, lo] ++ List.replicate (n - 14) 0

/-- Counter j of NET port 3 after a frame. -/
def cnt (j : Nat) (fr : List Byte) (fcs : Bool) : Word := (run (.netRxFrame 3 fr fcs 0) eth).rd .sender (Reg.NET_CNT 3 j)

theorem witness_NetReceiveAndTimeouts : eth.bitOf .sender (Reg.NET_CTRL 3) 0 = true ∧ eth.netUp 3 = true ∧
    (run (.netLink 3 15 true true false false true true) eth).rd .sender (Reg.NET_STAT 3) = 0x4F2 ∧
    (run (.netLink 3 15 true true false false true true) eth).rd .sender (Reg.NET_CNT 3 16) = 1 ∧
    (run (.netLink 3 15 true true false true false false) eth).out.contains (.netFill 3 true) = true ∧
    (run (.netLink 3 15 true true true false false false) eth).pendBit .sender (Ev.NET_RX_ERR 3) = true ∧
    idle (.netLink 0 15 true true true false false false) eth = true ∧ up.netUp 3 = false ∧
    cnt 17 (frame 59 0x88 0xCC) true = 1 ∧ cnt 18 (frame 59 0x88 0xCC) false = 1 ∧ cnt 16 (frame 60 0x88 0xCC) false = 1 ∧
    cnt 15 (frame 60 0x88 0x08) true = 1 ∧ eth.maxLen 3 = 0x2400 := by decide +kernel

theorem witness_NetReceiveAndTimeouts_ring : eth.flowMatch 3 (frame 60 0x88 0xCC) = none ∧
    (List.range 32).find? (fun e => eth.filterHit 3 (frame 60 0x88 0xCC) e) = some 31 ∧ eth.ringOn 5 = true ∧
    (run (.netRxFrame 3 (frame 60 0x88 0xCC) true 0) eth).rd .sender (Reg.RING_HEAD 5) = 1 ∧
    (run (.netRxFrame 3 (frame 60 0x88 0xCC) true 0) eth).pendBit .sender (Ev.RING_READY 5) = true ∧
    (run (.netRxFrame 3 (frame 60 0x88 0xCC) true 0) eth).fmByte 12 = 0x88 ∧
    (run (.netRxFrame 3 ((2 : Byte) :: (frame 60 0x88 0xCC).drop 1) true 0) eth).rd .sender (Reg.NET_CNT 3 24) = 1 ∧
    (run (.netRxFrame 3 (frame 60 0x88 0xCC) false 0) eth).fmByte 12 = 0x88 ∧
    (run (.netRxFrame 3 (frame 60 0x88 0xCC) false 0) eth).rd .sender (Reg.RING_HEAD 5) = 0 ∧
    (run (.rsFecCodeword 3 .corrected) eth).rd .sender (Reg.NET_CNT 3 22) = 1 ∧
    (run (.rsFecCodeword 3 .badBlock) eth).rd .sender (Reg.NET_CNT 3 21) = 1 ∧
    (run (.rsFecCodeword 3 .uncorrectable) eth).pendBit .sender (Ev.NET_RX_ERR 3) = true := by decide +kernel

/-- Flow 15 has an open frame whose merge timer began at wall time 0; both paths are live and last heard at 0. -/
def flow15 (now : Nat) : State :=
  ((at' .sender now (ram up)).wr .sender (Reg.FLOW_STAT 15) 0xC0000000).updFlow 15 fun f =>
    { f with frames := [⟨7, 2, [], [], false, false, some 0⟩] }

theorem witness_NetReceiveAndTimeouts_flow : up.snd.flows.length = 16 ∧ (flow15 20000000).mergeDue 15 ≠ none ∧
    (flow15 19999999).mergeDue 15 = none ∧ (run (.flowMergeTimeout 15) (flow15 20000000)).rd .sender (Reg.FLOW_LATEST_TS 15) = 7 ∧
    (run (.flowMergeTimeout 15) (flow15 20000000)).pendBit .sender (Ev.FLOW_FRAME 15) = true ∧
    idle (.flowMergeTimeout 15) (flow15 19999999) = true ∧ (flow15 10000000).live 15 true = true ∧
    (run (.flowPathTimeout 15 true) (flow15 10000000)).live 15 true = false ∧
    (run (.flowPathTimeout 15 true) (flow15 10000000)).live 15 false = true ∧
    idle (.flowPathTimeout 15 true) (flow15 9999999) = true := by decide +kernel

/-- TXR0 of port 3 has a frame of len bytes waiting. -/
def txr (len : Nat) : State :=
  (((eth.wr .sender (Reg.NET_TXR_CFG 3 0) 0x80000004).wr .sender (Reg.NET_TXR_TAIL 3 0) 1).wr .sender
    (Reg.NET_TXR_BASE 3 0) 0x100).fmPutWord 0x1004 (BitVec.ofNat 32 len)

theorem witness_NetTransmitAndSnapshots : (txr 20).txWaits 3 0 = true ∧ (txr 20).txWaits 3 1 = false ∧
    (run (.txFrameSent 3 false 0) (txr 20)).rd .sender (Reg.NET_TXR_HEAD 3 0) = 1 ∧
    (run (.txFrameSent 3 false 0) (txr 20)).out = [.frame 3 (List.replicate 60 0) false] ∧
    (run (.txFrameSent 3 true 0) (txr 20)).rd .sender (Reg.NET_CNT 3 47) = 1 ∧ (txr 20).maxLen 3 - 4 < 0x2400 ∧
    (run (.txFrameSent 3 false 0) (txr 0x2400)).rd .sender (Reg.NET_CNT 3 47) = 1 ∧
    (run (.txFrameSent 3 false 0) (txr 0x2400)).out = [] ∧ idle (.txFrameSent 3 false 0) eth = true ∧
    (run (.ringTailWrite 63 0xFFFFFFFF) up).rd .sender (Reg.RING_TAIL 63) = 0xFFF ∧
    (run (.netTxrTailWrite 3 1 0xFFFFFFFF) up).rd .sender (Reg.NET_TXR_TAIL 3 1) = 0xFFF ∧
    (run (.netSnap 3) (up.wr .sender (Reg.NET_CNT 3 63) 9)).rd .sender (Reg.NET_SNAPV 3 63) = 9 := by decide +kernel

/-- Channel 7 trains, its attempt number n; the others pass. -/
def trains (n : Nat) : State :=
  ((up.wr .sender Reg.DRC_CTRL 1).wr .sender Reg.DRC_STAT 0x7F00).wrFld .sender (Reg.DRC_CH_STAT 7) 27 24 n

/-- Sixteen passing taps from 240 on, and fifteen. -/
def eye16 : BitVec 256 := BitVec.ofNat 256 (2 ^ 256 - 2 ^ 240)
def eye15 : BitVec 256 := BitVec.ofNat 256 (2 ^ 255 - 2 ^ 240)

theorem witness_DramTraining : up.dramReady = false ∧ (ram up).dramReady = true ∧
    (run .drcEnable up).snd.dram.epoch = 1 ∧ (run .drcEnable (ram up)).rd .sender Reg.DRC_CTRL &&& 1 = 1 ∧
    (run .drcDisable ((ram up).wr .sender Reg.DRC_CTRL 3)).dramReady = false ∧ bit ((ram up).rd .sender Reg.DRC_CTRL) 0 = false ∧
    (run (.drcCfgWrite 0xFFFFFFFF) up).rd .sender Reg.DRC_CFG = 0x3137 ∧
    (run (.drcCfgWrite 1) (up.wr .sender Reg.DRC_CTRL 1)).pendBit .sender Ev.DRC_CFG_DENIED = true ∧
    eyeOf eye16 = some (240, 255, 247) ∧ eyeOf eye15 = none ∧ (trains 2).training 7 = true ∧
    (run (.drcTrainAttemptEnd 7 eye16 eye16 eye16 eye16) (trains 2)).dramReady = true ∧
    (run (.drcTrainAttemptEnd 7 eye16 eye16 eye16 eye15) (trains 1)).fldOf .sender (Reg.DRC_CH_STAT 7) 27 24 = 2 ∧
    (run (.drcTrainAttemptEnd 7 eye16 eye15 eye16 eye16) (trains 2)).pendBit .sender Ev.DRC_TRAIN_FAIL = true ∧
    idle (.drcTrainAttemptEnd 7 eye16 eye16 eye16 eye16) up = true := by decide +kernel

/-- Read-eye checks run, the centre of lane 0 of channel 7 lies 8 above its trained centre 10. -/
def tracks : State :=
  (((ram up).wr .sender Reg.DRC_CTRL 3).wr .sender (Reg.DRC_TRN_RD 7 0) 10).wr .sender (Reg.DRC_TRK 7) 18

theorem witness_DramTraining_track : idle (.drcTrack 7 0x1FF 0x1FF) (ram up) = true ∧
    (run (.drcTrack 7 0b111100000 0b000010000) tracks).rd .sender (Reg.DRC_TRK 7) = 19 ∧
    (run (.drcTrack 7 0b111100000 0b000010000) tracks).pendBit .sender (Ev.DRC_DRIFT 7) = true ∧
    (run (.drcTrack 7 0b000001111 0b000010000) tracks).rd .sender (Reg.DRC_TRK 7) = 17 := by decide +kernel

/-- A read of port 4 on channel 3 waits, of the unit that lies there. -/
def reading : State := run (.dramReadRequest 4 3 0 0) (ram up)

/-- Channel 7 has a page open in bank 31 and the refresh of bank 3 postponed. -/
def refreshes : State :=
  (ram up).updCh 7 fun c => { c with pages := [(31, 5)], postponed := [3] }

theorem witness_DramUpkeep : (ram up).snd.dram.chans.length = 8 ∧
    (run (.drcMr4Poll 7 5 1 false 3) (ram up)).fldOf .sender (Reg.DRC_CH_STAT 7) 10 8 = 5 ∧
    (run (.drcMr4Poll 7 5 1 true 3) (ram up)).pendBit .sender (Ev.DRC_DRAM_HOT 7) = true ∧
    idle (.drcMr4Poll 7 5 1 false 3) up = true ∧ (ram up).urgent3 7 = false ∧
    (run (.drcRefresh 7 31) refreshes).snd.dram.chans.getD 7 DramCh.reset = DramCh.reset ∧
    idle .drcBwWindow up = true ∧
    (let s := (at' .sender 1000000 up).updSnd fun t => { t with dram := { t.dram with moved := 1000 } }
     (run .drcBwWindow s).rd .sender Reg.DRC_BW_LAST = 64 ∧ (run .drcBwWindow s).snd.dram.moved = 0) ∧
    (run .drcTestFill ((ram up).wr .sender Reg.DRC_TEST_PAT 0x01020304)).fmByte 6 = 2 ∧
    (run .testDone (up.wr .sender Reg.DRC_TEST_STAT 0x80000000)).pendBit .sender Ev.TEST_DONE = true ∧
    idle .drcTestFill ((ram up).wr .sender Reg.DRC_TEST_STAT 0x80000000) = true ∧ idle .testDone up = true := by
  decide +kernel

/-- A unit of 64 bytes. -/
def unit64 : List Byte := (List.range 64).map fun i => BitVec.ofNat 8 (i + 1)

theorem witness_DramTraffic : idle (.dramWriteRequest 11 0 1 unit64) up = true ∧
    (run (.dramReadRequest 4 0 0 0) up).snd.dram.last = some ⟨4, 0, List.replicate 64 0xFF, false⟩ ∧
    (run (.dramWriteRequest 11 5 2 unit64) (ram up)).fmByte 321 = 2 ∧
    (run (.dramWriteRequest 11 5 2 unit64) (ram up)).fmByte 320 = 0 ∧
    (run (.dramWriteRequest 11 5 2 unit64) (ram up)).rd .sender (Reg.DRC_PORT_UNITS 11) = 1 ∧
    ((reading.dch ((ram up).place 3).ch).reads.length) = 1 ∧
    (run (.dramReadRequest 4 5 0 0) (run (.dramWriteRequest 11 5 (BitVec.allOnes 64) unit64) (ram up))).snd.dram.last =
      some ⟨4, 5, unit64, false⟩ := by decide +kernel

/-- The channel that unit 3 lies on. -/
def ch3 : Fin 8 := Fin.ofNat 8 ((ram up).place 3).ch
/-- The channel that unit 5 lies on. -/
def ch5 : Fin 8 := Fin.ofNat 8 ((ram up).place 5).ch

theorem witness_DramTraffic_issue : (reading.dch ch3.val).wq = [] ∧
    ((run (.dramIssue ch3 .good) reading).dch ch3.val).flight.length = 1 ∧
    (run (.dramIssue ch3 .good) reading).rd .sender (Reg.DRC_PAGE_MISS ch3.val) = 1 ∧
    (run (.dramReadComplete ch3 .corrected) (run (.dramIssue ch3 .good) reading)).snd.dram.last =
      some ⟨4, 3, List.replicate 64 0, false⟩ ∧
    (run (.dramReadComplete ch3 .corrected) (run (.dramIssue ch3 .good) reading)).rd .sender (Reg.DRC_ECC_CORR ch3.val) = 1 ∧
    (run (.dramReadComplete ch3 .double) (run (.dramIssue ch3 .good) reading)).rd .sender (Reg.DRC_ERR_ADDR ch3.val) = 3 ∧
    (run (.dramIssue ch5 .good) (run (.dramWriteRequest 11 5 (BitVec.allOnes 64) unit64) (ram up))).snd.dram.devByte 321 = 2 ∧
    idle (.dramIssue ch3 .good) (ram up) = true ∧ idle (.dramReadComplete ch3 .good) (ram up) = true := by decide +kernel

/-- Port 11 has a write stalled on channel 0. -/
def choked : State :=
  (ram up).updCh 0 fun c => { c with stalled := [⟨5, [], 11, 0, 0⟩] }

/-- A window of 1,000 units ended at a latch point, after 1 ms. -/
def windowed : State := (framed 0).updDram fun d => { d with window := some (1000, 1000000) }

theorem witness_DramTraffic_stall : choked.portStalled 11 = true ∧ choked.portStalled 4 = false ∧
    (run (.dramWriteRequest 11 0 1 unit64) choked).snd.dram.behind.length = 1 ∧
    (run (.dramWriteRequest 11 0 1 unit64) choked).fmByte 0 = 0 ∧ sameRead 4 5 [] = false ∧
    windowed.schedOn .sender = true ∧ (run .drcBwWindow windowed).rd .sender Reg.DRC_BW_LAST = 64 ∧
    (run .drcBwWindow windowed).snd.dram.window = none ∧ idle .drcBwWindow (framed 0) = true := by decide +kernel

/-- The sender works on frame 5, which chain 0 sends; layer 0 covers its position 0 in slot 0. -/
def rasters (st : SendSt) : State :=
  ((((framed 0).wr .sender (Reg.LYR_CTRL 0) 0x80010000).wr .sender (Reg.LYR_DST_WH 0) 0x00100010).updSnd fun t =>
    { t with ras := some ⟨5, false, 0, [(0, st)], none, [], [], []⟩ }).wr .sender Reg.TIME_FRM_NUM 4

/-- Chain 0 is composed from layer 0, whose source is flow 0 with buffer 1 held; frame memory is full of a pattern. -/
def composed (fill : Word) (frames : List OpenFrame) : State :=
  (((ram (rasters .fresh)).updDram fun d => { d with fill := some fill }).updFlow 0 fun f =>
    { f with held := some (1, 7), frames := frames }).updSnd fun t => { t with comps := [(0, ⟨5, 0, [(0, 0)], [], [], []⟩)] }

theorem witness_CompositionAndRaster : 0 < (rasters .fresh).slots .sender ∧ (rasters .fresh).compLayers 0 0 = [0] ∧
    (rasters .fresh).rasChain 0 = some .fresh ∧ (rasters .fresh).serving 0 = some 0 ∧
    ((rasters .fresh).unitsOf 0).length = 16 ∧
    (run (.compositionStart 0 0) (rasters .fresh)).comp 0 = some ⟨5, 0, [(0, 0)], [], [], []⟩ ∧
    (let s := (rasters .fresh).wr .sender (Reg.CMP_PIPE_STAT 0) 0
     (s.unitsOf 0).length = 0 ∧ s.pipeFailed 0 = false ∧ (run (.compositionStart 0 0) s).pipeFailed 0 = true ∧
     (run (.compositionStart 0 0) s).pendBit .sender (Ev.CMP_PIPE_FAIL 0) = true) ∧
    idle (.compositionStart 0 0) (rasters .aborted) = true ∧ idle (.compositionStart 0 1) (rasters .fresh) = true ∧
    idle (.compositionStart 1 0) (rasters .fresh) = true := by decide +kernel

theorem witness_CompositionAndRaster_fetch : (composed 0 []).heldBuf 0 = some 1 ∧ (composed 0 []).heldOpen 0 = false ∧
    (composed 0xFFFFFFFF []).lineStale 0 0 1 [] 3 = true ∧ (composed 0 []).lineStale 0 0 1 [] 3 = false ∧
    (run (.layerFetch 0 0 3) (composed 0xFFFFFFFF [])).rd .sender Reg.CMP_STALE_LINES = 1 ∧
    idle (.layerFetch 0 0 3) (composed 0 []) = true ∧ bit ((composed 0 []).lyr 0) 29 = false ∧
    (composed 0 [⟨7, 1, [], [], false, false, none⟩]).heldOpen 0 = true ∧
    (composed 0 [⟨7, 1, [], [], false, false, none⟩]).llMiss 0 3 = true ∧
    (run (.layerFetch 0 0 3) (composed 0 [⟨7, 1, [], [], false, false, none⟩])).rd .sender Reg.CMP_LL_MISS = 1 ∧
    (let s := (composed 0 [⟨7, 1, [(0, 1)], [], false, false, none⟩]).wr .sender (Reg.FLOW_SIZE 0) 0x00010001
     s.llMiss 0 0 = true) ∧ idle (.layerFetch 1 0 3) (composed 0 []) = true := by decide +kernel

/-- Layer 0 shows all 16 columns and rows of its source. -/
def cropped : State := (composed 0 []).wr .sender (Reg.LYR_CROP_WH 0) 0x00100010

theorem witness_CompositionAndRaster_line_fetch :
    (cropped.fetchDeadline 0 0 3 0 5).isSome = true ∧ cropped.lineUnits 0 0 3 ≠ [] ∧
    ((run (.layerFetch 0 0 3) cropped).comp 0).map (fun c => c.fetched.length) = some 1 ∧
    ((run (.layerFetch 0 0 4) (run (.layerFetch 0 0 3) cropped)).comp 0).map (fun c => c.fetched.length) = some 2 := by
  decide +kernel

/-- The units of layer 0 are asked for on the quadrant port of chain 0's pipe. -/
def asking : State := run (.layerFetch 0 0 3) cropped
def askUnit : BitVec 29 := BitVec.ofNat 29 ((cropped.lineUnits 0 0 3).headD 0)

theorem witness_DramTraffic_pipe : (asking.serving 0).map pipePort = some 0 ∧
    ((run (.dramReadRequest 0 askUnit 0 0) asking).dch (asking.place askUnit.toNat).ch).reads.map (fun r => r.layer) = [some 0] ∧
    idle (.dramReadRequest 1 askUnit 0 0) asking = true := by decide +kernel

theorem witness_CompositionAndRaster_pipe :
    bit ((rasters .fresh).rd .sender (Reg.CMP_PIPE_STAT 16)) 15 = true ∧
    bit ((run (.layerUnitParity 16 15) (rasters .fresh)).rd .sender (Reg.CMP_PIPE_STAT 16)) 15 = false ∧
    (run (.layerUnitParity 16 15) (rasters .fresh)).pendBit .sender (Ev.CMP_UNIT_OFF 16) = true ∧
    idle (.layerUnitParity 16 15) (run (.layerUnitParity 16 15) (rasters .fresh)) = true ∧
    (rasters .sending).servedBy 0 = [0] ∧ (run (.pipeEccError 0) (rasters .sending)).rd .sender (Reg.CHN_ABORTS 0) = 1 ∧
    (run (.pipeEccError 0) (rasters .sending)).out.length = 1 ∧
    (run (.pipeEccError 0) (rasters .sending)).fldOf .sender (Reg.CHN_STAT 0) 27 24 = 2 ∧
    idle (.pipeEccError 0) ((rasters .sending).wrBit .sender (Reg.CMP_PIPE_STAT 0) 31 true) = true := by decide +kernel

/-- A preview frame of two lines, a packet of 9 bytes each, on NET port 3, of which n packets have left. -/
def pvTwo (n : Nat) : PvRun :=
  ⟨0, 7, 0, n, 3, 2, 9, 9, 1, 0x1000, 64, 0, 0, List.replicate 14 1, 0, List.replicate 8 2, [0, 1, 0, 2], 96, [0, 0, 0, 3]⟩

/-- The preview goes out of NET port 3, whose link is up, every frame, from write-back buffer 1. -/
def preview (pv : Option PvRun) : State :=
  ((((rasters .fresh).wr .sender Reg.CMP_PV_CTRL 0xB0000000).wr .sender Reg.CMP_WB_STAT 0x80010000).wr .sender
    (Reg.NET_STAT 3) 1).updSnd fun t => { t with pv := pv }

theorem witness_CompositionAndRaster_preview : bit ((preview none).rd .sender Reg.CMP_PV_CTRL) 31 = true ∧
    (preview none).rasOn = true ∧ (preview none).snd.pvAt = none ∧
    (run (.previewStart 0) (preview none)).snd.pv = some ((preview none).pvRun 4 1) ∧
    (run (.previewStart 0) (preview none)).rd .sender Reg.CMP_PV_STAT = 0x80010000 ∧
    (run (.previewStart 0) (preview (some (pvTwo 0)))).pendBit .sender Ev.PV_LATE = true ∧
    idle (.previewStart 0) (rasters .fresh) = true ∧ (preview none).netUp 3 = true ∧
    (preview (some (pvTwo 0))).txWaits 3 0 = false ∧ (pvTwo 0).count = 2 ∧
    (run (.pvFrame []) (preview (some (pvTwo 0)))).rd .sender Reg.CMP_PV_SENT = 1 ∧
    (run (.pvFrame []) (preview (some (pvTwo 0)))).out.length = 2 ∧
    (preview (some (pvTwo 0))).pvDue 3 = some (pvTwo 0) ∧
    (run (.txFrameSent 3 false 0) (preview (some (pvTwo 0)))).snd.pv = some (pvTwo 1) ∧
    (run (.txFrameSent 3 false 0) (preview (some (pvTwo 0)))).out.length = 1 ∧
    idle (.pvFrame []) ((preview (some (pvTwo 0))).wr .sender (Reg.NET_STAT 3) 0) = true ∧
    idle (.pvFrame []) (preview none) = true := by decide +kernel

theorem witness_CompositionAndRaster_line : 0 < (rasters .fresh).frameLines ∧
    0 < ((rasters .fresh).lineAt 5 0 - (rasters .fresh).wall .sender).toInt ∧
    idle (.rasterLineStart []) (rasters .fresh) = true ∧
    idle (.rasterLineStart []) (framed 0) = true ∧
    (let s := at' .sender 0x2800000 (rasters .unsent)
     (s.lineAt 5 0 - s.wall .sender).toInt ≤ 0 ∧
     (run (.rasterLineStart []) s).snd.ras.map RasFrame.line = some 1) := by decide +kernel

/-! ### Links -/

/-- An ECHO, a TEL, a DIGEST and a LOAN STATE of the tile at position 3. -/
def echo1 : Packet := mkPacket 5 0x7F 0 3 0x20000000 [9, 20]
def tel1 : Packet := mkPacket 4 0x7E 0 3 0x40000000 [0]
def digest1 : Packet := mkPacket 0xA 0x7E 0 3 0x10000000 [0, 1, 2, 3, 4]
def state1 : Packet := mkPacket 6 0x7F 0 3 0x30000000 [0, 0, 0]

/-- The tile's port U in a stage, the reference present. -/
def stage (st : Nat) (s : State) : State :=
  (s.wr .tile (Reg.LNK_STAT 0) (BitVec.ofNat 32 (st * 2 ^ 29))).wr .tile Reg.LNK_REF 1

/-- The stage and the two directions of port U after a command. -/
def stages (i : Instr) (s : State) : Nat × Nat × Nat :=
  let t := run i s
  (t.lnkSt .tile 0, t.lnkTx .tile 0, t.lnkRx .tile 0)

/-- A good alignment block of logical lane 1. -/
def block1 : List Byte := [0xA5, 0x40, 0, 0, 0xFF, 0xFF, 0, 0, 0, 0, 0, 0, 0, 0, 0x5E, 0xF6]

/-- What the tile knows of its port U, changed. -/
def portU (f : Port → Port) (s : State) : State := s.updPort .tile 0 f

/-- An EXCH of sender A with ACK, for position 3. -/
def exch1 : Packet := mkPacket 0 0x7F 0 0x7E 0x01000000 [0x20000300, 0, 7, 8, 9, 0]

/-- The body of that EXCH with ACK cleared. -/
def exchBody1 : List Word := [0x00000300, 0, 7, 8, 9, 0]

/-- Port U has taken n identical EXCH with ACK, and 16 hop-delay results. -/
def exchanging (n : Nat) : State :=
  portU (fun q => { q with exchBody := exchBody1, exchSame := 4, exchAcked := n, hopN := 16 }) (stage 4 up)

theorem witness_LinkBringUp : up.alive .tile = true ∧ 0 < up.tile.ports.length ∧
    stages (.lnkEnable .u false) net = (0, 0, 0) ∧ (run (.lnkEnable .u false) net).pendBit .tile (Ev.LNK_STATE .tile 0) = true ∧
    bit ((up.wr .tile (Reg.LNK_CTRL 0) 0).rd .tile (Reg.LNK_CTRL 0)) 31 = false ∧
    stages (.lnkEnable .u true) (up.wr .tile (Reg.LNK_CTRL 0) 0) = (1, 0, 0) ∧ stages (.lnkRestart .u) net = (1, 0, 0) ∧
    (stage 1 up).refPresent .tile false = true ∧ stages (.detectAttempt .u 2 2 false) (stage 1 up) = (2, 0, 0) ∧
    stages (.detectAttempt .u 1 2 false) (stage 1 up) = (1, 0, 0) ∧
    (run (.lnkNopeer .u) (stage 1 up)).pendBit .tile (Ev.LNK_NOPEER .tile 0) = true ∧
    idle (.lnkNopeer .u) (run (.lnkNopeer .u) (stage 1 up)) = true ∧ (stage 2 up).nextEntry .tile 0 = some 0 ∧
    stages (.trainEntryMeasured .u 0 0x40 0x40 0 2) (stage 2 up) = (3, 0, 0) ∧
    stages (.trainEntryMeasured .u 0 0x40 0x40 0 1) (stage 2 up) = (2, 0, 0) ∧
    idle (.trainEntryMeasured .u 1 0x40 0x40 0 2) (stage 2 up) = true ∧
    stages (.lnkTrainFail .u) (stage 2 up) = (1, 0, 0) ∧ stages (.lockTimeout .u) (stage 3 up) = (2, 0, 0) ∧
    stages (.lockTimeout .u) (up.wr .tile (Reg.LNK_STAT 0) 0xA2600000) = (5, 1, 4) := by decide +kernel

theorem witness_LinkBringUp_lock : alignGood 1 block1 = true ∧ alignGood 0 block1 = false ∧
    stages (.alignmentBlock .u 1 block1 true .locked) (portU (fun q => { q with good := [8, 7, 0] }) (stage 3 up)) =
      (4, 0, 0) ∧
    stages (.alignmentBlock .u 1 block1 true .locked) (portU (fun q => { q with good := [8, 6, 0] }) (stage 3 up)) =
      (3, 0, 0) ∧
    bit ((run (.alignmentBlock .u 0 block1 true .up) (portU (fun q => { q with bad := [1, 0, 0] }) net)).rd .tile
      (Reg.LNK_LANES 0)) 0 = true ∧
    TileTakes 0 exch1 (exchanging 3) ∧ Pkt.type exch1 = 0 ∧ bit ((Pkt.body exch1).getD 0 0) 29 = true ∧
    stages (.exch .u exch1) (exchanging 3) = (5, 1, 1) ∧ (run (.exch .u exch1) (exchanging 3)).tilePos = some 3 ∧
    (run (.exch .u exch1) (exchanging 3)).rd .tile Reg.LNK_WALL = 9 ∧
    ((run (.exch .u exch1) (exchanging 2)).port .tile 0).exchAcked = 3 ∧
    (run (.exchSend .u) (stage 4 up)).out.length = 1 ∧ idle (.exchSend .u) (stage 3 up) = true ∧
    stages (.exchangeTimeout .u) (stage 4 up) = (2, 0, 0) ∧ idle (.exchangeTimeout .u) net = true := by
  unfold TileTakes; decide +kernel

/-- The spare lane of port U is healthy. -/
def spared (s : State) : State := s.wr .tile (Reg.LNK_FOM 0) 0x404040

theorem witness_LanesAndSleep : net.rxLogical .tile 0 1 = some 1 ∧ (spared net).fomMin .tile 0 ≤ (spared net).fom .tile 0 2 ∧
    bit ((spared net).rd .tile (Reg.LNK_CTRL 0)) 27 = true ∧ (net.port .tile 0).rxSwap = none ∧
    ((run (.laneFail .u 1) (spared net)).port .tile 0).rxSwap = some 1 ∧
    stages (.laneFail .u 1) net = (5, 1, 4) ∧
    stages (.laneFail .u 1) (net.wr .tile (Reg.LNK_STAT 0) 0xA4200000) = (1, 0, 0) ∧ idle (.laneFail .u 1) up = true ∧
    (let s := portU (fun q => { q with rxSwap := some 1 }) (spared net)
     (run (.laneSwap .u false) s).fldOf .tile (Reg.LNK_LANES 0) 19 18 = 2 ∧
     (run (.laneSwap .u false) s).rd .tile (Reg.LNK_SWAPS 0) = 1 ∧
     (let t := run (.laneSwap .u false) s
      t.fldOf .tile (Reg.LNK_LANES 0) 17 16 = 3 ∧ t.fomMin .tile 0 ≤ 0x20 ∧
      (run (.spareRestore .u false 1 0x20) t).fldOf .tile (Reg.LNK_LANES 0) 17 16 = 1 ∧
      idle (.spareRestore .u false 1 0x1F) t = true ∧ idle (.spareRestore .u false 0 0x20) t = true)) ∧
    idle (.laneSwap .u true) net = true ∧
    (run (.lnkEqWeak .u 2 0x3F) net).pendBit .tile (Ev.LNK_EQ_WEAK .tile 0) = true ∧ idle (.lnkEqWeak .u 2 0x40) net = true := by
  decide +kernel

/-- The receive lanes of port U have locked and are aligned. -/
def locking (s : State) : State := portU (fun q => { q with good := [8, 8, 0], aligned := true }) s

/-- Port D follows port U. -/
def follows (s : State) : State := s.wrBit .tile (Reg.LNK_CTRL 1) 29 true

theorem witness_LanesAndSleep_sleep : (follows net).follows 1 = true ∧
    stages (.lnkSleep .u) net = (5, 1, 2) ∧ (run (.lnkSleep .u) (follows net)).lnkTx .tile 1 = 2 ∧
    stages (.lnkWakeStart .u false) (run (.lnkSleep .u) net) = (5, 1, 3) ∧
    (run (.lnkWakeStart .u false) (run (.lnkSleep .u) (follows net))).lnkTx .tile 1 = 3 ∧
    stages (.lnkWakeStart .u true) (net.wr .tile (Reg.LNK_STAT 0) 0xA4200000) = (5, 3, 1) ∧
    stages (.lnkWake .u true) (net.wr .tile (Reg.LNK_STAT 0) 0xA6200000) = (5, 1, 1) ∧
    (locking (net.wr .tile (Reg.LNK_STAT 0) 0xA2600000)).locked .tile 0 true = true ∧
    stages (.lnkWake .u false) (locking (net.wr .tile (Reg.LNK_STAT 0) 0xA2600000)) = (5, 1, 1) ∧
    idle (.lnkWake .u false) (net.wr .tile (Reg.LNK_STAT 0) 0xA2600000) = true ∧
    (net.wr .tile (Reg.LNK_STAT 0) 0xA6200000).sleepAsked .tile 0 = false ∧ net.txHeld .tile 0 = false ∧
    idle (.lnkSleep .u) up = true ∧ idle (.lnkWake .u true) net = true ∧ idle (.lnkWakeStart .u true) net = true ∧
    bit (net.rd .tile (Reg.LNK_CTRL 0)) 28 = false ∧
    (run (.lnkTxSleepWrite .u true) (portU (fun q => { q with own := [echo1] }) net)).out.take 1 =
      [.packet .u (net.stampTime echo1)] ∧
    stages (.lnkTxSleepWrite .u true) net = (5, 2, 1) ∧
    stages (.lnkTxSleepWrite .u false) ((net.wr .tile (Reg.LNK_STAT 0) 0xA4200000).wrBit .tile (Reg.LNK_CTRL 0) 30 true) =
      (5, 3, 1) := by decide +kernel

/-- Sender B. -/
def senderB (s : State) : State := s.wr .sender Reg.LNK_ROLE 2

theorem witness_LanesAndSleep_reference : (run (.lnkRefLost .u) (stage 5 up)).rd .tile Reg.LNK_REF = 2 ∧
    (run (.refRestored .u) (run (.lnkRefLost .u) (stage 5 up))).rd .tile Reg.LNK_REF = 1 ∧
    (run (.refRestored .u) (run (.lnkRefLost .u) (stage 5 up))).pendBit .tile Ev.REF_RESTORED = true ∧
    (senderB up).letter = .b ∧ up.letter = .a ∧
    (run (.lnkRefLost (.chain 15)) ((senderB up).wrBit .sender (Reg.LNK_STAT 15) 20 true)).pendBit .sender
      (Ev.LNK_REF_LOST .sender 15) = true ∧
    bit ((run (.refRestored (.chain 15)) (senderB up)).rd .sender (Reg.LNK_STAT 15)) 20 = true ∧
    idle (.lnkRefLost (.chain 15)) up = true ∧ idle (.refRestored .d) up = true := by decide +kernel

/-- A TIME-free packet for position 4, one with a wrong CRC, one that is stomped, and one with a damaged header. -/
def passing : Packet := mkPacket 3 4 0 0x7E 0x20000000 [0, 0x10000]
def wrong : Packet := passing.dropLast ++ [1]
def stomp : Packet := passing.dropLast ++ [Pkt.crc passing ^^^ 0xFFFFFFFF]
def damaged : Packet := (0x30800006 : Word) :: passing.drop 1

theorem witness_PacketFlow : net.hears .tile 0 = true ∧ (net.port .tile 0).unframed = false ∧ Pkt.hcrcOk passing = true ∧
    Pkt.lenOk passing = true ∧ net.consumes passing = false ∧ Pkt.crcOk wrong = false ∧ Pkt.stomped wrong = false ∧
    Pkt.stomped stomp = true ∧ Pkt.hcrcOk damaged = false ∧
    (run (.packetForward .u passing) net).out = [.packet .d passing] ∧ idle (.packetForward .u passing) up = true ∧
    (run (.packetForward .u stomp) net).rd .tile (Reg.LNK_STOMPED 0) = 1 ∧
    (run (.packetForward .u wrong) net).out = [.packet .d stomp] ∧
    (run (.packetForward .u wrong) net).rd .tile (Reg.LNK_CRC_ERR 0) = 1 ∧
    (run (.packetForward .u damaged) net).rd .tile (Reg.LNK_HDR_ERR 0) = 1 ∧
    ((run (.packetForward .u damaged) net).port .tile 0).unframed = true ∧
    (run (.packetForward .u damaged) net).out = [.filler .d damaged.length] ∧ net.discards passing = true ∧
    (run (.lnkDiscard 0 passing) net).rd .sender (Reg.LNK_PASSED 0) = 1 ∧
    idle (.lnkDiscard 0 (tel1)) net = true := by decide +kernel

/-- Port U has a DIGEST and a LOAN STATE of its own waiting. -/
def owning : State := portU (fun q => { q with own := [digest1, state1] }) net

/-- Port U as `owning`, with n words in its bypass buffer, one packet of them. -/
def queued (n : Nat) : State := portU (fun q => { q with level := n }) owning

theorem witness_PacketFlow_own : ownFirst (owning.port .tile 0).own = some 1 ∧ 122 + state1.length = 128 ∧
    (run (.ownPacketSend .u 122 0) (queued 122)).out = [.packet .u state1] ∧
    ((run (.ownPacketSend .u 122 0) (queued 122)).port .tile 0).own = [digest1] ∧
    idle (.ownPacketSend .u 123 0) (queued 123) = true ∧ idle (.ownPacketSend .u 0 0) net = true ∧
    (run (.ownPacketSend .u 5 9) (queued 5)).fldOf .tile (Reg.LNK_BYP_MAX 0) 7 0 = 9 ∧
    ((run (.ownPacketSend .u 0 0) owning).port .tile 0).ownLeft = state1.length ∧
    ((run (.packetForward .d passing) (run (.ownPacketSend .u 0 0) owning)).port .tile 0).byp = [passing] ∧
    (run (.packetForward .d passing) (portU (fun q => { q with ownLeft := 1, byp := [tel1] }) net)).out =
      [.packet .u tel1, .packet .u passing] ∧
    stages (.packetForward .d passing) (net.wr .tile (Reg.LNK_STAT 0) 0xA4200000) = (5, 3, 1) := by decide +kernel

/-! ### Porval -/

theorem bytes_fold (n v acc : Nat) :
    (bytesOfNatBE n v).foldl (fun n b => n * 256 + b.toNat) acc = acc * 256 ^ n + v % 256 ^ n := by
  induction n generalizing acc with
  | zero => simp [bytesOfNatBE, Nat.mod_one]
  | succ n ih =>
    rw [bytesOfNatBE, List.foldl_cons, ih, Nat.mod_pow_succ, BitVec.toNat_ofNat, Nat.add_mul,
      show (256 : Nat) ^ (n + 1) = 256 ^ n * 256 from rfl, Nat.mul_assoc, Nat.mul_comm 256]
    generalize v / 256 ^ n = x
    rw [show (2 : Nat) ^ 8 = 256 from rfl, Nat.mul_comm (x % 256)]
    omega

theorem bytes_length (n v : Nat) : (bytesOfNatBE n v).length = n := by
  induction n with
  | zero => rfl
  | succ n ih => rw [bytesOfNatBE, List.length_cons, ih]

theorem crc16_lt (l : List Byte) : crc16 l < 2 ^ 16 := by
  have bit : ∀ c, c < 2 ^ 16 → crcMsbBit 16 0x1021 c < 2 ^ 16 := by
    intro c h
    unfold crcMsbBit
    dsimp only
    split
    · exact Nat.xor_lt_two_pow (by omega) (by decide)
    · omega
  have bits : ∀ (u : List Unit) c, c < 2 ^ 16 → u.foldl (fun c _ => crcMsbBit 16 0x1021 c) c < 2 ^ 16 := by
    intro u
    induction u with
    | nil => intro c h; exact h
    | cons x u ih => intro c h; rw [List.foldl_cons]; exact ih _ (bit c h)
  have all : ∀ c, c < 2 ^ 16 → crcMsb 16 0x1021 c l < 2 ^ 16 := by
    induction l with
    | nil => intro c h; exact h
    | cons x l ih =>
      intro c h
      have hb := bits (List.replicate 8 ()) (c ^^^ (x.toNat * 2 ^ (16 - 8)))
        (Nat.xor_lt_two_pow h (by have := x.isLt; omega))
      have := ih _ hb
      unfold crcMsb at this ⊢
      rw [List.foldl_cons]
      exact this
  unfold crc16
  exact all 0xFFFF (by decide)

/-- The bytes from CMD to the CRC of a sound frame of a command with a payload, addressed to the tile, whatever its
identifier is; and that frame. -/
def ownBody (cmd : Byte) (pay : List Byte) : List Byte :=
  let x := cmd :: (bytesOfNatBE 8 tileId ++ BitVec.ofNat 8 pay.length :: pay)
  x ++ bytesOfNatBE 2 (crc16 x)
def ownFrame (cmd : Byte) (pay : List Byte) : List Byte :=
  pvSeal (cmd :: (bytesOfNatBE 8 tileId ++ BitVec.ofNat 8 pay.length :: pay))

theorem own_body (cmd : Byte) (pay : List Byte) : pvBody (ownFrame cmd pay) = ownBody cmd pay := by
  unfold pvBody ownFrame pvSeal ownBody
  rw [List.append_assoc]
  rfl

theorem witness_own_address (cmd : Byte) (pay : List Byte) (h : pay.length ≤ 64) :
    pvSound (ownFrame cmd pay) = true ∧ pvCmd (pvBody (ownFrame cmd pay)) = cmd.toNat ∧
    pvAddr (pvBody (ownFrame cmd pay)) = tileId ∧ pvPayload (pvBody (ownFrame cmd pay)) = pay := by
  have hl : (BitVec.ofNat 8 pay.length).toNat = pay.length := by rw [BitVec.toNat_ofNat]; omega
  have h9 : (ownBody cmd pay).getD 9 0 = BitVec.ofNat 8 pay.length := by
    simp [ownBody, bytesOfNatBE]
  have hx : (ownBody cmd pay).dropLast.dropLast = cmd :: (bytesOfNatBE 8 tileId ++ BitVec.ofNat 8 pay.length :: pay) := by
    unfold ownBody
    generalize (cmd :: (bytesOfNatBE 8 tileId ++ BitVec.ofNat 8 pay.length :: pay)) = x
    dsimp only
    rw [show bytesOfNatBE 2 (crc16 x) = [BitVec.ofNat 8 (crc16 x / 256 ^ 1)] ++ [BitVec.ofNat 8 (crc16 x / 256 ^ 0)] from rfl,
      ← List.append_assoc, List.dropLast_concat, List.dropLast_concat]
  have hn : (ownBody cmd pay).length = 12 + pay.length := by
    simp [ownBody, bytesOfNatBE]; omega
  have ht : (ownFrame cmd pay).take 3 = pvLead := by
    unfold ownFrame pvSeal
    rw [List.append_assoc]
    rfl
  rw [own_body]
  refine ⟨?_, ?_, ?_, ?_⟩
  · unfold pvSound
    rw [own_body, ht]
    dsimp only
    rw [h9, hl, hx, hn]
    have hd : (ownBody cmd pay).drop (12 + pay.length - 2) =
        bytesOfNatBE 2 (crc16 (cmd :: (bytesOfNatBE 8 tileId ++ BitVec.ofNat 8 pay.length :: pay))) := by
      unfold ownBody
      apply List.drop_left'
      rw [List.length_cons, List.length_append, bytes_length, List.length_cons]
      omega
    rw [hd, natBE, bytes_fold, Nat.zero_mul, Nat.zero_add, Nat.mod_eq_of_lt (show crc16 _ < 256 ^ 2 from crc16_lt _)]
    simp [h]
  · simp [pvCmd, ownBody]
  · have hd : ((ownBody cmd pay).drop 1).take 8 = bytesOfNatBE 8 tileId := by
      simp [ownBody, bytesOfNatBE]
    unfold pvAddr
    rw [hd, natBE, bytes_fold, Nat.zero_mul, Nat.zero_add]
    exact Nat.mod_eq_of_lt (Nat.lt_of_lt_of_eq (Sys2Proof.Config.devId .tile).isLt (by decide))
  · unfold pvPayload
    rw [h9, hl]
    have hd : (ownBody cmd pay).drop 10 = pay ++ bytesOfNatBE 2 (crc16 (cmd :: (bytesOfNatBE 8 tileId ++
        BitVec.ofNat 8 pay.length :: pay))) := by
      simp [ownBody, bytesOfNatBE]
    rw [hd, List.take_left']
    rfl

theorem witness_PorvalDomain : up.pvd.powered = true ∧ up.pvd.noted = false ∧ up.pvd.busy = false ∧
    up.pvd.result = [] ∧ bit (up.rd .tile Reg.IDN_CHAL_STAT) 31 = false ∧
    prefixSame 64 (pvAddr (pvBody (ownFrame 2 [64]))) tileId = true ∧ pvAddr (pvBody (ownFrame 2 [64])) = tileId ∧
    exec (.ping (ownFrame 2 [64])) up = .next (up.emit .presence) := by
  obtain ⟨h1, h2, h3, h4⟩ := witness_own_address 2 [64] (by decide)
  have hp : prefixSame 64 (pvAddr (pvBody (ownFrame 2 [64]))) tileId = true := by rw [h3]; exact beq_self_eq_true _
  have hs : up.pvd.powered = true ∧ up.pvd.noted = false := by decide
  refine ⟨hs.1, hs.2, rfl, rfl, by decide +kernel, hp, h3, ?_⟩
  show execPing (ownFrame 2 [64]) up = _
  have h2' : pvCmd (pvBody (ownFrame 2 [64])) = 2 := h2
  generalize ownFrame 2 [64] = b at h1 h2' h4 hp ⊢
  simp [execPing, State.pvHears, h1, h2', h4, hs.1, hs.2, hp]

/-- Frames to every tile: ROLL_RESET and WAKE; and a frame whose CRC is bad. -/
def rollAll : List Byte := pvSeal [1, 0xFF, 0xFF, 0xFF, 0xFF, 0xFF, 0xFF, 0xFF, 0xFF, 0]
def wakeAll : List Byte := pvSeal [8, 0xFF, 0xFF, 0xFF, 0xFF, 0xFF, 0xFF, 0xFF, 0xFF, 0]

theorem witness_PorvalDomain_all : pvSound rollAll = true ∧ pvAddr (pvBody rollAll) = 2 ^ 64 - 1 ∧ pvSound wakeAll = true ∧
    pvSound (wakeAll.dropLast ++ [0]) = false ∧ idle (.wake (wakeAll.dropLast ++ [0])) up = true ∧
    (run (.rollReset rollAll) { up with pvd := { up.pvd with noted := true } }).pvd.noted = false ∧
    idle (.rollReset rollAll) { up with pvd := { up.pvd with noted := true, powered := false } } = true ∧
    (up.wr .tile Reg.SYS_PWR_STAT 3).alive .tile = true := by decide +kernel

/-- The tile takes a NOTE and a CHALLENGE. -/
theorem witness_PorvalDomain_own :
    exec (.note (ownFrame 3 [])) up = .next ((up.updPv fun v => { v with noted := true }).pvAnswer 3 [0]) ∧
    exec (.challenge (ownFrame 6 [1])) up = .next ((up.updPv fun v =>
      { v with nonce := [1], busy := true, refused := false, part := false, result := [] }).pvAnswer 6 [1]) := by
  obtain ⟨h1, h2, h3, h4⟩ := witness_own_address 3 [] (by decide)
  obtain ⟨k1, k2, k3, k4⟩ := witness_own_address 6 [1] (by decide)
  have hs : up.pvd.powered = true ∧ up.chalBusy = false ∧ up.logicOn = false := by decide +kernel
  have hl : (up.updPv fun v => { v with nonce := [1], busy := true, refused := false, part := false, result := [] }).logicOn =
      false := by decide +kernel
  constructor
  · show execNote (ownFrame 3 []) up = _
    have h2' : pvCmd (pvBody (ownFrame 3 [])) = 3 := h2
    generalize ownFrame 3 [] = b at h1 h2' h3 ⊢
    simp [execNote, State.pvHears, h1, h2', h3, hs.1]
  · show execChallenge (ownFrame 6 [1]) up = _
    have k2' : pvCmd (pvBody (ownFrame 6 [1])) = 6 := k2
    generalize ownFrame 6 [1] = b at k1 k2' k3 k4 ⊢
    simp [execChallenge, State.pvHears, k1, k2', k3, k4, hs.1, hs.2.1]
    exact congrArg _ (if_neg (Bool.not_eq_true _ ▸ hl))

/-- Chain port 15's Porval master in a phase, with BUSY and n attempts made. -/
def pvAt (x : PvPhase) (n : Nat) : State :=
  (up.updPort .sender 15 fun q => { q with pv := x, pvTx := (pvBody rollAll).dropLast.dropLast }).wr .sender (Reg.LNK_PV_STAT 15)
    (BitVec.ofNat 32 (0x80000100 + n))

/-- The transaction of port 15 after a command: its phase, RESULT and whether PV_DONE is pending. -/
def pvEnd (i : Instr) (s : State) : PvPhase × Nat × Bool :=
  let t := run i s
  ((t.port .sender 15).pv, t.fldOf .sender (Reg.LNK_PV_STAT 15) 30 28, t.pendBit .sender (Ev.PV_DONE 15))

theorem witness_PorvalMaster : 15 < up.sender.ports.length ∧ bit (up.rd .sender (Reg.LNK_PV_STAT 15)) 31 = false ∧
    (run (.pvGo 15) up).rd .sender (Reg.LNK_PV_STAT 15) = 0x80000101 ∧ idle (.pvAbort 15) up = true ∧
    idle (.pvGo 15) (pvAt .await 1) = true ∧ pvEnd (.pvAbort 15) (pvAt .await 1) = (.idle, 3, true) ∧
    pvEnd (.pvRequestEnd 15) (pvAt .sending 1) = (.idle, 6, true) ∧
    (run (.pvRequestEnd 15) (pvAt .sending 1)).out = [.porval 15 rollAll] ∧
    pvEnd (.porvalCollisionSeen 15) (pvAt .sending 8) = (.idle, 5, true) ∧
    pvEnd (.porvalCollisionSeen 15) (pvAt .sending 7) = (.backoff, 0, false) ∧
    (run (.pvRetry 15) (pvAt .backoff 7)).fldOf .sender (Reg.LNK_PV_STAT 15) 3 0 = 8 ∧
    pvEnd (.pvResponse 15 rollAll) (pvAt .await 1) = (.idle, 0, true) ∧
    (run (.pvResponse 15 rollAll) (pvAt .await 1)).rd .sender (Reg.LNK_PV_RX 15 0) = 0xFFFFFF01 ∧
    pvEnd (.pvResponse 15 [1]) (pvAt .await 1) = (.idle, 4, true) ∧ pvEnd (.pvNoAnswer 15) (pvAt .await 1) = (.idle, 3, true) ∧
    pvEnd (.pingPresenceSample 15 true) (pvAt .sample 1) = (.idle, 1, true) ∧
    pvEnd (.pingPresenceSample 15 false) (pvAt .sample 1) = (.idle, 2, true) ∧
    up.pvHigh 15 = true ∧ up.pvPair 15 = true ∧ idle (.pvRequestEnd 15) ((pvAt .sending 1).wr .sender (Reg.CHN_CTRL 15) 0x80000000) = true ∧
    (run (.pvBias 15) up).pendBit .sender (Ev.PV_BIAS 15) = true ∧ idle (.pvBias 15) (pvAt .await 1) = true ∧
    idle (.pvNoAnswer 15) up = true ∧ idle (.pvRetry 15) up = true := by decide +kernel

/-! ### Loans -/

/-- A LOAN packet of sender A on chain 0, or of B on chain 1, over positions 0 to 7. -/
def loan (kind term expiry : Nat) (b : Bool) : Packet :=
  mkPacket 6 0x7F 0 0x7E (BitVec.ofNat 32 (kind * 2 ^ 28)) [BitVec.ofNat 32 term, BitVec.ofNat 32 expiry,
    loanK (if b then .b else .a) 0 0 7]

/-- The record: holder, state, expiry, release time, grants. -/
def rec (s : State) : Nat × Nat × Nat × Nat × Nat :=
  (s.fldOf .tile Reg.LOAN_REC 31 30, s.rstate, (s.rd .tile Reg.LOAN_EXPIRY).toNat,
    (s.rd .tile Reg.LOAN_REL_TIME).toNat, (s.rd .tile Reg.LOAN_GRANTS).toNat)

/-- A part at wall time w, as many ns after its release. -/
def tileAt (w : Nat) (s : State) : State := (at' .tile w s).upd .tile fun c => { c with cycles := w / 2 }
def sndAt (w : Nat) (s : State) : State := (at' .sender w s).upd .sender fun c => { c with cycles := w }

/-- The tile has kept a claim of B since wall time w. -/
def claimed (w : Nat) (s : State) : State := run (.loanClaim .d (loan 1 250000 250000 true)) (tileAt w s)

theorem witness_LoanRecord_packets :
    TileTakes 0 (loan 0 250000 250000 false) held ∧ TileTakes 1 (loan 1 250000 250000 true) held ∧
    Pkt.is (loan 0 250000 250000 false) 6 0 = true ∧ Pkt.is (loan 1 250000 250000 true) 6 1 = true ∧
    Pkt.is (loan 2 0 0 false) 6 2 = true ∧ held.holder = some .a ∧ net.holder = none ∧ held.tilePos = some 3 ∧
    rec (run (.loanRenew .u (loan 0 250000 250000 false)) held) = (1, 1, 250000, 0, 0) ∧
    rec (run (.loanRenew .u (loan 0 250000 1 false)) held) = (1, 1, 1, 0, 0) ∧
    rec (run (.loanRenew .u (loan 0 100000000 100000000 false)) held) = (1, 1, 100000000, 0, 0) ∧
    (run (.loanRenew .u (loan 0 249999 1000 false)) held).rd .tile Reg.LOAN_BADPKT = 1 ∧
    (run (.loanRenew .u (loan 0 100000001 1000 false)) held).rd .tile Reg.LOAN_BADPKT = 1 ∧
    (run (.loanRenew .u (loan 0 250000 250001 false)) held).rd .tile Reg.LOAN_BADPKT = 1 ∧
    (run (.loanRenew .u (loan 0 250000 0 false)) held).rd .tile Reg.LOAN_BADPKT = 1 ∧
    (run (.loanRenew .u (loan 0 250000 0 false)) held).pendBit .tile Ev.LOAN_BADPKT = true ∧
    rec (run (.loanRenew .d (loan 0 250000 250000 true)) held) = (1, 1, 1000000, 0, 0) ∧
    rec (run (.loanRenew .d (loan 0 250000 250000 false)) held) = (1, 1, 1000000, 0, 0) ∧
    rec (run (.loanRenew .u (loan 0 250000 250000 false)) net) = (0, 0, 0, 0, 0) ∧
    rec (run (.loanClaim .u (loan 1 250000 250000 false)) net) = (1, 1, 250000, 0, 1) ∧
    (run (.loanClaim .u (loan 1 250000 250000 false)) net).pendBit .tile Ev.LOAN_GRANT = true ∧
    rec (run (.loanClaim .d (loan 1 250000 200000 true)) net) = (2, 1, 200000, 0, 1) ∧
    rec (run (.loanClaim .u (loan 1 250000 250000 false)) held) = (1, 1, 250000, 0, 0) ∧
    rec (claimed 0 held) = (1, 1, 1000000, 0, 0) ∧ (claimed 0 held).til.claims = [⟨.b, 250000, 250000, 0⟩] ∧
    rec (run (.loanClaim .u (loan 1 1 1 false)) net) = (0, 0, 0, 0, 0) := by
  unfold TileTakes; decide +kernel

theorem witness_LoanRecord_release :
    rec (run (.loanRelease .u (loan 2 0 500 false)) held) = (1, 2, 1000000, 500, 0) ∧
    rec (run (.loanRelease .u (loan 2 0 0 false)) held) = (0, 0, 0, 0, 0) ∧
    (run (.loanRelease .u (loan 2 0 0 false)) held).pendBit .tile Ev.LOAN_RELEASED = true ∧
    rec (run (.loanRelease .u (loan 2 0 500 false)) (tileAt 500 held)) = (0, 0, 0, 0, 0) ∧
    rec (run (.loanRelease .u (loan 2 0 0 false)) (tileAt 8192 (claimed 0 held))) = (2, 1, 250000, 0, 1) ∧
    rec (run (.loanRelease .u (loan 2 0 0 false)) (tileAt 8194 (claimed 0 held))) = (0, 0, 0, 0, 0) ∧
    (tileAt 2 (claimed 0 held)).freshClaim ≠ none ∧ (claimed 0 held).freshClaim = none ∧ (tileAt 8194 (claimed 0 held)).freshClaim = none ∧
    rec (run (.loanRelease .u (loan 2 0 100000001 false)) held) = rec held ∧
    (run (.loanRelease .u (loan 2 0 100000001 false)) held).rd .tile Reg.LOAN_BADPKT = 1 ∧
    rec (run (.loanRelease .d (loan 2 0 0 true)) held) = rec held := by decide +kernel

theorem witness_LoanRecord_cycle :
    (let s := run (.loanClaim .d (loan 1 250000 250000 true)) net;
     s.holder = some .b ∧ s.til.granted.map (·.at') = some (s.elapsed .tile) ∧
     rec (run (.loanClaim .u (loan 1 250000 200000 false)) s) = (1, 1, 200000, 0, 1)) ∧
    (let s := run .loanExpired (tileAt 250000 (run (.loanClaim .u (loan 1 250000 250000 false)) net));
     s.holder = none ∧ s.noneBefore = false ∧ (tileAt 250002 s).noneBefore = true ∧
     (run (.loanClaim .d (loan 1 250000 400000 true)) s).holder = none ∧
     (run (.loanClaim .d (loan 1 250000 400000 true)) s).til.claims = [⟨.b, 400000, 250000, 250000⟩] ∧
     (run (.loanClaim .d (loan 1 250000 400000 true)) (tileAt 250002 s)).holder = some .b) := by decide +kernel

/-- Sender A releases the tile at 500. -/
def releasing : State := run (.loanRelease .u (loan 2 0 500 false)) held

theorem witness_LoanRecord_time : releasing.alive .tile = true ∧ releasing.rstate = 2 ∧
    idle .loanReleased (tileAt 499 releasing) = true ∧ rec (run .loanReleased (tileAt 500 releasing)) = (0, 0, 0, 0, 0) ∧
    rec (run .loanReleased (tileAt 500 (claimed 400 releasing))) = (2, 1, 250000, 0, 1) ∧
    (run .loanReleased (tileAt 500 (claimed 400 (run (.loanRelease .u (loan 2 0 500 false))
      (run (.loanClaim .u (loan 1 250000 250000 false)) net))))).rd .tile Reg.LOAN_LAST_GAP = 500 ∧
    idle .loanReleased (tileAt 500 held) = true ∧
    idle .loanExpired (tileAt 999999 held) = true ∧ idle .loanExpired (tileAt 1000000 net) = true ∧
    rec (run .loanExpired (tileAt 1000000 held)) = (0, 0, 0, 0, 0) ∧
    rec (run .loanExpired (tileAt 1000000 releasing)) = (0, 0, 0, 0, 0) ∧
    (run .loanExpired (tileAt 1000000 held)).rd .tile Reg.LOAN_EXPIRIES = 1 ∧
    (run .loanExpired (tileAt 1000000 held)).pendBit .tile Ev.LOAN_EXPIRED = true ∧
    net.fldOf .tile Reg.LOAN_ORPHAN_TO 15 0 = 1000 ∧ idle .loanOrphan (tileAt 999999999 net) = true ∧
    (run .loanOrphan (tileAt 1000000000 net)).til.orphan = true ∧
    (run .loanOrphan (tileAt 1000000000 net)).pendBit .tile Ev.LOAN_ORPHAN = true ∧
    idle .loanOrphan (run .loanOrphan (tileAt 1000000000 net)) = true ∧ idle .loanOrphan (tileAt 1000000000 held) = true ∧
    idle .stateSend up = true ∧
    ((run .stateSend held).port .tile 0).own = [held.statePacket] ∧ ((run .stateSend held).port .tile 1).own = [held.statePacket] ∧
    fld (Pkt.w held.statePacket 1) 27 24 = 5 ∧ (Pkt.w held.statePacket 3) = 1000000 ∧
    (Pkt.w releasing.statePacket 3) = 500 ∧ Pkt.w net.statePacket 3 = 0 := by decide +kernel

/-- Sender A lends: its loan state is ACTIVE, its term 1 ms, and position 5 of chain 0 is not its own. -/
def lending : State :=
  (net.wr .sender Reg.LOAN_STAT 0x40000000).wr .sender (Reg.LOAN_EXCL_LO 0) 0x20 |>.wr .sender Reg.LOAN_TERM 1000000

/-- The same with a claim enabled. -/
def claiming : State := lending.wrBit .sender Reg.LOAN_CTRL 30 true

/-- Two RELEASE copies of chain 0 are left. -/
def copies (n : Nat) : State := lending.updSnd fun t => { t with release := [(0, ⟨777, n⟩)] }

/-- STATE of position 4: held by A, by B, by nobody. -/
def report (h : Nat) : Packet :=
  mkPacket 6 0x7E 0 4 (BitVec.ofNat 32 (3 * 2 ^ 28 + h * 2 ^ 26 + (if h = 0 then 0 else 2 ^ 24))) [250000, 9, loanK .a 0 4 4]

theorem witness_SenderLoans_sends : lending.alive .sender = true ∧ lending.loanOn 0 = true ∧ net.loanOn 0 = false ∧
    lending.chainLen 0 = 8 ∧ runsOf (lending.ownPositions 0) = [(0, 4), (6, 7)] ∧
    ((run (.renewSend 0) lending).out = [.packet (.chain 0) (mkPacket 6 0x7F 0 0x7E 0 [1000000, 1000000, loanK .a 0 0 4]),
      .packet (.chain 0) (mkPacket 6 0x7F 0 0x7E 0 [1000000, 1000000, loanK .a 0 6 7])]) ∧
    idle (.renewSend 0) net = true ∧ idle (.renewSend 1) lending = true ∧
    (run (.claimSend 0) claiming).out.length = 2 ∧ idle (.claimSend 0) lending = true ∧
    idle (.releaseSend 0) lending = true ∧
    (run (.releaseSend 0) (copies 2)).out = [.packet (.chain 0) (mkPacket 6 0x7F 0 0x7E 0x20000000 [0, 777, loanK .a 0 0 7])] ∧
    AMap.find (run (.releaseSend 0) (copies 2)).snd.release 0 = some ⟨777, 1⟩ ∧
    AMap.find (run (.releaseSend 0) (copies 1)).snd.release 0 = none ∧
    (run (.loanExclWrite 0 true 6) lending).exclMap 0 = 0x600000020 ∧
    (run (.loanExclWrite 0 true 7) lending).exclMap 0 = 0x20 ∧
    (run (.loanExclWrite 0 true 7) lending).pendBit .sender Ev.LOAN_EXCL_DENIED = true ∧
    (run (.loanExclWrite 0 false 7) lending).exclMap 0 = 7 := by decide +kernel

theorem witness_SenderLoans_reports : SenderTakes 0 (report 1) lending ∧ Pkt.is (report 1) 6 3 = true ∧
    Pkt.src (report 1) = 4 ∧
    (run (.loanState 0 (report 1)) lending).heldMap 0 = 16 ∧ (run (.loanState 0 (report 1)) lending).seenMap 0 = 16 ∧
    (run (.loanState 0 (report 1)) lending).pendBit .sender (Ev.HELD_CHANGE 0) = true ∧
    (run (.loanState 0 (report 2)) lending).heldMap 0 = 0 ∧
    (run (.loanState 0 (report 2)) lending).pendBit .sender Ev.LOAN_SPLIT = true ∧
    (run (.loanState 0 (report 0)) lending).pendBit .sender Ev.ORPHAN_SEEN = true ∧
    (run (.loanState 0 (report 2)) (run (.loanState 0 (report 1)) lending)).heldMap 0 = 0 ∧
    idle (.seenTimeout 0 4) lending = true ∧
    idle (.seenTimeout 0 4) (sndAt 2999999 (run (.loanState 0 (report 1)) lending)) = true ∧
    (run (.seenTimeout 0 4) (sndAt 3000000 (run (.loanState 0 (report 1)) lending))).seenMap 0 = 0 ∧
    (run (.seenTimeout 0 4) (sndAt 3000000 (run (.loanState 0 (report 1)) lending))).heldMap 0 = 0 := by
  unfold SenderTakes; decide +kernel

/-- A beat of the peer. -/
def beat1 : Packet := mkPacket 7 0x7E 0 0x7E 0 [41, 1000, 0x80600000]

/-- Beats of the peer are seen on chain 0. -/
def beating : State := run (.beat 0 beat1) lending

/-- The peer's time-out after a command. -/
def missed (i : Instr) (s : State) : State := let t := run i s; later t.missTime t

/-- The peer is lost. -/
def lost : State := run (.chainBeatLost 0) (later beating.missTime beating)

theorem witness_SenderLoans_beats : SenderTakes 0 beat1 lending ∧ Pkt.type beat1 = 7 ∧ lending.isCross 0 = false ∧
    beating.rd .sender Reg.LOAN_BEAT_SEQ = 41 ∧ beating.rd .sender Reg.LOAN_BEAT_CHN = 1 ∧
    beating.rd .sender Reg.LOAN_STAT = 0x70600000 ∧
    lost.rd .sender Reg.LOAN_BEAT_CHN = 0 ∧ lost.snd.peerLost = true ∧ lost.pendBit .sender Ev.PEER_LOST = true ∧
    lost.pendBit .sender (Ev.CHAIN_BEAT_LOST 0) = true ∧ lost.rd .sender Reg.LOAN_STAT = 0x40600000 ∧
    (run (.beat 0 beat1) lost).snd.peerLost = false ∧ (run (.beat 0 beat1) lost).pendBit .sender Ev.PEER_FOUND = true ∧
    idle (.chainBeatLost 1) beating = true ∧ idle (.chainBeatLost 0) (later (beating.missTime - 1) beating) = true ∧ idle .xpathLost beating = true ∧
    idle (.loanXbeat 0x00600000) lending = true ∧
    (run (.loanXbeat 0x00600000) (beating.wrBit .sender Reg.LOAN_CTRL 29 true)).rd .sender Reg.LOAN_STAT = 0x78600000 ∧
    (run .xpathLost (missed (.loanXbeat 0x00600000) (beating.wrBit .sender Reg.LOAN_CTRL 29 true))).snd.peerLost = false ∧
    (run .xpathLost (missed (.loanXbeat 0x00600000) (lending.wrBit .sender Reg.LOAN_CTRL 29 true))).snd.peerLost = true ∧
    (run .xpathLost (missed (.loanXbeat 0x00600000) (lending.wrBit .sender Reg.LOAN_CTRL 29 true))).pendBit .sender
      Ev.XPATH_LOST = true ∧
    idle .beatSend net = true ∧ (run .beatSend claiming).snd.beatSeq = 1 ∧
    (run .beatSend claiming).out = [.packet (.chain 0) (mkPacket 7 0x7E 0 0x7E 0 [1, 0, 0x00600000])] := by
  unfold SenderTakes; decide +kernel

/-- The peer sender lends and may claim; A holds all its positions of chain 0; frames run. -/
def stock : State :=
  let s := ((framed 0).wr .sender Reg.LOAN_STAT 0x70600000).wr .sender Reg.LOAN_BEAT_CHN 1
  (s.wr .sender (Reg.LOAN_HELD_LO 0) 0xFF).wr .sender Reg.LOAN_STK_FRAME 4

/-- The stocktake commanded at time 0. -/
def going : State := run (.loanStkGo 1) stock

/-- The stocktake's release time. -/
def goE : Nat := ((framed 0).senderLatch 3).toNat

/-- The stocktake's release has been sent. -/
def gone : State := run (.stocktakeCheck true) (sndAt (goE - 1000000) going)

theorem witness_Stocktakes : stock.alive .sender = true ∧ bit (stock.rd .sender Reg.LOAN_STK_STAT) 31 = false ∧
    1100000 ≤ goE ∧ goE < 2 ^ 31 ∧
    going.snd.stkOne = some ⟨1, 4, 0, false, 0, none, 0⟩ ∧ going.rd .sender Reg.LOAN_STK_STAT = 0x80000000 ∧
    idle (.loanStkGo 1) going = true ∧ idle (.stocktakeCheck true) stock = true ∧ idle (.stocktakeResult true) stock = true ∧
    idle (.stocktakeCheck true) (sndAt (goE - 1000001) going) = true ∧
    AMap.find gone.snd.release 0 = some ⟨BitVec.ofNat 32 goE, 3⟩ ∧ gone.snd.stkOne.map (·.released) = some 1 ∧
    idle (.stocktakeResult true) (sndAt (goE + 2999999) gone) = true ∧
    (run (.stocktakeResult true) (sndAt (goE + 3000000) gone)).rd .sender Reg.LOAN_STK_STAT = 0x10000001 ∧
    (run (.stocktakeResult true) (sndAt (goE + 3000000) gone)).pendBit .sender Ev.STK_PARTIAL = true ∧
    (run (.stocktakeResult true) ((sndAt (goE + 3000000) gone).wr .sender (Reg.LOAN_HELD_LO 0) 0)).rd .sender
      Reg.LOAN_STK_STAT = 1 ∧
    (run (.stocktakeResult true) ((sndAt (goE + 3000000) gone).wr .sender (Reg.LOAN_HELD_LO 0) 0)).rd .sender
      Reg.LOAN_STK_COUNT = 1 := by decide +kernel

/-- The result of the check at its time. -/
def checkOf (s : State) : Nat × Bool :=
  let t := run (.stocktakeCheck true) (sndAt (goE - 1000000) s)
  ((t.rd .sender Reg.LOAN_STK_STAT).toNat / 2 ^ 28, t.pendBit .sender Ev.STK_SKIP)

theorem witness_Stocktakes_skip : checkOf (going.wr .sender Reg.LOAN_STK_HOLD 1) = (2, true) ∧
    checkOf (going.wr .sender Reg.LOAN_BEAT_CHN 0) = (3, true) ∧
    checkOf (going.wr .sender (Reg.LOAN_HELD_LO 0) 0) = (4, true) ∧
    checkOf (going.updSnd fun t => { t with stkOne := t.stkOne.map fun j => { j with goAt := goE - 1099999 } }) =
      (5, true) := by decide +kernel

/-- A stocktake every 16 frames, 3 frames in. -/
def timetable : State :=
  ((stock.wr .sender Reg.LOAN_STK_INT 16).wr .sender Reg.LOAN_STK_PHASE 3).wr .sender Reg.LOAN_STK_CHN 1

theorem witness_Stocktakes_schedule :
    (run (.stocktakeDue 35) timetable).snd.stkSched = some ⟨1, 35, 0, false, 0, none, 0⟩ ∧
    idle (.stocktakeDue 36) timetable = true ∧ idle (.stocktakeDue 3) stock = true ∧
    idle (.stocktakeDue 51) (run (.stocktakeDue 35) timetable) = true ∧
    (run (.stocktakeCheck false) (sndAt (goE - 1000000)
      (run (.stocktakeDue 3) (timetable.wr .sender Reg.LOAN_STK_STAT 0x80000000)))).rd .sender Reg.LOAN_STK_STAT =
        0xE0000000 := by decide +kernel

/-! ### The tile's pixels -/

/-- Sender A holds the tile; its frame schedule runs with one slot and the next latch point is that of frame 2. -/
def screen : State := lent (framed 0)

/-- A PIX of a frame, slot 0, for row y and pixel group c, all its pixels of one wall-code word. -/
def pix (f y c : Nat) (b : Bool) (ws : List Word) : Packet :=
  mkPacket 1 3 0 0x7E (BitVec.ofNat 32 (y * 2 ^ 25 + c * 2 ^ 23)) (BitVec.ofNat 32 f :: (if b then 0x80000000 else 0) :: ws)

/-- Payloads. -/
def zeros : List Word := List.replicate 84 0
def ones : List Word := List.replicate 84 0xFFFFFFFF

/-- What a PIX with a good CRC does. -/
def took (port : LnkPort) (k : Packet) (s : State) : State := (s.notFwd port.idx k false).pixTake port.idx k

/-- A packet made of its fields has a good CRC. -/
theorem made_crc (a b c d : Nat) (ts : Word) (body : List Word) : Pkt.crcOk (mkPacket a b c d ts body) = true := by
  unfold Pkt.crcOk Pkt.crc mkPacket
  simp only [List.getLastD_concat, List.dropLast_concat, beq_self_eq_true]

/-- With one bit of its CRC word changed it has a bad one, and is not stomped. -/
def flip (k : Packet) : Packet := k.dropLast ++ [Pkt.crc k ^^^ 1]

theorem flip_crc (k : Packet) : Pkt.crcOk (flip k) = false ∧ Pkt.stomped (flip k) = false := by
  have h : ∀ c x : Word, x ≠ 1 → (c ^^^ 1 == c ^^^ x) = false := by
    intro c x hx
    rw [beq_eq_false_iff_ne]
    intro e
    have := congrArg (c ^^^ ·) e
    simp only [← BitVec.xor_assoc, BitVec.xor_self, BitVec.zero_xor] at this
    exact hx this.symm
  unfold Pkt.crcOk Pkt.stomped flip Pkt.crc
  simp only [List.getLastD_concat, List.dropLast_concat]
  exact ⟨by simpa using h _ 0 (by decide), h _ _ (by decide)⟩

theorem test_pix {port : LnkPort} {k : Packet} {s : State} (p : port.part = .tile) (h : s.hears .tile port.idx = true)
    (u : (s.port .tile port.idx).unframed = false) (c : Pkt.hcrcOk k = true) (l : Pkt.lenOk k = true)
    (t : Pkt.type k = 1) (a : Pkt.dest k ≠ 0x7F) (d : s.destOwn k = true) (w : Pkt.crcOk k = true) :
    run (.pix port k) s = took port k s := by
  unfold took run
  simp only [exec, execPix, p]
  unfold State.headerGate
  rw [h, u, c, l]
  show (if Pkt.type k ≠ tPIX then s else if Pkt.dest k = 0x7F then _ else if (!s.destOwn k) = true then s else
    if Pkt.crcOk k = true then _ else _) = _
  rw [if_neg (fun e => e t), if_neg a, d, w]
  rfl

/-- Frame 9 is open, with packet (0, 0). -/
def opened : State := took .u (pix 9 0 0 false ones) screen

/-- What a PIX leaves: the receive set's state, its binding, frame, packets and missing count. -/
def rx (s : State) : Nat × Option Letter × Nat × List Nat × Nat :=
  (s.rxState, s.rxBound, (s.rd .tile Reg.PIX_RX_FRAME).toNat, s.til.pix.pixRx.map (·.1),
    (s.rd .tile Reg.PIX_RX_MISSING).toNat)

/-- A packet of frame 9 with a bad CRC. -/
def badPix : Packet := flip (pix 9 5 1 false ones)

/-- SYNC of a frame with NSLOT slots, the first starting at w. -/
def sync (f n w : Nat) : Packet :=
  mkPacket 2 3 0 0x7E (BitVec.ofNat 32 (n * 2 ^ 28)) (BitVec.ofNat 32 f :: 0 :: (List.range n).flatMap fun i =>
    [BitVec.ofNat 32 (w + i * 1000), 900])

/-- Frame 9 is closed. -/
def shut : State := run (.sync .u (sync 9 1 10000)) (opened.wr .tile Reg.PIX_CTRL 1)

/-- What a PIX left alone: the receive set. -/
def asBefore (i : Instr) (s : State) : Bool := decide (rx (run i s) = rx s)

theorem witness_PixReceived_stores : screen.hears .tile 0 = true ∧ (screen.port .tile 0).unframed = false ∧
    Pkt.hcrcOk badPix = true ∧ Pkt.lenOk badPix = true ∧ Pkt.type badPix = 1 ∧ screen.destOwn badPix = true ∧ Pkt.dest badPix ≠ 0x7F ∧
    Pkt.hcrcOk (pix 9 0 0 false ones) = true ∧ Pkt.lenOk (pix 9 0 0 false ones) = true ∧
    screen.holder = some .a ∧ screen.slots .tile = 1 ∧ screen.safe .tile = false ∧ screen.rxState = 0 ∧
    (took .d (pix 9 0 0 false ones) screen).rd .tile Reg.PIX_STRAY = 1 ∧
    (took .u (mkPacket 1 3 1 0x7E 0 (9 :: 0 :: ones)) screen).rd .tile Reg.PIX_STRAY = 1 ∧
    rx (took .d (pix 9 0 0 true ones) screen) = rx screen ∧
    took .u (pix 9 0 0 false ones) (screen.wr .tile Reg.FLT_STAT 0x80000000) = (screen.wr .tile Reg.FLT_STAT 0x80000000) ∧
    rx opened = (1, some .a, 9, [0], 511) ∧ AMap.find opened.til.pix.pixRx 0 = some ones ∧
    rx (took .u (pix 9 127 3 false zeros) opened) = (1, some .a, 9, [0, 511], 510) ∧
    (took .u (pix 9 0 0 false zeros) opened).rd .tile Reg.PIX_DUP = 1 ∧
    AMap.find (took .u (pix 9 0 0 false zeros) opened).til.pix.pixRx 0 = some ones := by decide +kernel

/-- A PIX for every tile, and one for position 4. -/
def pixTo (d : Nat) : Packet := mkPacket 1 d 0 0x7E 0 (9 :: 0 :: ones)

theorem witness_PixReceived_others : Pkt.crcOk (pixTo 0x7F) = true ∧ Pkt.dest (pixTo 0x7F) = 0x7F ∧
    Pkt.hcrcOk (pixTo 0x7F) = true ∧ Pkt.lenOk (pixTo 0x7F) = true ∧ (screen.fwd 0 (pixTo 0x7F)).out.length = 1 ∧
    Pkt.dest (pixTo 4) ≠ 0x7F ∧ screen.destOwn (pixTo 4) = false := by
  refine ⟨made_crc _ _ _ _ _ _, ?_⟩
  decide +kernel

theorem witness_PixReceived_frames : opened.rxState = 1 ∧ shut.rxState = 2 ∧
    rx (took .u (pix 10 0 1 false ones) opened) = (1, some .a, 10, [1], 511) ∧
    (took .u (pix 10 0 1 false ones) opened).rd .tile Reg.PIX_ABANDON = 1 ∧
    (took .u (pix 10 0 1 false ones) opened).pendBit .tile Ev.PIX_HOLD = true ∧
    rx (took .u (pix 10 0 1 false ones) shut) = (1, some .a, 10, [1], 511) ∧
    (took .u (pix 10 0 1 false ones) shut).rd .tile Reg.PIX_OVERRUN = 1 ∧
    (took .u (pix 10 0 1 false ones) shut).pendBit .tile Ev.PIX_OVERRUN = true ∧
    rx (took .u (pix 8 0 1 false ones) opened) = rx opened ∧
    (took .u (pix 8 0 1 false ones) opened).rd .tile Reg.PIX_STRAY = 1 ∧
    rx (took .u (pix 9 0 1 false ones) shut) = rx shut ∧
    (took .u (pix 9 0 1 false ones) shut).rd .tile Reg.PIX_STRAY = 0 ∧
    rx (took .d (pix 10 0 1 true ones) opened) = rx opened := by decide +kernel

/-- ABORT of a frame by sender A. -/
def abort (f : Nat) : Packet := mkPacket 8 3 0 0x7E 0x10000000 [BitVec.ofNat 32 f, 0]

theorem witness_FrameFateAndSlotWindows_aborts : TileTakes 0 (abort 9) opened ∧ TileTakes 0 (sync 9 1 10000) opened ∧
    Pkt.type (abort 9) = 8 ∧ Pkt.type (sync 9 1 10000) = 2 ∧ opened.rxState = 1 ∧ opened.rxBound = some .a ∧
    rx (run (.abort .u (abort 9)) opened) = (0, none, 9, [], 0) ∧
    (run (.abort .u (abort 9)) opened).rd .tile Reg.PIX_ABORTS = 1 ∧
    (run (.abort .u (abort 9)) opened).pendBit .tile Ev.PIX_ABORT = true ∧
    asBefore (.abort .u (abort 8)) opened = true ∧ asBefore (.abort .u (abort 9)) shut = true ∧
    rx (run (.sync .u (sync 9 2 10000)) opened) = (0, none, 9, [], 0) ∧
    (run (.sync .u (sync 9 2 10000)) opened).rd .tile Reg.PIX_STRAY = 1 ∧
    rx (run (.sync .u (sync 9 1 9999)) opened) = (0, none, 9, [], 0) ∧
    (run (.sync .u (sync 9 1 9999)) opened).rd .tile Reg.PIX_LATE = 1 ∧
    (run (.sync .u (sync 9 1 9999)) opened).pendBit .tile Ev.PIX_LATE = true ∧
    asBefore (.sync .u (sync 8 1 10000)) opened = true := by unfold TileTakes; decide +kernel

theorem witness_FrameFateAndSlotWindows_syncs : opened.noSigs = 0 ∧
    rx (run (.sync .u (sync 9 1 10000)) opened) = (0, none, 9, [], 0) ∧
    (run (.sync .u (sync 9 1 10000)) opened).rd .tile Reg.PIX_HELD = 1 ∧
    (run (.sync .u (sync 9 1 10000)) opened).rd .tile Reg.PIX_LOST = 511 ∧
    (run (.sync .u (sync 9 1 10000)) opened).pendBit .tile Ev.PIX_LOSS = true ∧
    (run (.sync .u (sync 9 1 10000)) opened).pendBit .tile Ev.PIX_HOLD = true ∧
    rx shut = (2, some .a, 9, [0], 511) ∧ shut.rd .tile Reg.PIX_HELD = 0 ∧
    shut.til.pix.sync = some ⟨9, 0x4800000, [(10000, 900)]⟩ := by decide +kernel

/-- The set of frame 9 is shown. -/
def shown : State := run .pixSwap (at' .tile 10000 shut)

theorem witness_FrameFateAndSlotWindows_swap : shut.alive .tile = true ∧ idle .pixSwap (at' .tile 9999 shut) = true ∧
    idle .pixSwap (at' .tile 10000 opened) = true ∧ idle .pixSwap screen = true ∧
    rx shown = (0, none, 9, [], 0) ∧ shown.til.pix.pixDisp.map (·.1) = [0] ∧ shown.rd .tile Reg.PIX_DISP_FRAME = 9 ∧
    shown.rd .tile Reg.PIX_SHOWN = 1 ∧ shown.pendBit .tile Ev.PIX_SWAP = true ∧
    shown.rd .tile Reg.PIX_STAT = 0x20000000 := by decide +kernel

/-- Slot 0 of frame 9 is scanned from 10,000 on. -/
def scanned : State := run (.slotWindowStart 9 0) shown

theorem witness_FrameFateAndSlotWindows_windows : shown.windowKnown 9 = true ∧ shown.slotStart 9 0 = 10000 ∧ shown.til.lmp.scan = none ∧
    shown.scans = true ∧ idle (.slotWindowStart 9 0) (at' .tile 9999 shown) = true ∧
    idle (.slotWindowStart 9 1) shown = true ∧ scanned.til.lmp.scan.map (·.start) = some 10000 ∧
    scanned.rd .tile Reg.SCAN_STAT = 0x80000000 ∧ idle (.slotWindowStart 9 0) scanned = true ∧
    (run (.slotWindowStart 9 0) (shown.wrBit .tile Reg.SCAN_CFG 31 false)).til.lmp.scan = none ∧
    (run (.slotWindowStart 9 0) (shown.wrBit .tile Reg.SCAN_CFG 31 false)).til.pix.lastSlot = some 0 ∧
    screen.slotStart 2 0 = 0x1000000 ∧ idle (.slotWindowStart 2 0) screen = true ∧
    (scanned.til.lmp.scan.map (·.stop)) =
      some (10000 + BitVec.ofNat 32 ((32 * (32768 + 32 * scanned.scanB 0)) * 5 / 2)) := by decide +kernel

/-- A SYNC of two slots, of which the second starts 1,000 ns after the first. -/
def two : State :=
  let s := (screen.wrFld .tile Reg.TIME_FRM_CTRL 3 0 2).wr .tile Reg.PIX_CTRL 1
  let s := run (.sync .u (sync 9 2 10000)) (took .u (pix 9 0 0 false ones) s)
  run (.slotWindowStart 9 0) (run .pixSwap (at' .tile 10000 s))

theorem witness_FrameFateAndSlotWindows_cut : idle (.slotWindowStart 9 1) (at' .tile 10999 two) = true ∧
    (run (.slotWindowStart 9 1) (at' .tile 11000 two)).rd .tile Reg.SCAN_CUT = 1 ∧
    (run (.slotWindowStart 9 1) (at' .tile 11000 two)).pendBit .tile Ev.SCAN_CUT = true ∧
    (run (.slotWindowStart 9 1) (at' .tile 11000 two)).rd .tile Reg.SCAN_STAT = 0x81000000 := by decide +kernel

/-- Region 5, four pixels of row 0, is declared for position 3 and slot 0, and holds the frame on a mismatch. -/
def region (s : State) : State :=
  ((((s.wrBit .tile Reg.LOAN_CTRL 31 false).wr .tile (Reg.SIG_POS 5) 0x80010003).wr .tile (Reg.SIG_XY 5) 0).wr .tile (Reg.SIG_WH 5) 0x00010004).wr .tile (Reg.SIG_ACT 5) 1

/-- The signature of the region of a set. -/
def sigOf (set : List (Nat × List Word)) : Word := (SigRegion.mk 0 0 4 1).crc set 0

/-- SIG of region e. -/
def sig (e f : Nat) (v : Word) (b : Bool) : Packet :=
  mkPacket 9 3 0 0x7E (BitVec.ofNat 32 (e * 2 ^ 26)) [BitVec.ofNat 32 f, v, if b then 0x80000000 else 0]

/-- The four pixels of ones are 24 bytes FF FF FF FF FF 03. -/
theorem test_signature : sigOf [(0, ones)] =
    crc32c [255, 255, 255, 255, 255, 3, 255, 255, 255, 255, 255, 3, 255, 255, 255, 255, 255, 3, 255, 255, 255, 255, 255, 3] := by
  decide +kernel

/-- The signatures counted: skipped, missed, last. -/
def sigs (s : State) : Nat × Nat × Word × Bool :=
  ((s.rd .tile Reg.SIG_SKIP).toNat, (s.rd .tile Reg.SIG_MISS).toNat, s.rd .tile Reg.SIG_LAST, s.pendBit .tile Ev.SIG_MISMATCH)

theorem witness_SignatureChecked : TileTakes 0 (sig 5 9 1 false) (region opened) ∧ Pkt.type (sig 5 9 1 false) = 9 ∧
    (region opened).sigDeclared 5 0 = true ∧ (region opened).standby = none ∧
    sigs (run (.sig .u (sig 5 9 (sigOf [(0, ones)]) false)) (region opened)) = (0, 0, 0, false) ∧
    (run (.sig .u (sig 5 9 (sigOf [(0, ones)]) false)) (region opened)).til.pix.sigGot = [40] ∧
    sigs (run (.sig .u (sig 5 9 1 false)) (region opened)) = (0, 1, 0x05000001, true) ∧
    (run (.sig .u (sig 5 9 1 false)) (region opened)).til.pix.rxMis = [40] ∧
    sigs (run (.sig .u (sig 5 9 1 false)) ((region opened).wr .tile (Reg.SIG_XY 5) 0x10000)) = (1, 0, 0, false) ∧
    sigs (run (.sig .u (sig 4 9 1 false)) (region opened)) = (0, 0, 0, false) ∧
    sigs (run (.sig .u (sig 5 8 1 false)) (region opened)) = (0, 0, 0, false) ∧
    (took .u (pix 9 0 0 false ones) (region screen)).rd .tile (Reg.SIG_VAL 5) = sigOf [(0, ones)] ∧
    (region opened).noSigs = 1 ∧
    (run (.sync .u (sync 9 1 10000)) ((run (.sig .u (sig 5 9 1 false)) (region opened)).wr .tile Reg.PIX_CTRL 1)).rd .tile
      Reg.PIX_HELD = 1 := by unfold TileTakes; decide +kernel

/-- The standby is checked: sender A has sent the value of the region. -/
def standby : State :=
  run (.sig .u (sig 5 9 (sigOf [(0, ones)]) false)) ((region opened).wrBit .tile Reg.LOAN_CTRL 31 true)

theorem witness_SignatureChecked_standby : standby.standby = some .b ∧
    TileTakes 1 (sig 5 9 (sigOf [(0, ones)]) true) standby ∧
    (AMap.find standby.til.pix.sbySig 40).map (·.frame) = some 9 ∧
    (AMap.find standby.til.pix.sbySig 40).bind (·.h) = some (sigOf [(0, ones)]) ∧
    (run (.sig .d (sig 5 9 (sigOf [(0, ones)]) true)) standby).rd .tile Reg.LOAN_SBY_MISS = 0 ∧
    (run (.sig .d (sig 5 9 (sigOf [(0, ones)]) true)) standby).rd .tile Reg.LOAN_SBY_FRAME = 9 ∧
    (run (.sig .d (sig 5 9 7 true)) standby).rd .tile Reg.LOAN_SBY_MISS = 1 ∧
    (run (.sig .d (sig 5 9 7 true)) standby).rd .tile Reg.LOAN_SBY_LAST = 0x05000000 ∧
    (run (.sig .d (sig 5 9 7 true)) standby).pendBit .tile Ev.STBY_MISMATCH = true := by unfold TileTakes; decide +kernel

/-- The lamps of pixel (x, y). -/
def lamps (x y : Nat) (s : State) : List Nat :=
  (List.range 3).map fun r => ((AMap.find s.til.lmp.drv (3 * (256 * y + x) + r)).map (·.p)).getD 0

/-- Codes are decoded to 16 times the code, correction is off and drive is on. -/
def plainDrive : State :=
  (scanned.wr .tile Reg.COR_CTRL 0).wr .tile (Reg.COR_DEC 0x3FFF) 0x80000

theorem witness_PixelCorrected : scanned.alive .tile = true ∧ scanned.scanS = 32 ∧
    idle (.pixelCorrect 0 0 .good 0 .good) shown = true ∧
    idle (.pixelCorrect 0 31 .good 0 .good) (scanned.wrFld .tile Reg.SCAN_CFG 21 16 31) = true ∧
    idle (.pixelCorrect 0 0 .good 0 .good) (scanned.wr .tile Reg.PIX_DARK 1) = true ∧
    scanned.shownCode 0 0 0 = some (2 ^ 42 - 1) ∧ scanned.shownCode 0 0 1 = none ∧ opened.shownCode 0 0 0 = none ∧
    lamps 0 0 (run (.pixelCorrect 0 0 .good 0 .good) plainDrive) = [0x8000, 0x8000, 0x8000] ∧
    lamps 0 1 (run (.pixelCorrect 0 1 .good 0 .good) plainDrive) = [0, 0, 0] ∧
    (run (.pixelCorrect 255 127 .double 511 .good) scanned).rd .tile Reg.PIX_ECC_UNCORR = 1 ∧
    (run (.pixelCorrect 255 127 .double 511 .good) scanned).rd .tile Reg.PIX_ECC_LAST = 0x003F01FF ∧
    (run (.pixelCorrect 255 127 .double 511 .good) scanned).rd .tile (Reg.PIX_SPARE_USED 7) = 0x10000000 ∧
    (run (.pixelCorrect 0 0 .double 0 .good) scanned).shownCode 0 15 0 = none ∧
    (run (.pixelCorrect 0 0 .double 0 .good) scanned).shownCode 0 16 0 = some (2 ^ 42 - 1) ∧
    (run (.pixelCorrect 0 0 .double 0 .good) scanned).pendBit .tile Ev.PIX_ECC_UNCORR = true ∧
    (run (.pixelCorrect 0 0 .double 0 .good) (scanned.wr .tile (Reg.PIX_SPARE_USED 0) 8)).rd .tile Reg.PIX_DARK = 1 ∧
    (run (.pixelCorrect 0 0 .double 0 .good) (scanned.wr .tile (Reg.PIX_SPARE_USED 0) 8)).pendBit .tile Ev.PIX_NOSPARE =
      true ∧
    (run (.pixelCorrect 0 0 .corrected 0 .good) scanned).rd .tile Reg.PIX_ECC_CORR = 1 := by decide +kernel

/-- The identity correction gives a lamp the value that its code decodes to. -/
theorem test_identity_correction :
    lamps 0 0 (run (.pixelCorrect 0 0 .good 0 .good) (plainDrive.wr .tile Reg.COR_CTRL 1)) = [0x8000, 0x8000, 0x8000] := by
  decide +kernel

/-- COR_BSTAT is idle, bank 0 active. -/
def banked : State := (screen.wr .tile Reg.COR_BSTAT 0).updPix fun x => { x with filling := false }


/-- A COR commit is pending. -/
def corLocked : State := banked.upd .tile fun c => { c with commit := some ⟨0x400, 1, .byFrame, false, 0⟩ }

theorem witness_CorrectionStore : banked.alive .tile = true ∧ banked.bitOf .tile Reg.COR_BSTAT 29 = false ∧
    banked.til.pix.filling = false ∧
    (run (.corScrub [⟨true, 63, 31, false⟩]) banked).rd .tile Reg.COR_ECC_CORR = 1 ∧
    (run (.corScrub [⟨true, 63, 31, true⟩]) banked).rd .tile Reg.COR_ECC_UNCORR = 1 ∧
    (run (.corScrub [⟨true, 63, 31, true⟩]) banked).rd .tile Reg.COR_ECC_LAST = 0x803F001F ∧
    (run (.corScrub [⟨true, 63, 31, true⟩]) banked).rd .tile (Reg.COR_SPARE_USED 7) = 0x40000000 ∧
    (run (.corScrub [⟨true, 63, 31, true⟩]) banked).pendBit .tile Ev.COR_ROW_LOST = true ∧
    (run (.corScrub [⟨true, 63, 31, true⟩]) (banked.wr .tile (Reg.COR_SPARE_USED 7) 0x80000000)).rd .tile Reg.PIX_DARK = 8 ∧
    (run (.corScrub [⟨true, 63, 31, true⟩]) (banked.wr .tile (Reg.COR_SPARE_USED 7) 0x80000000)).pendBit .tile Ev.COR_NOSPARE =
      true ∧
    (let s := run (.corScrub [⟨true, 63, 31, true⟩]) (banked.wr .tile Reg.PIX_DARK 8);
     s.rd .tile (Reg.COR_SPARE_USED 7) = 0 ∧ s.til.pix.corWait = [corRowKey true 63 31] ∧
     (run (.pixDarkClr 8) s).rd .tile (Reg.COR_SPARE_USED 7) = 0x40000000 ∧ (run (.pixDarkClr 8) s).til.pix.corWait = []) ∧
    (run (.pixDarkClr 5) (banked.wr .tile Reg.PIX_DARK 15)).rd .tile Reg.PIX_DARK = 10 ∧
    (run (.correctionWindowWrite 0x8EFFFC 77) banked).bankWord true 245759 = 77 ∧
    (run (.correctionWindowWrite 0x8EFFFC 77) banked).bankWord false 245759 = identityWord 245759 ∧
    (run (.correctionWindowWrite 0x800000 77) (banked.wrBit .tile Reg.COR_BSTAT 31 true)).bankWord false 0 = 77 ∧
    (run (.correctionWindowWrite 0x800000 77) banked).bitOf .tile Reg.COR_BSTAT 30 = true ∧
    (run (.correctionWindowWrite 0x800000 77) (banked.wrBit .tile Reg.COR_BSTAT 29 true)).rd .tile Reg.COR_WDROP = 1 ∧
    idle (.correctionWindowWrite 0x8F0000 77) banked = true ∧ idle (.correctionWindowWrite 0x800002 77) banked = true ∧
    idle (.correctionWindowWrite 0x7FFFFC 77) banked = true ∧ idle (.corScrub []) banked = true ∧
    (run (.correctionWindowWrite 0x800000 77) corLocked).rd .tile Reg.SYS_CMT_LOCKDROP = 1 ∧
    (run (.correctionWindowWrite 0x800000 77) corLocked).pendBit .tile Ev.SHADOW_LOCKED = true := by decide +kernel

/-- Word 3 of bank 0 differs, and the copy to bank 1 runs. -/
def copying : State :=
  run .corCopyGo ((run (.correctionWindowWrite 0x80000C 77) (banked.wrBit .tile Reg.COR_BSTAT 31 true)).wr .tile Reg.COR_BSTAT 0)

theorem witness_CorrectionStore_copy : copying.bitOf .tile Reg.COR_BSTAT 29 = true ∧ copying.bankWord false 3 = 77 ∧
    copying.bankWord true 3 = identityWord 3 ∧ (run .corCopyDone copying).bankWord true 3 = 77 ∧
    (run .corCopyDone copying).rd .tile Reg.COR_BSTAT = 0x40000000 ∧
    (run .corCopyDone copying).pendBit .tile Ev.COR_COPY_DONE = true ∧ idle .corCopyGo copying = true ∧
    idle .corCopyGo corLocked = true ∧ idle .corCopyDone banked = true ∧ idle .identityFillDone banked = true ∧
    (run .identityFillDone screen).til.pix.filling = false ∧
    (run .identityFillDone screen).bitOf .tile Reg.COR_BSTAT 29 = false ∧ idle .corCopyDone screen = true := by decide +kernel

/-! ### Lamps, trim, conversions -/

/-- A scan of slot 0 of frame 9 runs from time 1,000 on. -/
def scanning : State :=
  (screen.updLmp fun l => { l with scan := some ⟨9, 0, 1000, 3000000, 0⟩ }).wr .tile Reg.DIAG_CTRL 3

/-- Nothing is observed in a line slot. -/
def quiet : Sys2Proof.LineObs := ⟨[], [], [], [], []⟩

/-- The tile is in its safe state, scanning enabled. -/
def darkened : State := (screen.wr .tile Reg.FLT_STAT 0x80000000).wr .tile Reg.DIAG_CTRL 0x10000003

theorem witness_LineSlotsAndLamps : scanning.alive .tile = true ∧ scanning.scanS = 32 ∧ scanning.scanK = 32 ∧
    idle (.lineSlot quiet) screen = true ∧ idle (.lineSlot quiet) (at' .tile 999 scanning) = true ∧
    (run (.lineSlot quiet) (at' .tile 1000 scanning)).til.lmp.scan = some ⟨9, 0, 1000, 3000000, 1⟩ ∧
    (run (.lineSlot quiet) (at' .tile 1000 scanning)).rd .tile Reg.SCAN_STAT = 0x80000000 ∧
    (run (.lineSlot quiet) (at' .tile 1000 scanning)).til.lmp.scanned = 2 ^ scanning.scanLine 0 0 ∧
    scanning.fldOf .tile Reg.DIAG_CTRL 31 28 = 0 ∧
    (run (.lineSlot quiet) (at' .tile 4000000 (scanning.updLmp fun l =>
      { l with scan := some ⟨9, 0, 1000, 3000000, 1023⟩ }))).til.lmp.scan = some ⟨9, 0, 1000, 3000000, 1024⟩ ∧
    (run (.lineSlot quiet) (at' .tile 4000000 (scanning.updLmp fun l =>
      { l with scan := some ⟨9, 0, 1000, 3000000, 1023⟩ }))).rd .tile Reg.SCAN_STAT = 0x801F001F ∧
    idle (.lineSlot quiet) (at' .tile 4000000 (scanning.updLmp fun l =>
      { l with scan := some ⟨9, 0, 1000, 3000000, 1024⟩ })) = true := by decide +kernel

theorem witness_LineSlotsAndLamps_gates : darkened.safe .tile = true ∧ darkened.til.lmp.scan = none ∧
    gateFaults 0 [0] = [] ∧ gateFaults 127 [127] = [] ∧ gateFaults 5 [] = [(2, 5)] ∧ gateFaults 5 [5, 6] = [(1, 5)] ∧
    gateFaults 5 [5, 4] = [(1, 4)] ∧ gateFaults 5 [5, 7] = [(2, 7)] ∧
    (run (.lineSlot { quiet with gates := [0] }) darkened).til.lmp.gateNext = 1 ∧
    (run (.lineSlot { quiet with gates := [127] }) (darkened.updLmp fun l => { l with gateNext := 127 })).til.lmp.gateNext = 0 ∧
    idle (.lineSlot quiet) (darkened.wrBit .tile Reg.DIAG_CTRL 28 false) = true := by decide +kernel

/-- A gate that is found stuck CONFIRM times in a row darkens its region. -/
theorem test_gate_stuck :
    (run (.lineSlot quiet) (darkened.updLmp fun l => { l with gateRun := [(0, ([(2, 0)], 2))] })).rd .tile Reg.PIX_DARK = 1 ∧
    (run (.lineSlot quiet) (darkened.updLmp fun l => { l with gateRun := [(0, ([(2, 0)], 1))] })).rd .tile Reg.PIX_DARK = 0 :=
  by decide +kernel

/-- A lamp's state and count after a reading. -/
def reads (v : Lamp) (r : Reading) (s : State) : LampState × Nat × Bool :=
  let w := ((s.setLamp 1 2 v).takeReading 1 2 r).1.lamp 1 2
  (w.st, w.count, w.short)

theorem witness_LineSlotsAndLamps_readings : scanning.confirm = 3 ∧
    reads Lamp.reset .good scanning = (.good, 0, false) ∧ reads Lamp.reset .open_ scanning = (.suspect, 1, false) ∧
    reads { Lamp.reset with st := .good } .short scanning = (.suspect, 1, true) ∧
    reads { Lamp.reset with st := .suspect, count := 1, short := true } .short scanning = (.suspect, 2, true) ∧
    reads { Lamp.reset with st := .suspect, count := 2, short := true } .open_ scanning = (.suspect, 1, false) ∧
    reads { Lamp.reset with st := .suspect, count := 2, short := true } .good scanning = (.good, 0, true) := by
  decide +kernel

/-- The third faulty reading in a row declares the lamp, or begins a trial of a spare while REMAP_EN is 1. -/
theorem test_lamp_declared :
    reads { Lamp.reset with st := .suspect, count := 2, short := true } .short scanning = (.shortFault, 3, true) ∧
    reads { Lamp.reset with st := .suspect, count := 2, short := true } .short (scanning.wrBit .tile Reg.DIAG_CTRL 27 true) =
      (.trial, 0, true) := by decide +kernel

/-- Lamp (3, 50) is GOOD, its line's lamps have counted n frames, and it is measured. -/
def counted (n : Nat) : State :=
  ((scanning.wrBit .tile Reg.DIAG_CTRL 31 true).setLamp 3 50 { Lamp.reset with st := .good }).updLmp fun l =>
    { l with lineFrames := [(64 * 3 + 1, n)] }

theorem witness_LineSlotsAndLamps_unmeasured : (counted 256).measures 50 = true ∧ ((counted 256).lamp 3 50).st = .good ∧
    (counted 256).framesOf 3 50 = 256 ∧ idle (.lampUnmeasured 3 50) (counted 255) = true ∧
    idle (.lampUnmeasured 4 50) (counted 256) = true ∧ ((run (.lampUnmeasured 3 50) (counted 256)).lamp 3 50).st = .unmeasured ∧
    (run (.lampUnmeasured 3 50) (counted 256)).pendBit .tile (Ev.UNMEASURED 1) = true := by decide +kernel

/-- Lamps (0, 5) of block 0 and (31, 3071) of block 63 are declared; block 63 is of group 15. -/
def declared : State :=
  let s := (scanning.setLamp 0 5 { Lamp.reset with st := .openFault }).setLamp 31 3071 { Lamp.reset with st := .shortFault, short := true }
  ((((s.wr .tile (Reg.DIAG_FLIST 0) (flistWord 1 0 5)).wr .tile (Reg.DIAG_FLIST 1) (flistWord 2 31 3071)).wr .tile
    Reg.DIAG_STAT 0x80000002).wr .tile (Reg.DIAG_SG_MAP 7) 0xF0000000).wr .tile Reg.DIAG_SG_OFF 0x8001

theorem witness_LineSlotsAndLamps_groups : declared.flistN = 2 ∧ declared.inGroups 0x8000 3071 = true ∧ declared.inGroups 0x8000 5 = false ∧
    (run (.diagSgOffWrite 0x8000) declared).rd .tile Reg.DIAG_SG_OFF = 1 ∧
    (run (.diagSgOffWrite 0x8000) declared).flist = [flistWord 1 0 5] ∧
    ((run (.diagSgOffWrite 0x8000) declared).lamp 31 3071).st = .unmeasured ∧
    ((run (.diagSgOffWrite 0x8000) declared).lamp 0 5).st = .openFault ∧
    (run .diagFlistClr declared).rd .tile Reg.DIAG_STAT = 0 ∧ (run .diagFlistClr declared).flist = [] := by decide +kernel

/-- Time passes in the tile. -/
def pass (n : Nat) (s : State) : State := s.upd .tile fun c => { c with cycles := c.cycles + n / 2 }

/-- Trim runs, for n ns so far, with one reading a colour, of a two-byte read after a two-byte write. -/
def trimming (n : Nat) : State :=
  let s := ((screen.wr .tile Reg.TRIM_CTRL 0x80000000).wr .tile Reg.TRIM_I2C_CFG 0x00290022).wr .tile (Reg.TRIM_I2C_WR 0) 0x0305
  pass n (((s.wr .tile (Reg.TRIM_TGT 0) 1000).wr .tile Reg.TRIM_LIMIT 0xFFFF4000).wr .tile Reg.THM_DRV_MEAN 0x80000064)
def trims : State := trimming 1000000000

/-- The cycle and its step as TRIM_STAT shows it. -/
def trim (s : State) : Option (Nat × List Nat × Bool) × Word :=
  (s.til.lmp.trim.map fun t => (t.colour, t.readings, t.reading), s.trimStat)

/-- The cycle has begun; it writes; it has written; it reads. -/
def trim0 : State := run (.trimCycleStart 7 0 []) trims
def trim1 : State := pass 1000000 trim0
def trim2 : State := run (.trimI2cTransfer []) trim1
def trim3 : State := pass trim2.trimInteg trim2

theorem witness_TrimCycles_start : trims.alive .tile = true ∧ trims.refShort = false ∧ trims.til.lmp.trim = none ∧
    trims.til.lmp.trimLast = none ∧ idle (.trimCycleStart 7 0 []) (trimming 999999998) = true ∧
    trim trim0 = (some (0, [], false), 0x90000000) ∧ trim0.til.lmp.trimLast = some 1000000000 ∧
    trim (run (.trimCycleStart 4 0 []) trims) = (some (2, [], false), 0x92000000) ∧
    (run (.trimCycleStart 4 0 []) trims).rd .tile Reg.DIAG_REF_STAT = 0x30 ∧
    (run (.trimCycleStart 4 0 []) trims).pendBit .tile Ev.REF_OPEN = true ∧
    trim (run (.trimCycleStart 4 0 [3300, 3300]) trims) = (some (0, [], false), 0x90000000) ∧
    trim (run (.trimCycleStart 0 0 []) trims) = (none, 0) ∧
    (run (.trimCycleStart 0 0 []) trims).pendBit .tile Ev.TRIM_DONE = true ∧
    trim (run (.trimCycleStart 7 0 []) (trims.wr .tile Reg.FLT_STAT 0x80000000)) = (none, 0) ∧
    (run (.trimCycleStart 7 4 []) trims).rd .tile Reg.DIAG_REF_STAT = 2 ∧
    (run (.trimCycleStart 7 4 []) trims).pendBit .tile Ev.REF_SHORT = true ∧
    trim (run (.trimCycleStart 7 0 []) (pass 70000000000000 (run (.trimCycleStart 7 4 []) trims))) = (none, 0) ∧
    idle (.trimCycleStart 7 0 []) screen = true ∧ idle (.trimCycleStart 7 0 []) trim0 = true := by
  decide +kernel

theorem witness_TrimCycles_transfers : trim trim1 = (some (0, [], false), 0xA0000000) ∧
    trim2.out = [.i2c 1000 [0x52, 5, 3]] ∧ trim trim2 = (some (0, [], true), 0xB0000000) ∧
    trim trim3 = (some (0, [], true), 0xC0000000) ∧ idle (.trimI2cTransfer []) trim2 = true ∧
    (run (.trimI2cTransfer [0x03, 0xE8]) (trim3.wr .tile (Reg.TRIM_CH 0) 0x10)).rd .tile (Reg.TRIM_MEAS 0) = 1000 ∧
    (run (.trimI2cTransfer [0x03, 0xE8]) (trim3.wr .tile (Reg.TRIM_CH 0) 0x10)).rd .tile (Reg.TRIM_TARGET 0) = 0x80008000 ∧
    (run (.trimI2cTransfer [0xE8, 0x03]) (trim3.wr .tile (Reg.TRIM_CH 0) 0)).rd .tile (Reg.TRIM_MEAS 0) = 1000 ∧
    trim (run (.trimI2cTransfer [0xE8, 0x03]) (trim3.wr .tile (Reg.TRIM_CH 0) 0)) = (some (1, [], false), 0x91000000) ∧
    trim (run (.trimI2cTransfer [0xE8, 0x03]) (trim3.wr .tile Reg.TRIM_CTRL 0x80000001)) =
      (some (0, [1000], false), 0xA0000000) ∧
    (run (.trimI2cTransfer [0, 0]) trim3).pendBit .tile Ev.TRIM_RANGE = true ∧
    (run (.trimI2cTransfer [0, 0]) trim3).rd .tile (Reg.TRIM_TARGET 0) = trim3.rd .tile (Reg.TRIM_TARGET 0) ∧
    (run (.trimI2cTransfer [0x01, 0x00]) (trim3.wr .tile (Reg.TRIM_CH 0) 0)).rd .tile (Reg.TRIM_TARGET 0) = 0x8000FFFF ∧
    (run (.trimI2cTransfer [0x01, 0x00]) (trim3.wr .tile (Reg.TRIM_CH 0) 0)).pendBit .tile Ev.TRIM_RANGE = true := by
  decide +kernel

/-- A transfer has failed once; its second try runs. -/
def failed1 : State := run .trimI2cErr trim1
def retried : State := run .trimI2cRetry (pass 10000000 failed1)

theorem witness_TrimCycles_errors : idle (.trimI2cTransfer []) trims = true ∧ idle .trimI2cErr trims = true ∧
    idle .trimI2cRetry trims = true ∧ idle .trimI2cRetry trim1 = true ∧ idle .trimI2cErr trim0 = true ∧
    failed1.rd .tile Reg.TRIM_I2C_ERRS = 1 ∧ failed1.pendBit .tile Ev.TRIM_I2C_ERR = true ∧ failed1.out = [.i2cClear] ∧
    trim failed1 = (some (0, [], false), 0xD0000000) ∧ idle .trimI2cErr failed1 = true ∧
    idle .trimI2cRetry (pass 9999998 failed1) = true ∧
    trim retried = (some (0, [], false), 0xA0000000) ∧
    trim (run .trimI2cErr retried) = (none, 0) ∧
    (run .trimI2cErr (retried.wr .tile (Reg.TRIM_TARGET 0) 5)).rd .tile (Reg.TRIM_TARGET 0) =
      trims.rd .tile (Reg.TRIM_TARGET 0) := by decide +kernel

/-- A count at which a sensor of the tile reads 25 °C, whatever its trims are. -/
def warm (i : Nat) : BitVec 20 := if Config.thmN0 .tile i = 0 then 1 else Config.thmN0 .tile i

theorem warm_temp (i : Nat) : sensorTemp .tile i (warm i).toNat = 100 ∧ (warm i).toNat ≠ 0 := by
  unfold sensorTemp warm asr
  have h := (Config.thmK .tile i).toInt_lt
  have l := (Config.thmK .tile i).le_toInt
  simp only [Nat.reduceSub, Int.reducePow, Int.reduceNeg] at h l
  split
  · rename_i h0
    rw [h0]
    refine ⟨?_, by decide⟩
    have : (((1 : BitVec 20).toNat : Int) - ((0 : BitVec 20).toNat : Int)) * (Config.thmK .tile i).toInt + 32768 =
      (Config.thmK .tile i).toInt + 32768 := by simp
    rw [this]
    omega
  · rename_i h0
    refine ⟨?_, fun h => h0 (by apply BitVec.eq_of_toNat_eq; simpa using h)⟩
    rw [Int.sub_self, Int.zero_mul]
    decide

/-- A conversion of the tile at 25 °C, with no neighbour checks, THM_SHUT at 25 °C, three times reached. -/
def hot : State :=
  (((screen.wr .tile Reg.THM_CTRL 0x80000000).wr .tile Reg.THM_SHUT 100).wr .tile Reg.TIME_FRM_CTRL 0).upd .tile fun c =>
    { c with thm := { c.thm with shutRun := 3 } }

/-- The counts of the tile's sensors. -/
def counts : List (BitVec 20) := (List.range 20).map warm

theorem witness_Conversions_sensors : hot.sensorsNow .tile (counts.map BitVec.toNat) =
    (List.range 20).map fun _ => ⟨100, false, false, 1, 0⟩ := by
  unfold State.sensorsNow
  apply List.map_congr_left
  intro i hi
  have hi : i < 20 := List.mem_range.mp hi
  have hc : (counts.map BitVec.toNat).getD i 0 = (warm i).toNat := by
    unfold counts
    simp [List.getD_eq_getElem?_getD, hi]
  have hb : sensorBad (warm i).toNat (sensorTemp .tile i (warm i).toNat) = false := by
    unfold sensorBad
    rw [(warm_temp i).1]
    simp [(warm_temp i).2]
  have hf : hot.sensorFault .tile i (warm i).toNat = (false, 1) := by
    unfold State.sensorFault
    rw [hb]
    have : ∀ j, j < 20 → (hot.chip .tile).thm.clean.getD j 0 = 0 ∧ hot.bitOf .tile Reg.THM_FAULT j = false := by decide +kernel
    rw [(this i hi).1, (this i hi).2]
    rfl
  have ht : hot.bitOf .tile Reg.THM_CTRL 29 = false := by decide +kernel
  simp only [hc, hf, ht, (warm_temp i).1]
  rfl

theorem witness_Conversions : hot.alive .tile = true ∧ hot.lehr .tile = false ∧
    maxTemp (validTemps (hot.sensorsNow .tile (counts.map BitVec.toNat)) 0 20) = some 100 ∧
    hot.bitOf .tile Reg.THM_CTRL 31 = true ∧ (hot.chip .tile).thm.shutRun = 3 ∧ hot.tempOf .tile Reg.THM_SHUT = 100 ∧
    hot.schedOn .tile = false := by
  rw [witness_Conversions_sensors]
  decide +kernel

/-- The tile is in its lehr state and has been cool for n conversions. -/
def cooled (n : Nat) : State :=
  ((screen.wr .tile Reg.THM_STAT 0x80000000).wr .tile Reg.TIME_FRM_CTRL 0).upd .tile fun c =>
    { c with thm := { c.thm with coolRun := n } }

theorem witness_Conversions_exit : idle (.thmLehrExitWrite .tile) screen = true ∧ (cooled 1000).schedOn .tile = false ∧
    ((run (.thmLehrExitWrite .tile) (cooled 999)).lehr .tile) = true ∧
    ((run (.thmLehrExitWrite .tile) (cooled 1000)).lehr .tile) = false ∧
    (run (.thmLehrExitWrite .tile) (cooled 1000)).pendBit .tile Ev.THM_LEHR_EXIT = true ∧
    (run (.thmLehrExitWrite .tile) (cooled 999)).tile.thm.permit = true := by decide +kernel

/-! ### Identity, digests, update -/

/-- A challenge runs in a part's signing engine. -/
def signing (p : Part) : State := up.wr p Reg.IDN_CHAL_STAT 0x80000000

/-- A Porval challenge runs in the tile's signing engine. -/
def pvSigning : State := { up with pvd := { up.pvd with powered := true, busy := true } }

/-- The verify engine has checked. -/
def checked (p : Part) (b : Bool) : State := up.upd p fun c => { c with vfy := some b }

theorem witness_IdentityEngines : up.alive .sender = true ∧ up.alive .tile = true ∧
    (∀ p : Part, up.signBusy p = false ∧ (signing p).signBusy p = true ∧
      (run (.idnChalGo p) up).rd p Reg.IDN_CHAL_STAT = 0x80000000 ∧
      (run (.idnChalGo p) (signing p)).rd p Reg.IDN_CHAL_STAT = 0xA0000000 ∧
      (signing p).bitOf p Reg.IDN_CHAL_STAT 31 = true ∧ idle (.chalDone p) up = true ∧
      (run (.idnVfyHash p) up).rd p Reg.IDN_VFY_STAT = 0x80000000 ∧
      (run (.idnVfyChallenge p true) up).rd p Reg.IDN_VFY_STAT = 0x80000000 ∧
      idle (.idnVfyHash p) (up.wr p Reg.IDN_VFY_STAT 0x80000000) = true ∧
      idle (.idnVfyChallenge p true) (up.wr p Reg.IDN_VFY_STAT 0x80000000) = true ∧ idle (.vfyDone p) up = true ∧
      (run (.vfyDone p) (checked p true)).rd p Reg.IDN_VFY_STAT = 0x60000000 ∧
      (run (.vfyDone p) (checked p false)).rd p Reg.IDN_VFY_STAT = 0x40000000 ∧
      (run (.vfyDone p) (checked p false)).pendBit p (Ev.VFY_DONE p) = true ∧
      (run (.idnRandRead p) up).draws = up.draws + 1) ∧
    pvSigning.pvd.powered = true ∧ pvSigning.pvd.busy = true ∧ (run (.chalDone .tile) pvSigning).pvd.busy = false := by
  refine ⟨by decide +kernel, by decide +kernel, ?_, by decide +kernel, by decide +kernel, by decide +kernel⟩
  intro p
  cases p <;> decide +kernel

/-- DIGEST packets: REQUEST and CHAIN to the tile, CHAIN and CATALOGUE back to the sender. -/
def request : Packet := mkPacket 0xA 3 0 0x7E 0 [0, 0, 0, 0, 0]
def chain : Packet := mkPacket 0xA 0x7F 0 0x7E 0x20000000 [5, 1, 2, 3, 4]
def chainBack : Packet := mkPacket 0xA 0x7E 0 7 0x20000000 [5, 1, 2, 3, 4]
def catalogue (n : Nat) : Packet := mkPacket 0xA 0x7E 0 n 0x10000000 [5, 1, 2, 3, 4]

/-- The recomputation of a catalogue digest runs. -/
def recomputing (s : State) : State := s.wrBit .tile Reg.IDN_CAT_STAT 30 true

theorem witness_CatalogueDigests : (run (.idnGenWrite .tile 9) up).rd .tile Reg.IDN_GEN = 9 ∧
    (run (.idnGenWrite .tile 9) up).rd .tile Reg.IDN_CAT_STAT = 0x40000000 ∧ idle (.catReady .tile) up = true ∧
    (recomputing up).bitOf .tile Reg.IDN_CAT_STAT 30 = true ∧
    TileTakes 0 request net ∧ TileTakes 0 request (recomputing net) ∧ TileTakes 0 chain net ∧
    Pkt.is request 0xA 0 = true ∧ Pkt.is chain 0xA 2 = true ∧
    (run (.digestRequest .u request) (recomputing net)).til.digestDue = [0] ∧
    ((run (.digestRequest .u request) net).port .tile 0).own =
      [mkPacket 0xA 0x7E 0 3 0x10000000 [net.rd .tile Reg.IDN_GEN, net.rd .tile (Reg.IDN_CAT 0), net.rd .tile (Reg.IDN_CAT 1),
        net.rd .tile (Reg.IDN_CAT 2), net.rd .tile (Reg.IDN_CAT 3)]] ∧
    net.txActive .tile 1 = true ∧ ((run (.digestChain .u chain) net).port .tile 1).own.map Pkt.src = [3] ∧
    (net.wr .tile (Reg.LNK_STAT 1) 0).txActive .tile 1 = false ∧
    ((run (.digestChain .u chain) (net.wr .tile (Reg.LNK_STAT 1) 0)).port .tile 1).own = [] := by
  unfold TileTakes; decide +kernel

theorem witness_CatalogueDigests_sender : SenderTakes 0 chainBack net ∧ SenderTakes 0 (catalogue 63) net ∧
    SenderTakes 0 (catalogue 64) net ∧ Pkt.is chainBack 0xA 2 = true ∧ Pkt.is (catalogue 63) 0xA 1 = true ∧
    (run (.digestChain (.chain 0) chainBack) net).rd .sender (Reg.IDN_CHAIN_RX 0 3) = 4 ∧
    (run (.digestChain (.chain 0) chainBack) net).rd .sender (Reg.IDN_CHAIN_GEN 0) = 5 ∧
    (run (.digestChain (.chain 0) chainBack) net).rd .sender (Reg.IDN_CHAIN_STAT 0) = 0x80000007 ∧
    (run (.digestChain (.chain 0) chainBack) net).pendBit .sender Ev.CHAIN_RX = true ∧
    (run (.digestCatalogue 0 (catalogue 63)) net).rd .sender (Reg.IDN_CATRX 0 63 0) = 1 ∧
    (run (.digestCatalogue 0 (catalogue 63)) net).rd .sender (Reg.IDN_CATRX_MAP_HI 0) = 0x80000000 ∧
    (run (.digestCatalogue 0 (catalogue 63)) net).pendBit .sender Ev.CATRX = true ∧
    idle (.digestCatalogue 0 (catalogue 64)) net = true ∧
    (run (.idnDigChain 1) net).out = [.packet (.chain 0) (mkPacket 0xA 0x7F 0 0x7E 0x20000000
      [net.rd .sender Reg.IDN_GEN, net.rd .sender (Reg.IDN_CAT 0), net.rd .sender (Reg.IDN_CAT 1),
        net.rd .sender (Reg.IDN_CAT 2), net.rd .sender (Reg.IDN_CAT 3)])] ∧
    (run (.idnDigRequest 1) (net.wr .sender (Reg.IDN_CATRX_MAP_HI 0) 7)).rd .sender (Reg.IDN_CATRX_MAP_HI 0) = 0 ∧
    (run (.idnDigRequest 1) net).out = [.packet (.chain 0) (mkPacket 0xA 0x7F 0 0x7E 0 [0, 0, 0, 0, 0])] ∧
    (run (.idnDigChain 2) net).out = [] := by
  unfold SenderTakes; decide +kernel

/-- A part in a stage of UPD_STAT. -/
def staged (p : Part) (v : Nat) (s : State) : State := s.wrFld p Reg.UPD_STAT 31 29 v

/-- A CONTROL packet with an OP and two arguments. -/
def control (op : Nat) (a b : Word) : Packet :=
  mkPacket 0xB 3 0 0x7E 0x20001200 [0, BitVec.ofNat 32 (op * 2 ^ 16 + 2), a, b]

/-- ERR, stage, BUSY and the statuses of the ACKs that wait at port U. -/
def upd (p : Part) (s : State) : Nat × Nat × Bool × List Nat :=
  (s.fldOf p Reg.UPD_STAT 23 16, s.stage p, s.updBusy p,
    (s.port .tile 0).own.map fun k => (Pkt.w k 3).toNat / 65536)

theorem witness_UpdateCommandsAndTrial : TileTakes 0 (control 2 0 0) net ∧ Pkt.is (control 2 0 0) 0xB 2 = true ∧
    up.stage .sender = 0 ∧ up.updBusy .sender = false ∧
    upd .sender (run (.updVerify (.core .sender)) up) = (0x10, 0, false, []) ∧
    upd .sender (run (.updVerify (.core .sender)) ((staged .sender 1 up).wrBit .sender Reg.UPD_STAT 28 true)) =
      (0x10, 1, true, []) ∧
    upd .sender (run (.updActivate (.core .sender)) (staged .sender 1 up)) = (0x10, 1, false, []) ∧
    upd .sender (run (.updConfirm (.core .sender)) (staged .sender 5 up)) = (0x10, 5, false, []) ∧
    upd .sender (run (.updAbort (.core .sender)) (staged .sender 4 up)) = (0x10, 4, false, []) ∧
    upd .sender (run (.updOpen (.core .sender) true) (staged .sender 3 up)) = (0x10, 3, false, []) ∧
    upd .sender (run .updLoad up) = (0x10, 0, false, []) ∧
    net.fromHolder .a = true ∧ (lentB net).fromHolder .a = false ∧
    upd .tile (run (.updVerify (.packet .u (control 2 0 0))) (lentB net)) = (0, 0, false, []) ∧
    upd .tile (run (.updVerify (.packet .u (control 2 0 0))) net) = (0, 0, false, [3]) ∧
    upd .tile (run (.updVerify (.packet .u (control 2 0 0))) ((staged .tile 1 net).wrBit .tile Reg.UPD_STAT 28 true)) =
      (0, 1, true, [1]) ∧
    upd .tile (run (.updQuery .u (control 6 0 0)) net) = (0, 0, false, [0]) ∧
    upd .tile (run (.updQuery .u (control 6 0 0)) (lentB net)) = (0, 0, false, []) := by
  unfold TileTakes; decide +kernel

/-- A program of EPOCH 5 and version 77 is on trial. -/
def trial (p : Part) (s : State) : State :=
  ((staged p 4 s).wr p Reg.UPD_ACT_VER 77).updUpd p fun u =>
    { u with running := .trial, epoch := 5, confLeft := some 9 }

/-- Its confirmation timer is at 0. -/
def timedOut : State := (trial .tile net).updUpd .tile fun u => { u with confLeft := some 0 }

theorem witness_UpdateCommandsAndTrial_trial : UpdRuns (.core .tile) 4 (trial .tile net) ∧ UpdRuns (.packet .u (control 4 0 0)) 4 (trial .tile net) ∧
    UpdRuns (.core .sender) 5 (staged .sender 2 up) ∧ UpdRuns (.packet .u (control 5 0 0)) 5 (staged .tile 1 net) ∧
    (run (.updConfirm (.core .tile)) (trial .tile net)).rd .tile Reg.UPD_EPOCH = 5 ∧
    (run (.updConfirm (.core .tile)) ((trial .tile net).wr .tile Reg.UPD_EPOCH 6)).rd .tile Reg.UPD_EPOCH = 6 ∧
    (run (.updConfirm (.core .tile)) (trial .tile net)).rd .tile Reg.UPD_FLOOR = 77 ∧
    upd .tile (run (.updConfirm (.packet .u (control 4 0 0))) (trial .tile net)) = (0, 0, false, [0]) ∧
    (run (.updConfirm (.core .tile)) (trial .tile net)).pendBit .tile (Ev.UPD_CONFIRMED .tile) = true ∧
    upd .sender (run (.updAbort (.core .sender)) (staged .sender 2 up)) = (0, 0, false, []) ∧
    (run (.updAbort (.core .sender)) (staged .sender 2 up)).pendBit .sender (Ev.UPD_STAGE .sender) = true ∧
    upd .tile (run (.updAbort (.packet .u (control 5 0 0))) (staged .tile 1 net)) = (0, 0, false, [0]) ∧
    idle (.confirmTimeout .tile) net = true ∧ idle (.confirmTimeout .tile) (trial .tile net) = true ∧
    idle (.confirmTimeout .tile) (timedOut.wr .tile Reg.FLT_STAT 0x80000000) = true ∧
    (run (.confirmTimeout .tile) timedOut).tile.phase = .booting ∧
    (run (.confirmTimeout .tile) timedOut).rd .tile Reg.SYS_RST_CAUSE = 0x50000310 ∧
    (run (.confirmTimeout .tile) timedOut).fldOf .tile Reg.SYS_RST_COUNT 31 16 = 1 := by
  unfold UpdRuns TileTakes; decide +kernel

/-- LEN of the download written. -/
def lenOf (p : Part) (n : Nat) (s : State) : State := s.wr p Reg.UPD_DL_LEN (BitVec.ofNat 32 n)

/-- OPEN of 640 bytes by a packet of session 0x12. -/
def openPkt (n : Nat) (target : Word) : Packet := control 1 target (BitVec.ofNat 32 n)

theorem witness_Download_open : UpdRuns (.core .sender) 1 up ∧ UpdRuns (.packet .u (openPkt 640 0)) 1 net ∧
    upd .sender (run (.updOpen (.core .sender) false) (lenOf .sender 636 up)) = (0x11, 0, false, []) ∧
    upd .sender (run (.updOpen (.core .sender) false) (lenOf .sender 642 up)) = (0x11, 0, false, []) ∧
    upd .sender (run (.updOpen (.core .sender) false) (lenOf .sender 0x200004 up)) = (0x11, 0, false, []) ∧
    upd .sender (run (.updOpen (.core .sender) false) (lenOf .sender 0x200000 up)) = (0, 1, true, []) ∧
    upd .sender (run (.updOpen (.core .sender) false) (lenOf .sender 640 up)) = (0, 1, true, []) ∧
    (run (.updOpen (.core .sender) false) (lenOf .sender 640 up)).pendBit .sender (Ev.UPD_STAGE .sender) = true ∧
    upd .tile (run (.updOpen (.packet .u (openPkt 636 0)) false) net) = (0x11, 0, false, [3]) ∧
    upd .tile (run (.updOpen (.packet .u (openPkt 0x40004 0)) false) net) = (0x11, 0, false, [3]) ∧
    upd .tile (run (.updOpen (.packet .u (openPkt 0x40004 1)) false) net) = (0, 1, true, []) ∧
    (run (.updOpen (.packet .u (openPkt 0x40004 1)) false) net).bitOf .tile Reg.UPD_STAT 27 = true ∧
    (run (.updOpen (.packet .u (openPkt 640 0)) false) net).tile.upd.session = some 0x12 ∧
    (run (.updOpen (.packet .u (openPkt 640 0)) false) net).rd .tile Reg.UPD_SESSION = 0x12 := by
  unfold UpdRuns TileTakes; decide +kernel

/-- The tile's staging slot holds a byte at each end of its first 64 KiB, and a download of 640 bytes is open. -/
noncomputable def opening : State :=
  (run (.updOpen (.packet .u (openPkt 640 0)) false) net).upd .tile fun c =>
    { c with flash := [(0x5FFFF, 1), (0x60000, 2), (0x6FFFF, 3), (0x70000, 4)] }

/-- The erase has ended; a DATA packet of 8 bytes at an offset. -/
noncomputable def ready : State := run (.updEraseDone .tile true) opening
def data (off : Nat) : Packet := mkPacket 0xB 3 0 0x7E 0x00001200 [BitVec.ofNat 32 off, 2, 0x04030201, 0x08070605]
noncomputable def one : State := run (.updData .u (data 0)) ready

theorem witness_Download_data : opening.tile.upd.job = .erase ∧ opening.alive .tile = true ∧
    idle (.updEraseDone .tile true) net = true ∧ upd .tile ready = (0, 1, false, [0]) ∧
    (([0x5FFFF, 0x60000, 0x6FFFF, 0x70000] : List Nat).map fun a => ready.flashAt .tile a) = [1, 0xFF, 0xFF, 4] ∧
    upd .tile (run (.updEraseDone .tile false) opening) = (0, 0, false, [5]) ∧
    (run (.updEraseDone .tile false) opening).pendBit .tile (Ev.UPD_FLASH_ERR .tile) = true ∧
    TileTakes 0 (data 0) ready ∧ Pkt.is (data 0) 0xB 0 = true ∧
    one.tile.upd.waiting = [⟨0, [0x04030201, 0x08070605], .a, 0x12⟩] ∧ one.rd .tile Reg.UPD_DL_NEXT = 8 ∧
    upd .tile one = (0, 1, false, [0, 0]) ∧ upd .tile (run (.updData .u (data 4)) ready) = (0, 1, false, [0, 2]) ∧
    upd .tile (run (.updData .u (data 0)) net) = (0, 0, false, [3]) ∧
    upd .tile (run (.updData .u (data 0)) (lentB ready)) = (0, 1, false, [0]) ∧
    upd .tile (run (.updData .u (data 8)) (one.updUpd .tile fun u => { u with waiting := u.waiting ++ u.waiting ++ u.waiting ++
      u.waiting })) = (0, 1, false, [0, 0, 1]) ∧
    idle (.updDataProgrammed true) ready = true ∧ idle (.updDataProgrammed true) opening = true ∧
    (run (.updDataProgrammed true) one).tile.upd.waiting = [] ∧
    (List.range 9).map (fun i => (run (.updDataProgrammed true) one).flashAt .tile (0x60000 + i)) =
      [1, 2, 3, 4, 5, 6, 7, 8, 0xFF] ∧
    upd .tile (run (.updDataProgrammed false) one) = (0, 0, false, [0, 0, 5]) := by unfold TileTakes; decide +kernel

/-- The sender copies 8 bytes of frame memory into its staging slot. -/
def loading : State :=
  run .updLoad ((lenOf .sender 8 (staged .sender 1 (ram up))).wr .sender Reg.UPD_DL_SRC 0x10)

theorem witness_Download_load : loading.alive .sender = true ∧ loading.sender.upd.job = .load 0 0x100 8 ∧
    idle (.updLoadDone true) up = true ∧ upd .sender (run (.updLoadDone true) loading) = (0, 1, false, []) ∧
    (run (.updLoadDone true) loading).rd .sender Reg.UPD_DL_NEXT = 8 ∧
    (run (.updLoadDone true) loading).flashAt .sender 0x220007 = 0 ∧
    (run (.updLoadDone true) loading).flashAt .sender 0x220008 = 0xFF ∧
    upd .sender (run (.updLoadDone false) loading) = (0, 0, false, []) ∧
    (run (.updLoadDone false) loading).pendBit .sender (Ev.UPD_FLASH_ERR .sender) = true := by decide +kernel

/-- The tile's journal holds a record in sector A. -/
def journal (r : BootRec) (s : State) : State := s.flashPut .tile 0 r.bytes

/-- A record of SEQ 7. -/
def rec7 (state boots progress nblk : Nat) : BootRec := ⟨7, state, boots, progress, true, 3, nblk, List.replicate 32 0⟩

/-- A correction image is VERIFIED. -/
def switching : State := journal (rec7 0 0 0 0) ((staged .tile 2 up).wrBit .tile Reg.UPD_STAT 27 true)

/-- The punty loader has copied all of one block. -/
def copied (again : Bool) : State :=
  (journal (rec7 1 0 1 1) (staged .tile 3 up)).updUpd .tile fun u => { u with again := again }

/-- The checks run over an empty slot. -/
noncomputable def verifying : State := run (.updVerify (.core .tile)) (staged .tile 1 up)

theorem witness_VerifyAndActivate : UpdRuns (.core .tile) 2 (staged .tile 1 up) ∧ UpdRuns (.core .tile) 3 (staged .tile 2 up) ∧
    verifying.tile.upd.job = .verify ∧ verifying.tile.upd.waiting = [] ∧ upd .tile verifying = (0, 1, true, []) ∧
    verifying.imgErr .tile 0x60000 false (fun n => n == 0) = some 1 ∧ idle (.updVerifyDone .tile) up = true ∧
    upd .tile (run (.updVerifyDone .tile) verifying) = (1, 0, false, []) ∧
    (run (.updVerifyDone .tile) verifying).pendBit .tile (Ev.UPD_VERIFY_FAIL .tile) = true ∧
    (up.bootRec .tile).state = 0 ∧ (up.bootRec .tile).corSel = false ∧ idle (.puntyBlockCopied .tile) up = true ∧
    idle (.puntyCopyDone .tile) up = true := by unfold UpdRuns; decide +kernel

theorem witness_VerifyAndActivate_journal : UpdRuns (.core .tile) 3 switching ∧ switching.stage .tile = 2 ∧
    switching.bitOf .tile Reg.UPD_STAT 27 = true ∧ switching.bootRec .tile = rec7 0 0 0 0 ∧
    (switching.putRec .tile (rec7 1 2 3 4)).bootRec .tile = { rec7 1 2 3 4 with seq := 8 } ∧
    ((switching.putRec .tile (rec7 1 2 3 4)).putRec .tile (rec7 2 0 0 0)).bootRec .tile = { rec7 2 0 0 0 with seq := 9 } ∧
    (copied false).stage .tile = 3 ∧ (copied false).bootRec .tile = rec7 1 0 1 1 ∧
    (journal (rec7 1 0 0 1) (staged .tile 3 up)).bootRec .tile = rec7 1 0 0 1 ∧
    idle (.puntyCopyDone .tile) (journal (rec7 1 0 0 1) (staged .tile 3 up)) = true ∧
    (copied false).alive .tile = true ∧ idle (.puntyBlockCopied .tile) (copied false) = true := by unfold UpdRuns; decide +kernel

/-- A transmit run of 12 bytes to position 3 of chain 0, session 0x12. -/
def sendable : State :=
  ((((ram net).wr .sender Reg.UPD_TX_DEST 0x00120003).wr .sender Reg.UPD_TX_CHN 1).wr .sender Reg.UPD_TX_LEN 12).wr .sender
    (Reg.UPD_TX_ACK 0 3) 0x80000000
noncomputable def sending : State := run (.updTxData true) sendable
noncomputable def sent : State := run (.updTxData false) sending

/-- UPD_TX_TO in ns. -/
def txWait : Nat := up.fldOf .sender Reg.UPD_TX_TO 15 0 * 1000000

/-- An ACK of position 3: its next offset and status. -/
def ack (n status : Nat) (next : Word) : Packet :=
  mkPacket 0xB 0x7E 0 n 0x10001200 [next, BitVec.ofNat 32 (status * 65536 + 1), 0]

theorem witness_UpdateTransmit : sendable.alive .sender = true ∧ sendable.bitOf .sender Reg.UPD_TX_STAT 31 = false ∧
    sending.snd.updTx = some ⟨0, 0, 12, 3, 0x12, 1, 0, []⟩ ∧ sending.rd .sender Reg.UPD_TX_STAT = 0x80000000 ∧
    sending.rd .sender (Reg.UPD_TX_ACK 0 3) = 0 ∧ idle (.updTxData true) sending = true ∧
    idle (.updTxControl 4) sending = true ∧ idle (.updTxData false) sendable = true ∧
    sent.out = [.packet (.chain 0) (mkPacket 0xB 3 0 0x7E 0x00001200 [0, 3, 0, 0, 0])] ∧
    sent.snd.updTx.map (·.off) = some 12 ∧ idle (.updTxData false) sent = true ∧
    (run (.updTxControl 4) sendable).out = [.packet (.chain 0) (mkPacket 0xB 3 0 0x7E 0x20001200 [0, 0x40002, 0, 0])] ∧
    (run (.updTxControl 4) sendable).pendBit .sender Ev.UPD_TX_DONE = true ∧
    idle (.updTxTimeout 0 3) sendable = true ∧ idle (.updTxTimeout 0 4) sending = true ∧ idle (.updTxTimeout 1 3) sending = true ∧
    idle (.updTxTimeout 0 3) (later (txWait - 1) sending) = true ∧
    (run (.updTxTimeout 0 3) (later txWait sending)).rd .sender (Reg.UPD_TX_ACK 0 3) = 0x80000000 ∧
    (run (.updTxTimeout 0 3) (later txWait sending)).snd.updTx = none ∧
    (run (.updTxTimeout 0 3) (later txWait sending)).pendBit .sender Ev.UPD_TX_DONE = true ∧
    (run (.updAck 0 (ack 3 0 8)) (later 5 sent)).snd.updTx.map (·.moved) = some [(3, 5)] := by decide +kernel

theorem witness_UpdateTransmit_acks : SenderTakes 0 (ack 3 0 12) sent ∧ SenderTakes 0 (ack 64 0 12) sent ∧
    Pkt.is (ack 3 0 12) 0xB 1 = true ∧ (run (.updAck 0 (ack 3 0 12)) sent).snd.updTx = none ∧
    (run (.updAck 0 (ack 3 0 12)) sent).rd .sender (Reg.UPD_TX_ACK 0 3) = 12 ∧
    (run (.updAck 0 (ack 3 0 8)) sent).snd.updTx.map (·.off) = some 12 ∧
    (run (.updAck 0 (ack 3 2 8)) sent).snd.updTx.map (·.off) = some 8 ∧
    (run (.updAck 0 (ack 3 2 8)) sent).rd .sender (Reg.UPD_TX_ACK 0 3) = 0x20000008 ∧
    (run (.updAck 0 (ack 3 2 8)) sent).fldOf .sender Reg.UPD_TX_STAT 15 0 = 1 ∧
    (run (.updAck 0 (ack 3 0 12)) (sent.wr .sender (Reg.UPD_TX_ACK 0 3) 0x80000000)).rd .sender (Reg.UPD_TX_ACK 0 3) =
      0x8000000C ∧
    idle (.updAck 0 (ack 64 0 12)) sent = true := by unfold SenderTakes; decide +kernel

/-- A folio flash write at an address. -/
def flashing (p : Part) (a : Nat) : State := up.wr p Reg.UPD_FW_ADDR (BitVec.ofNat 32 a)

/-- UPD_FW_STAT after a command. -/
def fw (i : Instr) (p : Part) (a : Nat) : Word := (run i (flashing p a)).rd p Reg.UPD_FW_STAT

theorem witness_FoliosFlashWrites : up.alive .sender = true ∧ up.ownerBlank .sender = true ∧
    up.sender.upd.running = .confirmed ∧ idle (.updOwnerFuse .sender 0x5A5B) up = true ∧
    idle (.updOwnerFuse .sender 0x5A5A) (up.wr .sender (Reg.UPD_OWNER 7) 1) = true ∧
    idle (.updOwnerFuse .sender 0x5A5A) (up.updUpd .sender fun u => { u with running := .trial }) = true ∧
    (run (.updOwnerFuse .sender 0x5A5A) (up.updUpd .sender fun u => { u with ownerKey := asciiBytes "abc" })).rd .sender
      (Reg.UPD_OWNER 0) = 0xBA7816BF ∧
    (run (.updSetAccept .tile) (up.wr .tile Reg.UPD_SET_STAT 0x40000000)).rd .tile Reg.UPD_SET_STAT = 0 ∧
    fw (.updFwErase .sender) .sender 0x1FFFF = 0x80000000 ∧ fw (.updFwErase .sender) .sender 0x20000 = 0x40000000 ∧
    fw (.updFwErase .sender) .sender 0xFFFF = 0x40000000 ∧ fw (.updFwErase .sender) .sender 0x41FFFF = 0x40000000 ∧
    fw (.updFwErase .sender) .sender 0x420000 = 0x80000000 ∧ fw (.updFwErase .tile) .tile 0xBFFFF = 0x80000000 ∧
    fw (.updFwErase .tile) .tile 0xC0000 = 0x40000000 ∧ fw (.updFwErase .tile) .tile 0x300000 = 0x80000000 ∧
    fw (.updFwProgram .tile 64) .tile 0xBFF00 = 0x80000000 ∧ fw (.updFwProgram .tile 64) .tile 0xBFF04 = 0x40000000 ∧
    idle (.updFwErase .tile) ((flashing .tile 0x10000).wr .tile Reg.UPD_FW_STAT 0x80000000) = true ∧
    idle (.updFwDone .tile true) up = true := by decide +kernel

/-- A sector erase and a program of two words run, over a flash with bytes at its borders. -/
def worked (j : FwJob) : State :=
  (up.updUpd .tile fun u => { u with fw := some j }).upd .tile fun c =>
    { c with flash := [(0x10FFF, 1), (0x11000, 2), (0x11FFF, 3), (0x12000, 4)] }

/-- Bytes of the tile's flash. -/
def bytesAt (l : List Nat) (s : State) : List Byte := l.map fun a => s.flashAt .tile a

theorem witness_FoliosFlashWrites_done :
    bytesAt [0x10FFF, 0x11000, 0x11FFF, 0x12000] (run (.updFwDone .tile true) (worked (.erase 0x11000))) = [1, 0xFF, 0xFF, 4] ∧
    (run (.updFwDone .tile false) (worked (.erase 0x11000))).rd .tile Reg.UPD_FW_STAT = 0x20000000 ∧
    (run (.updFwDone .tile false) (worked (.erase 0x11000))).pendBit .tile (Ev.UPD_FLASH_ERR .tile) = true ∧
    bytesAt [0x10FFF, 0x11000, 0x11003, 0x11004] (run (.updFwDone .tile true) (worked (.program 0x11000 [0x04030201]))) =
      [1, 1, 4, 0xFF] ∧
    (run (.updFwDone .tile true) (worked (.program 0x11000 [0x04030201]))).rd .tile Reg.UPD_FW_STAT = 0 ∧
    (run (.updFwDone .tile true) (worked (.program 0x11000 [0x04030201]))).pendBit .tile (Ev.UPD_FW_DONE .tile) = true := by
  decide +kernel

/-! ### Reset, the TAP, power, boot -/

/-- The tile shows a nonzero register, byte of data memory and owner hash. -/
def used : State :=
  (((net.wr .tile Reg.LOAN_EXPIRY 5).wr .tile (Reg.UPD_OWNER 7) 9).wr .tile Reg.SYS_PWR_STAT 0x3F).upd .tile fun c =>
    { c with dmem := [(4, 7)], flash := [(9, 1)], tap := .clamp }

/-- Cause, counts, phase and TAP. -/
def after (p : Part) (s : State) : Word × Word × Phase × Tap :=
  (s.rd p Reg.SYS_RST_CAUSE, s.rd p Reg.SYS_RST_COUNT, (s.chip p).phase, (s.chip p).tap)

theorem witness_ResetsAndTap : after .tile (run (.por .tile [.soft, .pin]) used) = (0x1000000B, 0, .held, .idcode) ∧
    after .tile (run (.pinReset .tile []) used) = (0x20000002, 1, .held, .clamp) ∧
    after .tile (run (.brownout .tile [.pin]) used) = (0x30000006, 1, .held, .clamp) ∧
    after .tile (run (.softReset .tile [.core]) used) = (0x40000018, 1, .held, .clamp) ∧
    after .tile (run (.coreRestart .tile []) used) = (0x50000110, 0x10000, .booting, .clamp) ∧
    after .sender (run (.softReset .sender [.wake]) net) = (0x40000008, 1, .held, .idcode) ∧
    (run (.softReset .tile []) used).rd .tile Reg.LOAN_EXPIRY = 0 ∧
    (run (.softReset .tile []) used).rd .tile (Reg.UPD_OWNER 7) = 9 ∧
    (run (.softReset .tile []) used).rd .tile Reg.SYS_PWR_STAT = 0x3F ∧
    (run (.softReset .tile []) used).dmemByte .tile 4 = 0 ∧ (run (.softReset .tile []) used).flashAt .tile 9 = 1 ∧
    (run (.coreRestart .tile []) used).rd .tile Reg.LOAN_EXPIRY = 5 ∧
    (run (.coreRestart .tile []) used).dmemByte .tile 4 = 7 ∧
    idle (.softReset .tile []) State.reset = true ∧ State.reset.alive .tile = false ∧
    idle (.coreRestart .tile []) State.reset = true := by decide +kernel

/-- The TAP of the tile holds EXTEST, with its ports ACTIVE and DISABLED. -/
noncomputable def boundary : State := (run (.extest .tile) (linked .tile 0 up)).wr .tile (Reg.LNK_STAT 1) 0

theorem witness_ResetsAndTap_tap : up.tapTakes .tile = false ∧ boundary.tapTakes .tile = true ∧ boundary.lnkSt .tile 0 = 5 ∧
    (run (.idcode .tile) up).out = [.tdo .tile 0xA30725A7] ∧ (run (.idcode .sender) up).out = [.tdo .sender 0xB16105A7] ∧
    (run (.bypass .sender) up).out = [.tdo .sender 0] ∧ (run (.samplePreload .tile) up).tile.tap = .sample ∧
    (run (.highz .tile) up).tapTakes .tile = true ∧ (run (.clamp .sender) up).tapTakes .sender = true ∧
    (run (.tapReset .tile) boundary).tile.tap = .idcode ∧ (run (.tapReset .tile) boundary).lnkSt .tile 0 = 1 ∧
    (run (.tapReset .tile) boundary).lnkSt .tile 1 = 0 ∧
    (run (.tapReset .tile) boundary).pendBit .tile (Ev.LNK_FAIL .tile 0) = true ∧
    (boundary.raise .tile Ev.RAIL_WARN 0).pendBit .tile Ev.RAIL_WARN = false := by decide +kernel

/-- Every monitored rail is in tolerance. -/
def powered : State := (State.reset.wr .sender Reg.SYS_PWR_STAT 0x7F).wr .tile Reg.SYS_PWR_STAT 0x3F

theorem witness_PowerAndClocks_release : powered.railsGood .sender = true ∧ powered.sender.phase = .held ∧
    idle (.internalResetRelease .sender 0xFF) State.reset = true ∧ idle (.internalResetRelease .tile 0) up = true ∧
    (run (.internalResetRelease .sender 0xFF) powered).rd .sender Reg.SYS_STRAP = 0xF ∧
    (run (.internalResetRelease .sender 0xFE) powered).rd .sender Reg.LNK_ROLE = 2 ∧
    (run (.internalResetRelease .tile 0xFF) powered).rd .tile Reg.SYS_STRAP = 0xF4 ∧
    (run (.internalResetRelease .tile 0) powered).bitOf .tile Reg.COR_BSTAT 29 = true ∧
    (run (.internalResetRelease .tile 0) powered).bitOf .tile Reg.IDN_CAT_STAT 30 = true ∧
    (run (.internalResetRelease .tile 0) powered).tile.phase = .booting ∧
    (run (.internalResetRelease .tile 0) (powered.wr .tile (Reg.LNK_CTRL 0) 0x80000000)).lnkSt .tile 0 = 1 := by decide +kernel

/-- A sender in its low-power state, with WAKE_N enabled or not. -/
noncomputable def asleep (en : Word) : State := run (.lowPowerEntry false) (lending.wr .sender Reg.SYS_WAKE_CFG en)

theorem witness_PowerAndClocks_low : (asleep 0).sender.phase = .low ∧ (asleep 0).out.length = 3 ∧
    (asleep 0).out = List.replicate 3 (.packet (.chain 0) (mkPacket 6 0x7F 0 0x7E 0x20000000 [0, 0, loanK .a 0 0 7])) ∧
    idle (.lowPowerEntry false) (staged .sender 3 up) = true ∧
    (run (.lowPowerEntry true) (up.wr .sender Reg.SYS_WAKE_CFG 1)).rd .sender Reg.SYS_RST_CAUSE = 0x60000020 ∧
    (run (.lowPowerEntry true) (up.wr .sender Reg.SYS_WAKE_CFG 0)).sender.phase = .low ∧
    idle (.wakeN []) (asleep 0) = true ∧ idle (.wakeN []) (up.wr .sender Reg.SYS_WAKE_CFG 1) = true ∧
    (run (.wakeN [.soft]) (asleep 1)).rd .sender Reg.SYS_RST_CAUSE = 0x60000020 ∧
    (run (.wakeN [.pin]) (asleep 1)).rd .sender Reg.SYS_RST_CAUSE = 0x20000022 ∧
    idle (.hostPerst true) up = true ∧ (run (.hostPerst true) (asleep 0)).rd .sender Reg.SYS_RST_CAUSE = 0x60000020 ∧
    idle (.hostPerst false) (asleep 0) = true ∧ idle (.hostPerst false) up = true ∧ (host up).pcie = true ∧
    (run (.hostPerst false) (host up)).pendBit .sender Ev.HOST_PERST = true := by decide +kernel

theorem witness_PowerAndClocks_rails : (run (.railWarn .tile) up).pendBit .tile Ev.RAIL_WARN = true ∧
    idle (.railWarn .tile) (later 499999 (run (.railWarn .tile) up)) = true ∧
    idle (.railWarn .tile) (later 500000 (run (.railWarn .tile) up)) = false ∧
    idle (.railToleranceChange .sender 7 true) up = true ∧ idle (.railToleranceChange .tile 6 true) up = true ∧
    idle (.railToleranceChange .tile 30 true) up = true ∧
    (run (.railToleranceChange .sender 6 true) up).bitOf .sender Reg.SYS_PWR_STAT 6 = true ∧
    (run (.railToleranceChange .tile 31 true) up).bitOf .tile Reg.SYS_PWR_STAT 31 = true ∧
    (run (.railToleranceChange .tile 0 false) (up.wr .tile Reg.SYS_PWR_STAT 1)).pvd.powered = false ∧
    (run (.railToleranceChange .tile 0 false) (up.wr .tile Reg.SYS_PWR_STAT 0x80000001)).pvd.powered = true ∧
    (run (.railToleranceChange .tile 5 false) (up.wr .tile Reg.SYS_PWR_STAT 0x20)).pvd.powered = true ∧
    (run .uRefFirstEdge up).rd .tile Reg.LNK_REF = 1 ∧ (run .uRefFirstEdge up).bitOf .tile (Reg.LNK_STAT 1) 20 = true ∧
    idle .uRefFirstEdge (run .uRefFirstEdge up) = true ∧ idle .uRefFirstEdge State.reset = true ∧
    (run .porvalDomainPor pvSigning).pvd = PvDomain.reset ∧
    (run .wakeOutPulseEnd { up with pvd := { up.pvd with wakePulse := true } }).pvd.wakePulse = false := by decide +kernel

/-- The tile boots from a record in its journal. -/
def booting (r : BootRec) : State := (journal r State.reset).upd .tile fun c => { c with phase := .booting }

/-- The clauses of Boots about an image that passes its checks have no closed witness: they rest on a signature by the
root key (R449), which the manual does not give. -/
theorem witness_Boots : idle (.boot .tile) State.reset = true ∧ idle (.boot .tile) up = true ∧
    (∀ k ∈ (booting (rec7 0 0 0 0)).tile.cores, k.posted = [] ∧ k.xfer = none) ∧
    (booting (rec7 0 0 0 0)).tile.phase = .booting ∧ (booting (rec7 0 0 0 0)).bootRec .tile = rec7 0 0 0 0 ∧
    (booting (rec7 2 0 0 0)).bootRec .tile = rec7 2 0 0 0 ∧ (booting (rec7 2 3 0 0)).bootRec .tile = rec7 2 3 0 0 ∧
    (booting (rec7 3 0 0 0)).bootRec .tile = rec7 3 0 0 0 ∧
    (booting (rec7 0 0 0 0)).coreSetValid .tile = false ∧
    (booting (rec7 0 0 0 0)).imgErr .tile 0x20000 false (activeLen .tile) = some 1 ∧
    ((booting (rec7 2 0 0 0)).putRec .tile (rec7 2 1 0 0)).imgErr .tile 0x20000 false (activeLen .tile) = some 1 := by decide +kernel

/-! ### The queue, and what a step keeps -/

/-- Two commands wait. -/
noncomputable def waiting : State := { up with pending := [.lnkSleep .u, .railWarn .tile] }

theorem witness_SoundStatesStaySound : Sound up ∧ Sound State.reset ∧ Sound waiting := by
  unfold Sound; decide +kernel

theorem witness_step : step waiting = .next (run (.lnkSleep .u) { up with pending := [.railWarn .tile] }) ∧
    step up = .next up.idle := ⟨rfl, rfl⟩

theorem witness_QueueAndMemoryFrame : exec (.railWarn .tile) waiting = .next (run (.railWarn .tile) waiting) ∧
    touchesDmem (.railWarn .tile) = false ∧ touchesFlash (.railWarn .tile) = false := ⟨rfl, rfl, rfl⟩

theorem witness_FolkoDecodeOfEncode : (Instr.addi .tile 1 2 0xFFFF).wf = true ∧
    (encodeFolko (.addi .tile 1 2 0xFFFF)).isSome = true ∧
    (encodeFolko (.addi .tile 1 2 0xFFFF)).bind (decodeFolko .tile 0) = some (.addi .tile 1 2 0xFFFF) := by decide +kernel

/-! ### More terms that are not well formed -/

theorem test_wf_operands : (Instr.hostDoorbell 0).wf = false ∧ (Instr.hostDoorbell 65).wf = false ∧
    (Instr.hostDoorbell 64).wf = true ∧ (Instr.sysMbxOutSend 0).wf = false ∧ (Instr.sysMbxOutSend 1).wf = true ∧
    (Instr.hostCorePcWrite 0 2).wf = false ∧ (Instr.hostImemWrite 0 1 0).wf = false ∧ (Instr.hostFrameWindow true 2 0).wf = false ∧
    (Instr.registerWrite (.folio .tile 0x10002) 0).wf = false ∧ (Instr.registerWrite (.folio .tile 0x10000) 0).wf = true ∧
    (Instr.registerWrite (.bar0 2) 0).wf = false ∧ (Instr.dramWriteRequest 0 0 0 []).wf = false ∧
    (Instr.correctionWindowWrite 0x7FFFFC 0).wf = false ∧ (Instr.correctionWindowWrite 0x800001 0).wf = false ∧
    (Instr.lineSlot ⟨[(3072, 0)], [], [], [], []⟩).wf = false ∧ (Instr.lineSlot ⟨[], [(3072, 0)], [], [], []⟩).wf = false ∧
    (Instr.lineSlot ⟨[(3071, 0)], [], [], [], []⟩).wf = true ∧ (Instr.thmConversion .tile []).wf = false ∧
    (Instr.evtRouteWrite .tile 0x440 0).wf = false ∧ (Instr.evtRouteWrite .sender 0x440 0).wf = true ∧
    (Instr.updFwProgram .tile 0).wf = false ∧ (Instr.updFwProgram .tile 65).wf = false ∧
    (Instr.updOpen (.packet .u (data 0)) false).wf = false ∧ (Instr.updOpen (.packet .u (control 1 0 0)) false).wf = true ∧
    (Instr.updVerify (.packet .u (data 0))).wf = false ∧ (Instr.updActivate (.packet .u (data 0))).wf = false ∧
    (Instr.updConfirm (.packet .u (data 0))).wf = false ∧ (Instr.updAbort (.packet .u (data 0))).wf = false := by decide +kernel

/-- A packet of another type is refused by every command that takes a packet. -/
theorem test_wf_packets :
    (([fun k => .cmdWrite .u k, fun k => .cmdRead .u k, fun k => .cmdClose .u k, fun k => .cmdSwap .u k,
      fun k => .cmdMsg .u k, fun k => .telMsg 0 k, fun k => .telReadData 0 k, fun k => .telReport 0 k,
      fun k => .telEventRecords 0 k, fun k => .timeRxTile .u k, fun k => .timeRxSender 0 k, fun k => .probe .u k 0,
      fun k => .echo .u k 0, fun k => .crossLinkSync 0 k, fun k => .exch .u k, fun k => .loanRenew .u k,
      fun k => .loanClaim .u k, fun k => .loanRelease .u k, fun k => .loanState 0 k, fun k => .beat 0 k, fun k => .abort .u k,
      fun k => .sync .u k, fun k => .sig .u k, fun k => .digestRequest .u k, fun k => .digestChain .u k,
      fun k => .digestCatalogue 0 k, fun k => .updData .u k, fun k => .updQuery .u k, fun k => .updAck 0 k] :
        List (Packet → Instr)).all fun f => !(f (pix 9 0 0 false ones)).wf) = true ∧
    (Instr.pix .u (pix 9 0 0 false ones)).wf = true ∧ (Instr.pix .u beat1).wf = false := by decide +kernel

end Sys2Proof.Tests
end

section
/-!
PROOFS. The correction store (O44): what each update leaves of the correction banks, what a lost row does, what a
return to service, the window, the copy and the identity fill do, and the obligation assembled from these.
-/

namespace Sys2Proof.Machine

open Sys2Proof

/-! ### What an update leaves of the correction banks -/

/-- A bank after one bank is replaced. -/
theorem State.bank_setBank (b c : Bool) (m : List (Nat × Word)) (s : State) :
    (s.setBank b m).bank c = if c = b then m else s.bank c := by
  cases b <;> cases c <;> rfl

@[simp] theorem State.rd_setBank (b : Bool) (m : List (Nat × Word)) (p : Part) (a : Nat) (s : State) :
    (s.setBank b m).rd p a = s.rd p a := State.rd_updPix _ p a s
@[simp] theorem State.til_corWait_setBank (b : Bool) (m : List (Nat × Word)) (s : State) :
    (s.setBank b m).til.pix.corWait = s.til.pix.corWait := by cases b <;> rfl
@[simp] theorem State.tapTakes_setBank (b : Bool) (m : List (Nat × Word)) (p : Part) (s : State) :
    (s.setBank b m).tapTakes p = s.tapTakes p := by
  simp [State.setBank, State.tapTakes]

@[simp] theorem State.bank_wr (p : Part) (a : Nat) (v : Word) (b : Bool) (s : State) :
    (s.wr p a v).bank b = s.bank b := by
  simp [State.bank]
@[simp] theorem State.bankWord_wr (p : Part) (a : Nat) (v : Word) (b : Bool) (j : Nat) (s : State) :
    (s.wr p a v).bankWord b j = s.bankWord b j := by
  simp [State.bankWord]
@[simp] theorem State.tapTakes_wr (p q : Part) (a : Nat) (v : Word) (s : State) :
    (s.wr p a v).tapTakes q = s.tapTakes q := by
  simp [State.tapTakes]
@[simp] theorem State.tapTakes_updPix (f : PixUnit → PixUnit) (p : Part) (s : State) :
    (s.updPix f).tapTakes p = s.tapTakes p := by
  simp [State.tapTakes]

/-- A change of the pixel path that keeps both banks keeps each of their words. -/
theorem State.bankWord_updPix {f : PixUnit → PixUnit} {s : State} (h0 : (f s.til.pix).cor0 = s.til.pix.cor0)
    (h1 : (f s.til.pix).cor1 = s.til.pix.cor1) (b : Bool) (j : Nat) : (s.updPix f).bankWord b j = s.bankWord b j := by
  simp [State.bankWord, State.bank, h0, h1]

/-- Raising an event leaves the correction store: its banks, its waiting repairs and the fill. -/
theorem Calm.corStore {p : Part} {s t : State} (h : Calm p s t) :
    t.til.pix.cor0 = s.til.pix.cor0 ∧ t.til.pix.cor1 = s.til.pix.cor1 ∧ t.til.pix.corWait = s.til.pix.corWait ∧
      t.til.pix.filling = s.til.pix.filling :=
  ⟨congrArg (·.pix.cor0) h.til, congrArg (·.pix.cor1) h.til, congrArg (·.pix.corWait) h.til,
    congrArg (·.pix.filling) h.til⟩

theorem Calm.bankWord {p : Part} {s t : State} (h : Calm p s t) (b : Bool) (j : Nat) :
    t.bankWord b j = s.bankWord b j := by
  obtain ⟨h0, h1, -, -⟩ := h.corStore
  simp [State.bankWord, State.bank, h0, h1]

@[simp] theorem State.rd_corRewritten (f : Nat → Bool) (p : Part) (a : Nat) (s : State) :
    (s.corRewritten f).rd p a = s.rd p a := State.rd_updPix _ p a s
@[simp] theorem State.bank_corRewritten (f : Nat → Bool) (b : Bool) (s : State) :
    (s.corRewritten f).bank b = s.bank b := rfl

/-- Word j of a bank after one bank is replaced. -/
theorem State.bankWord_setBank (b c : Bool) (m : List (Nat × Word)) (j : Nat) (s : State) :
    (s.setBank b m).bankWord c j = if c = b then SMap.get identityWord m j else s.bankWord c j := by
  unfold State.bankWord
  rw [State.bank_setBank]
  split <;> rfl

/-! ### Dark regions and spare rows (R339, R340, R343) -/

/-- A region is dark as long as PIX_DARK reads the same. -/
theorem State.dark_of_rd {s t : State} (h : t.rd .tile Reg.PIX_DARK = s.rd .tile Reg.PIX_DARK) (r : Nat) :
    t.dark r = s.dark r := by
  simp [State.dark, State.bitOf, h]

theorem State.dark_darken (r : Nat) (s : State) (h : r < 32) : (s.darken r).dark r = true :=
  State.bitOf_wrBit _ _ _ _ _ h

/-- The registers of spare rows are none of those that a lost row changes beside them. -/
theorem corSpare_reg (b : Bool) (block : Fin 64) : calmReg (corSpare b block.val).1 = true ∧
    (corSpare b block.val).1 ≠ Reg.COR_DEGRADED ∧ (corSpare b block.val).1 ≠ Reg.COR_ECC_UNCORR ∧
    (corSpare b block.val).1 ≠ Reg.COR_ECC_LAST ∧ (corSpare b block.val).2 + 1 < 32 := by
  revert b block; decide

/-- The value at a key of a map from which the keys that fail a test are taken out. -/
theorem AMap.find_filter {α : Type} (q : Nat → Bool) (m : List (Nat × α)) (k : Nat) :
    AMap.find (m.filter fun e => q e.1) k = if q k = true then AMap.find m k else none := by
  induction m with
  | nil => simp [AMap.find]
  | cons e m ih =>
    by_cases he : e.1 = k
    · cases hq : q k <;> simp [AMap.find, ih, he, hq]
    · cases hq : q e.1 <;> simp [AMap.find, ih, he, hq]

/-- The words of a row on identity correction, and of all other rows (R340). -/
theorem get_identityRow (m : List (Nat × Word)) (lo j : Nat) :
    SMap.get identityWord (m.filter fun e => decide (e.1 < lo ∨ lo + 120 ≤ e.1)) j =
      if lo ≤ j ∧ j < lo + 120 then identityWord j else SMap.get identityWord m j := by
  unfold SMap.get
  rw [AMap.find_filter fun k => decide (k < lo ∨ lo + 120 ≤ k)]
  by_cases h : lo ≤ j ∧ j < lo + 120
  · rw [if_neg (by simpa using h), if_pos h, Option.getD_none]
  · rw [if_pos (by simp; omega), if_neg h]

/-- The field of SPARE_USED that counts a block's spare rows (R343). -/
def State.sparesUsed (b : Bool) (block : Nat) (s : State) : Nat :=
  s.fldOf .tile (corSpare b block).1 ((corSpare b block).2 + 1) (corSpare b block).2

/-- A row with no spare left makes its region dark (R340). -/
theorem State.corRepair_noSpare {b : Bool} {block : Nat} (line : Nat) {s : State} (h : 2 ≤ s.sparesUsed b block) :
    s.corRepair b block line = (s.darken (block / 16)).raise .tile Ev.COR_NOSPARE := by
  unfold State.sparesUsed at h
  simp [State.corRepair, h]

/-- The first word of a line of a block in its bank (R334). -/
def corRowStart (block line : Nat) : Nat := 15 * ((256 * (32 * (block / 16) + line) + 16 * (block % 16)) / 2)

/-- The state in which a row has taken a spare row, before COR_ROW_LOST is raised (R340). -/
def State.corSpared (b : Bool) (block line : Nat) (s : State) : State :=
  State.corCount (((s.wrFld .tile (corSpare b block).1 ((corSpare b block).2 + 1) (corSpare b block).2
    (s.sparesUsed b block + 1)).corIdentityRow b block line).updPix fun x =>
      { x with corLost := AMap.put x.corLost (corRowKey b block line) false })

/-- A row takes a spare row while its block has one (R340). -/
theorem State.corRepair_spare {b : Bool} {block : Nat} (line : Nat) {s : State} (h : s.sparesUsed b block < 2) :
    s.corRepair b block line = (s.corSpared b block line).raise .tile Ev.COR_ROW_LOST := by
  unfold State.sparesUsed at h
  simp [State.corRepair, State.corSpared, State.sparesUsed, Nat.not_le.2 h]

theorem State.bankWord_corSpared (b : Bool) (block line j : Nat) (s : State) :
    (s.corSpared b block line).bankWord b j =
      if corRowStart block line ≤ j ∧ j < corRowStart block line + 120 then identityWord j else s.bankWord b j := by
  rw [State.corSpared, State.corCount, State.bankWord_wr, State.bankWord_updPix rfl rfl, State.corIdentityRow,
    State.bankWord_setBank, if_pos rfl, get_identityRow, State.wrFld, State.bank_wr]
  rfl

theorem State.rd_corSpared (b : Bool) (block line : Nat) {a : Nat} (s : State) (h : a ≠ Reg.COR_DEGRADED) :
    (s.corSpared b block line).rd .tile a =
      if a = (corSpare b block).1 then putFld (s.rd .tile a) ((corSpare b block).2 + 1) (corSpare b block).2
        (s.sparesUsed b block + 1) else s.rd .tile a := by
  simp only [State.corSpared, State.corCount, State.corIdentityRow, State.wrFld, State.rd_wr, State.rd_updPix,
    State.rd_setBank, h, and_false, if_false, true_and]
  split
  · next e => rw [e]
  · rfl

@[simp] theorem State.tapTakes_corSpared (b : Bool) (block line : Nat) (p : Part) (s : State) :
    (s.corSpared b block line).tapTakes p = s.tapTakes p := by
  simp [State.corSpared, State.corCount, State.corIdentityRow, State.wrFld]

/-- A repair leaves the rows that wait. -/
theorem State.corWait_corRepair (b : Bool) (block line : Nat) (s : State) :
    (s.corRepair b block line).til.pix.corWait = s.til.pix.corWait := by
  by_cases h : 2 ≤ s.sparesUsed b block
  · rw [State.corRepair_noSpare line h]
    obtain ⟨-, -, hw, -⟩ := (Calm.raise .tile Ev.COR_NOSPARE (s.darken (block / 16)) 0 (by decide)).corStore
    rw [hw]
    simp [State.darken, State.wrBit]
  · rw [State.corRepair_spare line (Nat.not_le.1 h)]
    obtain ⟨-, -, hw, -⟩ := (Calm.raise .tile Ev.COR_ROW_LOST (s.corSpared b block line) 0 (by decide)).corStore
    rw [hw]
    simp [State.corSpared, State.corCount, State.corIdentityRow, State.wrFld]

/-! ### The scrubber (R340) -/

/-- A corrected bit counts, and changes no word. -/
theorem State.corCorrected_spec (s : State) :
    s.corCorrected.rd .tile Reg.COR_ECC_CORR = s.rd .tile Reg.COR_ECC_CORR + 1 ∧
      ∀ b j, s.corCorrected.bankWord b j = s.bankWord b j := by
  unfold State.corCorrected
  dsimp only
  split
  · have hc := Calm.raise .tile Ev.COR_ECC_CORR ((s.bump .tile Reg.COR_ECC_CORR 1).updPix fun x =>
      { x with corEccAt := some ((s.bump .tile Reg.COR_ECC_CORR 1).elapsed .tile) }) 0 (by decide)
    refine ⟨?_, fun b j => ?_⟩
    · rw [hc.rd _ _ (.inr (by decide))]
      simp [State.bump]
    · rw [hc.bankWord, State.bankWord_updPix rfl rfl]
      simp [State.bump]
  · exact ⟨by simp [State.bump], fun b j => by simp [State.bump]⟩

/-- The state in which a lost row has been counted and named, before it is repaired. -/
def State.corNoted (b : Bool) (block line : Nat) (s : State) : State :=
  (s.bump .tile Reg.COR_ECC_UNCORR 1).wr .tile Reg.COR_ECC_LAST (wd (b.toNat * 2 ^ 31 + block * 2 ^ 16 + line))

theorem State.rd_corNoted (b : Bool) (block line a : Nat) (s : State) (h : a ≠ Reg.COR_ECC_UNCORR)
    (h' : a ≠ Reg.COR_ECC_LAST) : (s.corNoted b block line).rd .tile a = s.rd .tile a := by
  simp [State.corNoted, State.bump, State.rd_wr, h, h']

@[simp] theorem State.bankWord_corNoted (b : Bool) (block line : Nat) (c : Bool) (j : Nat) (s : State) :
    (s.corNoted b block line).bankWord c j = s.bankWord c j := by
  simp [State.corNoted, State.bump]
@[simp] theorem State.tapTakes_corNoted (b : Bool) (block line : Nat) (p : Part) (s : State) :
    (s.corNoted b block line).tapTakes p = s.tapTakes p := by
  simp [State.corNoted, State.bump]

theorem State.sparesUsed_corNoted (b : Bool) (block : Fin 64) (line : Nat) (s : State) :
    (s.corNoted b block.val line).sparesUsed b block.val = s.sparesUsed b block.val := by
  obtain ⟨-, -, hunc, hlast, -⟩ := corSpare_reg b block
  simp [State.sparesUsed, State.fldOf, State.rd_corNoted _ _ _ _ _ hunc hlast]

/-- A lost row of a dark region waits; another is repaired at once (R37, R340). -/
theorem State.corRowLost_eq (b : Bool) (block line : Nat) (s : State) :
    s.corRowLost b block line =
      if s.dark (block / 16) = true then (s.corNoted b block line).updPix fun x =>
        { x with corWait := if x.corWait.contains (corRowKey b block line) then x.corWait
                            else x.corWait ++ [corRowKey b block line] }
      else (s.corNoted b block line).corRepair b block line := by
  have hd : (s.corNoted b block line).dark (block / 16) = s.dark (block / 16) :=
    State.dark_of_rd (State.rd_corNoted _ _ _ _ _ (by decide) (by decide)) _
  rw [← hd]
  rfl

/-- In t, COR_ECC_UNCORR has counted one lost row more than in s, and COR_ECC_LAST names the row (R340). -/
def CorNoted (b : Bool) (block line : Nat) (s t : State) : Prop :=
  t.rd .tile Reg.COR_ECC_UNCORR = s.rd .tile Reg.COR_ECC_UNCORR + 1 ∧
    t.rd .tile Reg.COR_ECC_LAST = BitVec.ofNat 32 (b.toNat * 2 ^ 31 + block * 2 ^ 16 + line)

theorem State.corNoted_shows (b : Bool) (block line : Nat) (s : State) :
    CorNoted b block line s (s.corNoted b block line) := by
  refine ⟨?_, ?_⟩
  · have hne : Reg.COR_ECC_UNCORR ≠ Reg.COR_ECC_LAST := by decide
    simp [State.corNoted, State.bump, State.rd_wr, hne]
  · simp [State.corNoted]

theorem CorNoted.of_rd {b : Bool} {block line : Nat} {s t u : State} (h : CorNoted b block line s t)
    (hu : ∀ a, a = Reg.COR_ECC_UNCORR ∨ a = Reg.COR_ECC_LAST → u.rd .tile a = t.rd .tile a) :
    CorNoted b block line s u :=
  ⟨(hu _ (.inl rfl)).trans h.1, (hu _ (.inr rfl)).trans h.2⟩

/-- A lost row in a dark region waits for the return to service, and no word changes (R37). -/
theorem State.corRowLost_dark (b : Bool) (block : Fin 64) (line : Nat) (s : State)
    (hd : s.dark (block.val / 16) = true) :
    let t := s.corRowLost b block.val line
    CorNoted b block.val line s t ∧ t.dark (block.val / 16) = true ∧ (∀ c j, t.bankWord c j = s.bankWord c j) ∧
      corRowKey b block.val line ∈ t.til.pix.corWait := by
  intro t
  have ht : t = (s.corNoted b block.val line).updPix fun x =>
      { x with corWait := if x.corWait.contains (corRowKey b block.val line) then x.corWait
                          else x.corWait ++ [corRowKey b block.val line] } :=
    (State.corRowLost_eq b block.val line s).trans (if_pos hd)
  rw [ht]
  refine ⟨(State.corNoted_shows b block.val line s).of_rd fun a _ => by simp, ?_, fun c j => ?_, ?_⟩
  · rw [← hd]
    exact State.dark_of_rd (by rw [State.rd_updPix, State.rd_corNoted _ _ _ _ _ (by decide) (by decide)]) _
  · rw [State.bankWord_updPix rfl rfl, State.bankWord_corNoted]
  · simp only [State.updPix_til]
    split
    · next hin => simpa using hin
    · simp

/-- A lost row takes a spare row: its words become the identity correction, and COR_ROW_LOST is raised (R340). -/
theorem State.corRowLost_spare (b : Bool) (block : Fin 64) (line : Nat) (s : State)
    (hd : s.dark (block.val / 16) = false) (hu : s.sparesUsed b block.val < 2) :
    let t := s.corRowLost b block.val line
    let lo := corRowStart block.val line
    CorNoted b block.val line s t ∧ t.sparesUsed b block.val = s.sparesUsed b block.val + 1 ∧
      (∀ j, lo ≤ j → j < lo + 120 → t.bankWord b j = identityWord j) ∧
      (∀ j, j < lo ∨ lo + 120 ≤ j → t.bankWord b j = s.bankWord b j) ∧
      (s.tapTakes .tile = false → t.pendBit .tile Ev.COR_ROW_LOST = true) := by
  intro t lo
  obtain ⟨hcalm, hdeg, hunc, hlast, hfit⟩ := corSpare_reg b block
  have hused := State.sparesUsed_corNoted b block line s
  have ht : t = ((s.corNoted b block.val line).corSpared b block.val line).raise .tile Ev.COR_ROW_LOST := by
    rw [← State.corRepair_spare line (hused ▸ hu)]
    exact (State.corRowLost_eq b block.val line s).trans (if_neg (by simp [hd]))
  have hc := ht ▸ Calm.raise .tile Ev.COR_ROW_LOST ((s.corNoted b block.val line).corSpared b block.val line) 0 (by decide)
  have hword : ∀ j, t.bankWord b j = if lo ≤ j ∧ j < lo + 120 then identityWord j else s.bankWord b j := fun j => by
    rw [hc.bankWord, State.bankWord_corSpared, State.bankWord_corNoted]
  refine ⟨(State.corNoted_shows b block.val line s).of_rd fun a ha => ?_, ?_, fun j h1 h2 => ?_, fun j h => ?_,
    fun hz => ?_⟩
  · have hreg : calmReg a = true ∧ a ≠ Reg.COR_DEGRADED ∧ a ≠ (corSpare b block.val).1 := by
      rcases ha with rfl | rfl
      · exact ⟨by decide, by decide, hunc.symm⟩
      · exact ⟨by decide, by decide, hlast.symm⟩
    obtain ⟨ha1, ha2, ha3⟩ := hreg
    rw [hc.rd _ _ (.inr ha1), State.rd_corSpared _ _ _ _ ha2, if_neg ha3]
  · unfold State.sparesUsed State.fldOf at hu ⊢
    rw [hc.rd _ _ (.inr hcalm), State.rd_corSpared _ _ _ _ hdeg, if_pos rfl,
      fld_putFld_same _ _ _ _ (by omega) hfit, hused, Nat.add_sub_cancel_left]
    exact Nat.mod_eq_of_lt (Nat.lt_of_le_of_lt hu (by decide))
  · rw [hword, if_pos ⟨h1, h2⟩]
  · rw [hword, if_neg (by omega)]
  · rw [ht]
    refine pend_raise .tile _ _ _ (by decide) ?_ (by decide)
    rw [State.tapTakes_corSpared, State.tapTakes_corNoted, hz]

/-- A lost row without a spare row makes its region dark, and COR_NOSPARE is raised (R340). -/
theorem State.corRowLost_noSpare (b : Bool) (block : Fin 64) (line : Nat) (s : State)
    (hd : s.dark (block.val / 16) = false) (hu : 2 ≤ s.sparesUsed b block.val) :
    let t := s.corRowLost b block.val line
    CorNoted b block.val line s t ∧ t.dark (block.val / 16) = true ∧
      (s.tapTakes .tile = false → t.pendBit .tile Ev.COR_NOSPARE = true) := by
  intro t
  have hused := State.sparesUsed_corNoted b block line s
  have ht : t = ((s.corNoted b block.val line).darken (block.val / 16)).raise .tile Ev.COR_NOSPARE := by
    rw [← State.corRepair_noSpare line (hused.symm ▸ hu)]
    exact (State.corRowLost_eq b block.val line s).trans (if_neg (by simp [hd]))
  have hc := ht ▸ Calm.raise .tile Ev.COR_NOSPARE ((s.corNoted b block.val line).darken (block.val / 16)) 0 (by decide)
  refine ⟨(State.corNoted_shows b block.val line s).of_rd fun a ha => ?_, ?_, fun hz => ?_⟩
  · have hreg : calmReg a = true ∧ a ≠ Reg.PIX_DARK := by
      rcases ha with rfl | rfl <;> decide
    obtain ⟨ha1, ha2⟩ := hreg
    rw [hc.rd _ _ (.inr ha1)]
    exact State.rd_wr_ne _ _ _ _ ha2
  · rw [State.dark_of_rd (hc.rd _ _ (.inr (by decide)))]
    exact State.dark_darken _ _ (by omega)
  · rw [ht]
    refine pend_raise .tile _ _ _ (by decide) ?_ (by decide)
    rw [State.darken, State.wrBit, State.tapTakes_wr, State.tapTakes_corNoted, hz]

/-- The state in which the scrubber has met one error (R340). -/
def State.scrubbed (s : State) (e : ScrubErr) : State :=
  s.corEcc (if e.double then .double else .corrected) e.bank e.block.val e.line.val

theorem State.scrubbed_single (b : Bool) (block : Fin 64) (line : Fin 32) (s : State) :
    s.scrubbed ⟨b, block, line, false⟩ = s.corCorrected := by
  simp [State.scrubbed, State.corEcc]

theorem State.scrubbed_double (b : Bool) (block : Fin 64) (line : Fin 32) (s : State) :
    s.scrubbed ⟨b, block, line, true⟩ = s.corRowLost b block.val line.val := by
  simp [State.scrubbed, State.corEcc]

/-! ### The return to service (R37, R339) -/

/-- The state in which PIX_DARK has lost the bits of a mask. -/
def State.darkMasked (m : BitVec 4) (s : State) : State :=
  s.wr .tile Reg.PIX_DARK (s.rd .tile Reg.PIX_DARK &&& ~~~(m.setWidth 32))

theorem State.dark_darkMasked (m : BitVec 4) (s : State) {r : Nat} (h : r < 4) :
    (s.darkMasked m).dark r = (s.dark r && !m.getLsbD r) := by
  simp [State.darkMasked, State.dark, State.bitOf, bit, show r < 32 by omega]

theorem State.corWait_foldl_corRepair (l : List Nat) : ∀ s : State,
    (l.foldl (fun s n => s.corRepair (n / 2048 == 1) (n % 2048 / 32) (n % 32)) s).til.pix.corWait =
      s.til.pix.corWait := by
  induction l with
  | nil => exact fun _ => rfl
  | cons n l ih => exact fun s => (ih _).trans (State.corWait_corRepair _ _ _ s)

/-- The rows that still wait after a return to service are those of regions that stay dark. -/
theorem State.corWait_darkClear (m : BitVec 4) (s : State) :
    (State.darkClear (m.setWidth 32) s).til.pix.corWait =
      s.til.pix.corWait.filter fun n => s.dark (n % 2048 / 512) && !m.getLsbD (n % 2048 / 512) := by
  unfold State.darkClear
  dsimp only
  rw [State.corWait_foldl_corRepair, State.updPix_til, State.wr_til]
  exact List.filter_congr fun n _ => State.dark_darkMasked m s (by omega)

/-- Where no row waits, a return to service only clears the bits of the mask. -/
theorem State.darkClear_of_noneWait (m : BitVec 4) {s : State} (h : s.til.pix.corWait = []) :
    (∀ r, r < 4 → (State.darkClear (m.setWidth 32) s).dark r = (s.dark r && !m.getLsbD r)) ∧
      ∀ a, a ≠ Reg.PIX_DARK → (State.darkClear (m.setWidth 32) s).rd .tile a = s.rd .tile a := by
  have hrd : ∀ a, (State.darkClear (m.setWidth 32) s).rd .tile a = (s.darkMasked m).rd .tile a := fun a => by
    unfold State.darkClear
    simp [h, State.darkMasked]
  refine ⟨fun r hr => ?_, fun a ha => ?_⟩
  · rw [State.dark_of_rd (hrd _), State.dark_darkMasked m s hr]
  · rw [hrd]
    exact State.rd_wr_ne _ _ _ _ ha

/-! ### The window and the copy (R334 to R338) -/

/-- A COR commit is pending. -/
theorem State.shadowLocked_iff (b : Nat) (s : State) :
    s.shadowLocked .tile b = true ↔ ∃ c, s.tile.commit = some c ∧ bit c.mask b = true := by
  unfold State.shadowLocked State.chip
  cases s.tile.commit <;> simp

theorem corIndex_inside {a : Nat} (h : 0x800000 ≤ a ∧ a < 0x8F0000 ∧ a % 4 = 0) :
    corIndex a = some ((a - 0x800000) / 4) := by
  obtain ⟨h1, h2, h3⟩ := h
  unfold corIndex bankWords
  simp [h1, h2, h3]

theorem corIndex_outside {a : Nat} (h : ¬ (0x800000 ≤ a ∧ a < 0x8F0000 ∧ a % 4 = 0)) : corIndex a = none := by
  unfold corIndex bankWords
  rw [if_neg]
  simpa using h

theorem State.corWrite_locked {s : State} (a : Nat) (v : Word) (h : s.shadowLocked .tile 10 = true) :
    (s.corWrite a v).1 = (s.bump .tile Reg.SYS_CMT_LOCKDROP 1).raise .tile Ev.SHADOW_LOCKED := by
  simp [State.corWrite, h]

theorem State.corWrite_outside {s : State} {a : Nat} (v : Word) (h : s.shadowLocked .tile 10 = false)
    (ha : corIndex a = none) : (s.corWrite a v).1 = s := by
  simp [State.corWrite, h, ha]

theorem State.corWrite_busy {s : State} {a j : Nat} (v : Word) (h : s.shadowLocked .tile 10 = false)
    (ha : corIndex a = some j) (hb : s.bitOf .tile Reg.COR_BSTAT 29 = true) :
    (s.corWrite a v).1 = s.bump .tile Reg.COR_WDROP 1 := by
  simp [State.corWrite, h, ha, hb]

/-- A write that neither a commit nor a copy holds up goes to the bank that is not active (R335). -/
theorem State.corWrite_stores {s : State} {a j : Nat} (v : Word) (h : s.shadowLocked .tile 10 = false)
    (ha : corIndex a = some j) (hb : s.bitOf .tile Reg.COR_BSTAT 29 = false) :
    let t := (s.corWrite a v).1
    t.bankWord (!s.corAct) j = v ∧ (∀ b k, b ≠ (!s.corAct) ∨ k ≠ j → t.bankWord b k = s.bankWord b k) ∧
      t.bitOf .tile Reg.COR_BSTAT 30 = true ∧ t.corAct = s.corAct := by
  intro t
  have ht : t = ((s.corRewritten (· == corRowOf (!s.corAct) j)).setBank (!s.corAct)
      (SMap.set identityWord (s.bank (!s.corAct)) j v)).wrBit .tile Reg.COR_BSTAT 30 true := by
    simp [t, State.corWrite, h, ha, hb]
  have hword : ∀ b k, t.bankWord b k = if b = !s.corAct then (if k = j then v else s.bankWord b k)
      else s.bankWord b k := fun b k => by
    rw [ht, State.wrBit, State.bankWord_wr, State.bankWord_setBank]
    split
    · next e => rw [SMap.get_set, State.bankWord, e]
    · rfl
  refine ⟨by simp [hword], fun b k hk => ?_, ?_, ?_⟩
  · rw [hword]
    rcases hk with hk | hk <;> simp [hk]
  · rw [ht]
    exact State.bitOf_wrBit _ _ _ _ _ (by decide)
  · simp [ht, State.corAct, State.bitOf, State.wrBit, bit_putBit]

/-- A copy that is done has made both banks what the active one was (R336). -/
theorem State.bankWord_copied (s : State) (b : Bool) (j : Nat) :
    (s.setBank (!s.corAct) (s.bank s.corAct)).bankWord b j = s.bankWord s.corAct j := by
  rw [State.bankWord_setBank]
  split
  · rfl
  · next h => rw [show b = s.corAct by simpa using h]

/-- The state in which a copy has ended, before COR_COPY_DONE is raised (R336). -/
def State.corCopied (s : State) : State :=
  ((((s.setBank (!s.corAct) (s.bank s.corAct)).corRewritten (· / 2048 == (!s.corAct).toNat)).wrBit .tile
    Reg.COR_BSTAT 29 false).wrBit .tile Reg.COR_BSTAT 30 true)

theorem State.bankWord_corCopied (s : State) (b : Bool) (j : Nat) : s.corCopied.bankWord b j = s.bankWord s.corAct j := by
  rw [← State.bankWord_copied s b j]
  unfold State.corCopied State.wrBit
  rw [State.bankWord_wr, State.bankWord_wr]
  rfl

theorem State.bstat_corCopied (s : State) :
    s.corCopied.bitOf .tile Reg.COR_BSTAT 29 = false ∧ s.corCopied.bitOf .tile Reg.COR_BSTAT 30 = true := by
  simp [State.corCopied, State.wrBit, State.bitOf, bit_putBit]

theorem State.tapTakes_corCopied (s : State) (p : Part) : s.corCopied.tapTakes p = s.tapTakes p := by
  simp [State.corCopied, State.wrBit, State.corRewritten]

/-! ### The commands of a running tile -/

section

variable {s : State} (halive : s.alive .tile = true)

include halive

theorem exec_corScrub (errs : List ScrubErr) : exec (.corScrub errs) s = .next (errs.foldl State.scrubbed s) :=
  congrArg _ (State.when'_pos halive)

theorem exec_corScrub_one (e : ScrubErr) : exec (.corScrub [e]) s = .next (s.scrubbed e) := by
  rw [exec_corScrub halive, List.foldl_cons, List.foldl_nil]

theorem exec_pixDarkClr (m : BitVec 4) : exec (.pixDarkClr m) s = .next (State.darkClear (m.setWidth 32) s) :=
  congrArg _ (State.when'_pos halive)

theorem exec_correctionWindowWrite (addr v : Word) :
    exec (.correctionWindowWrite addr v) s = .next (s.corWrite addr.toNat v).1 :=
  congrArg _ (State.when'_pos halive)

theorem exec_corCopyGo : exec .corCopyGo s =
    .next (if (s.bitOf .tile Reg.COR_BSTAT 29 || s.shadowLocked .tile 10) = true then s
      else s.wrBit .tile Reg.COR_BSTAT 29 true) :=
  congrArg _ (State.when'_pos halive)

theorem exec_corCopyDone : exec .corCopyDone s =
    .next (if (s.bitOf .tile Reg.COR_BSTAT 29 && !s.til.pix.filling) = true then
      s.corCopied.raise .tile Ev.COR_COPY_DONE else s) :=
  congrArg _ (State.when'_pos halive)

theorem exec_identityFillDone : exec .identityFillDone s =
    .next (if s.til.pix.filling = true then
      (s.updPix fun x => { x with filling := false }).wrBit .tile Reg.COR_BSTAT 29 false else s) :=
  congrArg _ (State.when'_pos halive)

end

/-! ### The correction store -/

/-- Settles O44, clause by clause: the scrubber, the return to service, the window, the copy and the identity fill. -/
theorem correctionStore : Obligations.CorrectionStore := by
  intro s halive busy locked
  have hlock : s.shadowLocked .tile 10 = true ↔ locked := State.shadowLocked_iff 10 s
  have hfree : ¬ locked → s.shadowLocked .tile 10 = false := fun h => Bool.eq_false_iff.2 (mt hlock.1 h)
  refine ⟨fun b block line => ?_, exec_corScrub halive [], fun m => ?_, fun addr v => ?_, fun h => ?_,
    fun hb hl => ?_, fun hb hf => ?_, fun h => ?_, fun hf => ?_, fun hf => ?_⟩
  · -- the scrubber
    rw [exec_corScrub_one halive, exec_corScrub_one halive, State.scrubbed_single, State.scrubbed_double]
    obtain ⟨hcount, hkept⟩ := State.corCorrected_spec s
    refine ⟨⟨_, rfl, hcount, hkept b⟩, _, rfl, ?_⟩
    have hrow : CorNoted b block.val line.val s (s.corRowLost b block.val line.val) := by
      by_cases hd : s.dark (block.val / 16) = true
      · exact (State.corRowLost_dark b block line.val s hd).1
      · by_cases hu : s.sparesUsed b block.val < 2
        · exact (State.corRowLost_spare b block line.val s (by simpa using hd) hu).1
        · exact (State.corRowLost_noSpare b block line.val s (by simpa using hd) (Nat.not_lt.1 hu)).1
    refine ⟨hrow.1, hrow.2, fun hd => ?_, fun hd hu => ?_, fun hd hu => ?_⟩
    · obtain ⟨-, hdark, hword, hwait⟩ := State.corRowLost_dark b block line.val s hd
      exact ⟨hdark, hword b, hwait⟩
    · exact (State.corRowLost_spare b block line.val s hd hu).2
    · exact (State.corRowLost_noSpare b block line.val s hd hu).2
  · -- the return to service
    exact ⟨_, exec_pixDarkClr halive m, State.corWait_darkClear m s, State.darkClear_of_noneWait m⟩
  · -- the window
    rw [exec_correctionWindowWrite halive]
    refine ⟨fun hl => ⟨_, rfl, ?_⟩, fun hl hin hb => ⟨_, rfl, ?_⟩, fun hl hin hb => ⟨_, rfl, ?_⟩, fun hl hout => ?_⟩
    · rw [State.corWrite_locked _ v (hlock.2 hl)]
      have hc := Calm.raise .tile Ev.SHADOW_LOCKED (s.bump .tile Reg.SYS_CMT_LOCKDROP 1) 0 (by decide)
      refine ⟨fun b k => ?_, ?_, fun hz => pend_raise .tile _ _ _ (by decide) ?_ (by decide)⟩
      · rw [hc.bankWord, State.bump, State.bankWord_wr]
      · exact (hc.rd _ _ (.inr (by decide))).trans (State.rd_wr_same _ _ _ s)
      · rw [State.bump, State.tapTakes_wr, hz]
    · rw [State.corWrite_busy v (hfree hl) (corIndex_inside hin) hb]
      exact ⟨fun b k => State.bankWord_wr _ _ _ b k s, State.rd_wr_same _ _ _ s⟩
    · exact State.corWrite_stores v (hfree hl) (corIndex_inside hin) hb
    · rw [State.corWrite_outside v (hfree hl) (corIndex_outside hout)]
  · rw [exec_corCopyGo halive, if_pos (by simpa [hlock] using h)]
  · rw [exec_corCopyGo halive, if_neg (by simp [show s.bitOf .tile Reg.COR_BSTAT 29 = false from hb, hfree hl])]
  · -- the copy ends
    rw [exec_corCopyDone halive, if_pos (by simpa [hf] using hb)]
    have hc := Calm.raise .tile Ev.COR_COPY_DONE s.corCopied 0 (by decide)
    have hstat := hc.rd .tile Reg.COR_BSTAT (.inr (by decide))
    obtain ⟨h29, h30⟩ := State.bstat_corCopied s
    refine ⟨_, rfl, fun b j => ?_, ?_, ?_, fun hz => ?_⟩
    · rw [hc.bankWord, State.bankWord_corCopied]
    · rw [State.bitOf, hstat]; exact h29
    · rw [State.bitOf, hstat]; exact h30
    · exact pend_raise .tile _ _ _ (by decide) ((State.tapTakes_corCopied s _).trans hz) (by decide)
  · rw [exec_corCopyDone halive, if_neg]
    rcases h with h | h
    · simp [show s.bitOf .tile Reg.COR_BSTAT 29 = false from h]
    · simp [h]
  · -- the identity fill ends
    rw [exec_identityFillDone halive, if_pos hf]
    refine ⟨_, rfl, ?_, State.bitOf_wrBit _ _ _ _ _ (by decide), fun b j => ?_⟩
    · simp [State.wrBit]
    · rw [State.wrBit, State.bankWord_wr, State.bankWord_updPix rfl rfl]
  · rw [exec_identityFillDone halive, if_neg (by simp [hf])]

end Sys2Proof.Machine
end

section
/-!
PROOFS. Compositions, the preview and raster lines (O31): the statement on the packets of a preview frame fails, since
nothing in it holds the port of the frame to the four that the sender has.
-/

namespace Sys2Proof.Machine

open Sys2Proof

/-- A preview frame of one packet on a port that the sender does not have. The half-range event of that port has ID
0x908404, whose pending bit is bit 4 of the word at the address of CMP_PV_SENT. -/
def strayRun : PvRun where
  buf := 0
  ts := 0
  seq := 0
  next := 0
  port := 0x908300
  lines := 1
  bytes := 0
  plen := 0
  per := 1
  base := 0
  pitch := 0
  start := 0
  span := 0
  eth := []
  iph := 0
  ips := []
  ports := []
  pt := 0
  ssrc := []

/-- The sender runs and sends the stray frame: the link of its port is up, its count of refused and poisoned frames is
one below half range, and the event of that crossing is enabled (R120). -/
def strayPreview : State :=
  (((({ State.reset with sender := { Chip.reset .sender with phase := .up } }).wr .sender
    (Reg.NET_STAT strayRun.port) 1).wr .sender (Reg.NET_CNT strayRun.port 47) 0x7FFFFFFF).wr .sender
    (Reg.NET_HALF_EN1 strayRun.port) 0x8000).updSnd fun t => { t with pv := some strayRun }

/-- The stray frame may leave, and no preview frame has been counted. -/
theorem strayPreview_sends : strayPreview.alive .sender = true ∧ strayPreview.netUp strayRun.port = true ∧
    strayPreview.txWaits strayRun.port 0 = false ∧ strayPreview.rd .sender Reg.CMP_PV_SENT = 0 := by
  decide +kernel

/-- Its one packet, poisoned, counts the frame, and the pending bit of the half-range event comes beside the count. -/
theorem strayPreview_sent :
    (evRaise .sender (strayPreview.pvDone' [0])).rd .sender Reg.CMP_PV_SENT = 0x11 := by
  decide +kernel

/-- Refutes O31: the clause on PV_FRAME quantifies over every preview frame in progress, with any number for its port.
Sending `strayRun` leaves 0x11 in CMP_PV_SENT, which read 0 before, where the clause wants 1. -/
theorem not_compositionAndRaster : ¬ Obligations.CompositionAndRaster := by
  rintro ⟨-, hpreview⟩
  obtain ⟨halive, hup, hwaits, hnone⟩ := strayPreview_sends
  obtain ⟨-, hframe, -⟩ := hpreview strayPreview halive
  obtain ⟨-, -, hsends⟩ := hframe [0]
  obtain ⟨t, -, -, hexec, -, hcount, -⟩ := hsends strayRun rfl hup hwaits
  have ht : evRaise .sender (strayPreview.pvDone' [0]) = t :=
    (State.when'_pos halive).symm.trans (Host.Outcome.next.inj hexec)
  rw [← ht, strayPreview_sent, hnone] at hcount
  exact absurd hcount (by decide)

end Sys2Proof.Machine
end

section
/-!
PROOFS. The words of the Folko instructions (O58): what each field of a written word reads, a word written again from
its own fields, and the decoder and the encoder as inverses of each other.
-/

namespace Sys2Proof.Machine

open Sys2Proof

/-! ### The fields of a word as parts of its value (R72) -/

theorem fld_eq_div_mod (w : Word) (hi lo : Nat) : fld w hi lo = w.toNat / 2 ^ lo % 2 ^ (hi - lo + 1) := by
  rw [fld, Nat.shiftRight_eq_div_pow]

theorem toNat_extractLsb'_eq_div_mod (w : Word) (lo n : Nat) :
    (w.extractLsb' lo n).toNat = w.toNat / 2 ^ lo % 2 ^ n := by
  rw [BitVec.extractLsb'_toNat, Nat.shiftRight_eq_div_pow]

section

variable (w : Word)

theorem fOp_eq : fOp w = w.toNat / 2 ^ 26 := by
  have := w.isLt
  rw [fOp, fld_eq_div_mod]
  omega

theorem toNat_fD : (fD w).toNat = w.toNat / 2 ^ 21 % 2 ^ 5 := toNat_extractLsb'_eq_div_mod w 21 5
theorem toNat_fA : (fA w).toNat = w.toNat / 2 ^ 16 % 2 ^ 5 := toNat_extractLsb'_eq_div_mod w 16 5
theorem toNat_fB : (fB w).toNat = w.toNat / 2 ^ 11 % 2 ^ 5 := toNat_extractLsb'_eq_div_mod w 11 5
theorem fFn_eq : fFn w = w.toNat / 2 ^ 0 % 2 ^ 11 := fld_eq_div_mod w 10 0
theorem fCond_eq : fCond w = w.toNat / 2 ^ 12 % 2 ^ 4 := fld_eq_div_mod w 15 12
theorem toNat_fImm : (fImm w).toNat = w.toNat % 2 ^ 16 := BitVec.toNat_setWidth 16 w
theorem toNat_fEv : (fEv w).toNat = w.toNat % 2 ^ 12 := BitVec.toNat_setWidth 12 w
theorem toNat_fOff : (fOff w).toNat = w.toNat % 2 ^ 26 := BitVec.toNat_setWidth 26 w

end

/-! ### What the fields of a written word read -/

section

variable {op : Nat} (hop : op < 64) (d a b : BitVec 5)

include hop

@[simp] theorem fields_wordA {fn : Nat} (hfn : fn < 2048) : fOp (wordA op d a b fn) = op ∧
    fD (wordA op d a b fn) = d ∧ fA (wordA op d a b fn) = a ∧ fB (wordA op d a b fn) = b ∧
    fFn (wordA op d a b fn) = fn := by
  have hw : (wordA op d a b fn).toNat =
      op * 2 ^ 26 + d.toNat * 2 ^ 21 + a.toNat * 2 ^ 16 + b.toNat * 2 ^ 11 + fn := by
    rw [wordA, BitVec.toNat_ofNat]
    omega
  simp only [BitVec.toNat_eq, fOp_eq, toNat_fD, toNat_fA, toNat_fB, fFn_eq, hw]
  omega

@[simp] theorem fields_wordI (imm : BitVec 16) : fOp (wordI op d a imm) = op ∧ fD (wordI op d a imm) = d ∧
    fA (wordI op d a imm) = a ∧ fImm (wordI op d a imm) = imm := by
  have hw : (wordI op d a imm).toNat = op * 2 ^ 26 + d.toNat * 2 ^ 21 + a.toNat * 2 ^ 16 + imm.toNat := by
    rw [wordI, BitVec.toNat_ofNat]
    omega
  simp only [BitVec.toNat_eq, fOp_eq, toNat_fD, toNat_fA, toNat_fImm, hw]
  omega

@[simp] theorem fields_wordW {cond : Nat} (hcond : cond < 16) (ev : BitVec 12) :
    fOp (wordW op d a cond ev) = op ∧ fD (wordW op d a cond ev) = d ∧ fA (wordW op d a cond ev) = a ∧
    fCond (wordW op d a cond ev) = cond ∧ fEv (wordW op d a cond ev) = ev := by
  have hw : (wordW op d a cond ev).toNat =
      op * 2 ^ 26 + d.toNat * 2 ^ 21 + a.toNat * 2 ^ 16 + cond * 2 ^ 12 + ev.toNat := by
    rw [wordW, BitVec.toNat_ofNat]
    omega
  simp only [BitVec.toNat_eq, fOp_eq, toNat_fD, toNat_fA, fCond_eq, toNat_fEv, hw]
  omega

/-- COND and event 0 leave an immediate of 0. -/
@[simp] theorem fImm_wordW_zero : fImm (wordW op d a 0 0#12) = 0#16 := by
  have hw : (wordW op d a 0 0#12).toNat = op * 2 ^ 26 + d.toNat * 2 ^ 21 + a.toNat * 2 ^ 16 := by
    rw [wordW, BitVec.toNat_ofNat, BitVec.toNat_ofNat]
    omega
  apply BitVec.eq_of_toNat_eq
  rw [toNat_fImm, hw, BitVec.toNat_ofNat]
  omega

@[simp] theorem fields_wordJ (off : BitVec 26) : fOp (wordJ op off) = op ∧ fOff (wordJ op off) = off := by
  have hw : (wordJ op off).toNat = op * 2 ^ 26 + off.toNat := by
    rw [wordJ, BitVec.toNat_ofNat]
    omega
  simp only [BitVec.toNat_eq, fOp_eq, toNat_fOff, hw]
  omega

end

/-! ### A word written again from its own fields -/

section

variable {w : Word} {op : Nat} {d a b : BitVec 5}

theorem wordA_of_fields {fn : Nat} (hop : fOp w = op) (hd : fD w = d) (ha : fA w = a) (hb : fB w = b)
    (hfn : fFn w = fn) : wordA op d a b fn = w := by
  subst hop hd ha hb hfn
  apply BitVec.eq_of_toNat_eq
  rw [wordA, BitVec.toNat_ofNat, fOp_eq, toNat_fD, toNat_fA, toNat_fB, fFn_eq]
  omega

theorem wordI_of_fields {imm : BitVec 16} (hop : fOp w = op) (hd : fD w = d) (ha : fA w = a) (himm : fImm w = imm) :
    wordI op d a imm = w := by
  subst hop hd ha himm
  apply BitVec.eq_of_toNat_eq
  rw [wordI, BitVec.toNat_ofNat, fOp_eq, toNat_fD, toNat_fA, toNat_fImm]
  omega

theorem wordW_of_fields {cond : Nat} {ev : BitVec 12} (hop : fOp w = op) (hd : fD w = d) (ha : fA w = a)
    (hcond : fCond w = cond) (hev : fEv w = ev) : wordW op d a cond ev = w := by
  subst hop hd ha hcond hev
  apply BitVec.eq_of_toNat_eq
  rw [wordW, BitVec.toNat_ofNat, fOp_eq, toNat_fD, toNat_fA, fCond_eq, toNat_fEv]
  omega

/-- COND and event are 0 when they are read together as an immediate of 0. -/
theorem wordW_zero_of_fields (hop : fOp w = op) (hd : fD w = d) (ha : fA w = a) (himm : fImm w = 0) :
    wordW op d a 0 0 = w := by
  rw [← wordI_of_fields hop hd ha himm]
  simp [wordW, wordI]

theorem wordJ_of_fields {off : BitVec 26} (hop : fOp w = op) (hoff : fOff w = off) : wordJ op off = w := by
  subst hop hoff
  apply BitVec.eq_of_toNat_eq
  rw [wordJ, BitVec.toNat_ofNat, fOp_eq, toNat_fOff]
  omega

end

/-! ### Reading what the encoder writes (R74, R75) -/

@[simp] theorem whenZero_eq_some {ok : Bool} {i j : Instr} : whenZero ok i = some j ↔ ok = true ∧ i = j := by
  cases ok <;> simp [whenZero]

/-- EVSET and EVACK: a well-formed instruction has a 0 in the operand that its COND leaves unused (R86). -/
theorem decodeEv_wordW {op : Nat} (hop : op < 64) (mk : Bool → BitVec 5 → BitVec 12 → Instr) (reg : Bool)
    (a : BitVec 5) (ev : BitVec 12) (hzero : (if reg then ev == 0 else a == 0) = true) :
    decodeEv mk (wordW op 0 a reg.toNat ev) = some (mk reg a ev) := by
  cases reg with
  | false =>
    obtain rfl : a = 0 := by simpa using hzero
    simp [decodeEv, hop]
  | true =>
    obtain rfl : ev = 0 := by simpa using hzero
    simp [decodeEv, hop]

theorem decodeFolko_encodeFolko {i : Instr} {w : Word} (hwf : i.wf = true) (hw : encodeFolko i = some w) :
    ∃ (c : CoreId) (lag : Fin 9), decodeFolko c lag w = some i := by
  unfold encodeFolko at hw
  split at hw
  -- a command that is no instruction has no word
  case h_53 => cases hw
  all_goals obtain rfl := Option.some.inj hw
  case h_21 c d a imm =>
    -- SHI: its kind is one of the three
    have hkind : imm.toNat < 0x60 := of_decide_eq_true hwf
    exact ⟨c, 0, by simp [decodeFolko, hkind]⟩
  -- WAITE by its COND, EVSET and EVACK by theirs, NOW by its FN
  case h_36 | h_37 | h_38 => simp [decodeFolko, decodeWaite]
  case h_44 c reg a ev =>
    have hreg : reg.toNat < 16 := Nat.lt_trans reg.toNat_lt (by decide)
    exact ⟨c, 0, by simpa [decodeFolko, hreg] using decodeEv_wordW (by decide) (.evset c) reg a ev hwf⟩
  case h_45 c reg a ev =>
    have hreg : reg.toNat < 16 := Nat.lt_trans reg.toNat_lt (by decide)
    exact ⟨c, 0, by simpa [decodeFolko, hreg] using decodeEv_wordW (by decide) (.evack c) reg a ev hwf⟩
  case h_48 | h_49 | h_50 => simp [decodeFolko, decodeNow]
  -- every other instruction is read from its opcode, an ALU operation from its FN too
  all_goals simp [decodeFolko, decodeAlu]

/-! ### Writing what the decoder reads (R74, R75) -/

section

variable {c : CoreId} {lag : Fin 9} {w : Word} {i : Instr}

theorem encodeFolko_of_decodeAlu (hop : fOp w = 0x00) (hi : decodeAlu c (fD w) (fA w) (fB w) (fFn w) = some i) :
    encodeFolko i = some w := by
  unfold decodeAlu at hi
  split at hi
  case h_15 hfn =>
    obtain ⟨hb, hi⟩ := Option.ite_none_right_eq_some.1 hi
    cases hi
    exact congrArg some (wordA_of_fields hop rfl rfl hb hfn)
  case h_16 => cases hi
  all_goals next hfn =>
    cases hi
    exact congrArg some (wordA_of_fields hop rfl rfl rfl hfn)

theorem encodeFolko_of_decodeWaite (hop : fOp w = 0x21) (hi : decodeWaite c w = some i) : encodeFolko i = some w := by
  unfold decodeWaite at hi
  split at hi
  case h_1 hcond =>
    cases hi
    exact congrArg some (wordW_of_fields hop rfl rfl hcond rfl)
  case h_2 hcond | h_3 hcond =>
    obtain ⟨ha, rfl⟩ := whenZero_eq_some.1 hi
    exact congrArg some (wordW_of_fields hop rfl (eq_of_beq ha) hcond rfl)
  case h_4 => cases hi

theorem wordW_of_decodeEv {op : Nat} {mk : Bool → BitVec 5 → BitVec 12 → Instr} (hop : fOp w = op)
    (hi : decodeEv mk w = some i) : ∃ reg a ev, i = mk reg a ev ∧ wordW op 0 a reg.toNat ev = w := by
  unfold decodeEv at hi
  split at hi
  case h_1 hcond =>
    obtain ⟨hzero, rfl⟩ := whenZero_eq_some.1 hi
    obtain ⟨hd, ha⟩ : fD w = 0 ∧ fA w = 0 := by simpa using hzero
    exact ⟨false, 0, fEv w, rfl, wordW_of_fields hop hd ha hcond rfl⟩
  case h_2 hcond =>
    obtain ⟨hzero, rfl⟩ := whenZero_eq_some.1 hi
    obtain ⟨hd, hev⟩ : fD w = 0 ∧ fEv w = 0 := by simpa using hzero
    exact ⟨true, fA w, 0, rfl, wordW_of_fields hop hd rfl hcond hev⟩
  case h_3 => cases hi

theorem encodeFolko_of_decodeNow (hop : fOp w = 0x2B) (hi : decodeNow c lag w = some i) : encodeFolko i = some w := by
  obtain ⟨⟨ha, hb⟩, hi⟩ := Option.ite_none_right_eq_some.1 hi
  split at hi
  case h_4 => cases hi
  all_goals next hfn =>
    cases hi
    exact congrArg some (wordA_of_fields hop rfl ha hb hfn)

theorem encodeFolko_of_decodeFolko (hi : decodeFolko c lag w = some i) : encodeFolko i = some w := by
  unfold decodeFolko at hi
  dsimp only at hi
  split at hi
  case h_1 hop => exact encodeFolko_of_decodeAlu hop hi
  case h_6 hop =>
    -- LUI
    obtain ⟨ha, rfl⟩ := whenZero_eq_some.1 hi
    exact congrArg some (wordI_of_fields hop rfl (eq_of_beq ha) rfl)
  case h_7 hop =>
    -- SHI
    obtain ⟨-, rfl⟩ := whenZero_eq_some.1 hi
    exact congrArg some (wordI_of_fields hop rfl rfl rfl)
  case h_18 hop | h_19 hop | h_33 hop | h_34 hop =>
    -- format J: JMP, CALL, BRK, TRAP
    cases hi
    exact congrArg some (wordJ_of_fields hop rfl)
  case h_20 hop | h_27 hop | h_30 hop =>
    -- format A with b and FN unused: JR, TRCV, XFER
    obtain ⟨hzero, rfl⟩ := whenZero_eq_some.1 hi
    obtain ⟨hb, hfn⟩ : fB w = 0 ∧ fFn w = 0 := by simpa using hzero
    exact congrArg some (wordA_of_fields hop rfl rfl hb hfn)
  case h_21 hop =>
    -- WAITT
    obtain ⟨hzero, rfl⟩ := whenZero_eq_some.1 hi
    obtain ⟨hd, himm⟩ : fD w = 0 ∧ fImm w = 0 := by simpa using hzero
    exact congrArg some (wordW_zero_of_fields hop hd rfl himm)
  case h_22 hop => exact encodeFolko_of_decodeWaite hop hi
  case h_23 hop | h_24 hop | h_25 hop | h_26 hop =>
    -- format A with FN unused: CMT, CMTQ, BCST, TSND
    obtain ⟨hfn, rfl⟩ := whenZero_eq_some.1 hi
    exact congrArg some (wordA_of_fields hop rfl rfl rfl (eq_of_beq hfn))
  case h_28 hop | h_29 hop =>
    -- EVSET, EVACK
    obtain ⟨reg, a, ev, rfl, hw⟩ := wordW_of_decodeEv hop hi
    exact congrArg some hw
  case h_31 hop =>
    -- FENCE
    obtain ⟨hoff, rfl⟩ := whenZero_eq_some.1 hi
    exact congrArg some (wordJ_of_fields hop (eq_of_beq hoff))
  case h_32 hop => exact encodeFolko_of_decodeNow hop hi
  case h_35 => cases hi
  all_goals next hop =>
    -- format I without unused fields: immediate operations, loads, stores and branches
    cases hi
    exact congrArg some (wordI_of_fields hop rfl rfl rfl)

end

/-- Settles O58: what the encoder writes is read back field by field, and a word that is read holds in its fields what
the encoder writes for the instruction read. -/
theorem folkoDecodeOfEncode : Obligations.FolkoDecodeOfEncode :=
  ⟨fun _ _ => decodeFolko_encodeFolko, fun _ _ _ _ => encodeFolko_of_decodeFolko⟩

end Sys2Proof.Machine
end

section
/-!
PROOFS. Folko instructions that write a register or move the PC (O4, O5, O6): the frame of a register write, the results
of the register and immediate operations as arithmetic on values, and where branches and jumps continue.
-/

namespace Sys2Proof.Machine

open Sys2Proof

/-! ### The frame of a register write (R70, R71) -/

@[simp] theorem Core.setGpr_xfer (k : Core) (i : BitVec 5) (v : Word) : (k.setGpr i v).xfer = k.xfer := by
  unfold Core.setGpr; split <;> rfl

theorem State.core_wrote {c : CoreId} {s : State} (d : BitVec 5) (v : Word)
    (hc : c.idx < (s.chip c.part).cores.length) : (s.wrote c d v).core c.part c.idx =
      { (s.core c.part c.idx).setGpr d v with pc := (s.core c.part c.idx).pc + 4 } :=
  State.core_updCore_same _ _ _ _ hc

theorem State.gpr_wrote {c : CoreId} {s : State} (d r : BitVec 5) (v : Word)
    (hc : c.idx < (s.chip c.part).cores.length) :
    (s.wrote c d v).gpr c r = if r = d ∧ d ≠ 0 then v else s.gpr c r := by
  unfold State.gpr
  rw [State.core_wrote d v hc]
  exact Core.gpr_setGpr _ d r v

theorem State.core_wrote_ne {c : CoreId} {p : Part} {n : Nat} (d : BitVec 5) (v : Word) (s : State)
    (hne : p ≠ c.part ∨ n ≠ c.idx) : (s.wrote c d v).core p n = s.core p n := by
  unfold State.wrote State.upCore
  rw [State.core_updCore, if_neg]
  rintro ⟨hp, hn, -⟩
  exact hne.elim (· hp) (· hn)

/-- Settles O5: a register write is one update of the core that writes, and touches its register file and PC only. -/
theorem registerWriteFrame : Obligations.RegisterWriteFrame := by
  intro c d v s hready t
  have hc := issues_idx hready.1
  have hcore : t.core c.part c.idx = _ := State.core_wrote d v hc
  refine ⟨?_, fun r hr => ?_, ?_, fun p n hne => State.core_wrote_ne d v s hne, ?_, ?_, ?_,
    fun p a => State.rd_updCore .., fun p a => State.dmemByte_of (State.updCore_chip_dmem ..) a, fun p => ?_,
    ?_, ?_, ?_, ?_, ?_, ?_, ?_⟩
  · -- the register written
    rw [State.gpr_wrote d d v hc]
    by_cases hd : d = 0
    · subst hd; rfl
    · rw [if_pos ⟨rfl, hd⟩, if_neg hd]
  · -- another register
    rw [State.gpr_wrote d r v hc, if_neg fun h => hr h.1]
  · exact congrArg Core.pc hcore
  · rw [hcore]; exact Core.setGpr_posted ..
  · rw [hcore]; exact Core.setGpr_xfer ..
  · rw [hcore]; exact Core.setGpr_imem ..
  · simp [t, State.wrote, State.upCore] -- memories, clock, log and commit of each part
  all_goals simp [t, State.wrote, State.upCore]

/-! ### The operations on values (R76, R77) -/

section

variable (x y : Word)

theorem shiftLeft_eq_ofNat (n : Nat) : x <<< n = BitVec.ofNat 32 (x.toNat * 2 ^ n) := by
  apply BitVec.eq_of_toNat_eq
  rw [BitVec.toNat_shiftLeft, BitVec.toNat_ofNat, Nat.shiftLeft_eq]

theorem ushiftRight_eq_ofNat (n : Nat) : x >>> n = BitVec.ofNat 32 (x.toNat / 2 ^ n) := by
  rw [← Nat.shiftRight_eq_div_pow, ← BitVec.toNat_ushiftRight, BitVec.ofNat_toNat, BitVec.setWidth_eq]

theorem sshiftRight_eq_ofInt (n : Nat) : x.sshiftRight n = BitVec.ofInt 32 (x.toInt / 2 ^ n) := by
  rw [BitVec.sshiftRight, Int.shiftRight_eq_div_pow]
  norm_cast

theorem ite_slt {α : Type} (u v : α) : (if x.slt y then u else v) = if x.toInt < y.toInt then u else v := by
  simp [BitVec.slt]

theorem flagWord_slt : flagWord (x.slt y) = if x.toInt < y.toInt then 1 else 0 := ite_slt x y 1 0

theorem flagWord_ult : flagWord (x.ult y) = if x.toNat < y.toNat then 1 else 0 := by
  simp [flagWord, BitVec.ult]

/-- The count of leading zeros is 32 less the number of bits that the value needs. -/
theorem clzWord_spec : ∃ m, m ≤ 32 ∧ x.toNat < 2 ^ (32 - m) ∧ (m = 32 ∨ 2 ^ (31 - m) ≤ x.toNat) ∧
    clzWord x = BitVec.ofNat 32 m := by
  by_cases hx : x = 0
  · exact ⟨32, by simp [clzWord, hx]⟩
  · have hne : x.toNat ≠ 0 := fun h => hx (BitVec.eq_of_toNat_eq h)
    have hlog : x.toNat.log2 < 32 := (Nat.log2_lt hne).2 x.isLt
    refine ⟨31 - x.toNat.log2, by omega, ?_, .inr ?_, by rw [clzWord, if_neg hx]⟩
    · rw [show 32 - (31 - x.toNat.log2) = x.toNat.log2 + 1 by omega]
      exact Nat.lt_log2_self
    · rw [show 31 - (31 - x.toNat.log2) = x.toNat.log2 by omega]
      exact Nat.log2_self_le hne

theorem zext16_shiftLeft_eq_ofNat (imm : BitVec 16) : zext16 imm <<< 16 = BitVec.ofNat 32 (imm.toNat * 2 ^ 16) := by
  rw [shiftLeft_eq_ofNat, zext16, BitVec.toNat_setWidth, Nat.mod_eq_of_lt (by omega)]

theorem shiOp_eq {imm : BitVec 16} (himm : imm.toNat < 0x60) : shiOp imm x =
    if imm.toNat / 32 = 0 then BitVec.ofNat 32 (x.toNat * 2 ^ (imm.toNat % 32))
    else if imm.toNat / 32 = 1 then BitVec.ofNat 32 (x.toNat / 2 ^ (imm.toNat % 32))
    else BitVec.ofInt 32 (x.toInt / 2 ^ (imm.toNat % 32)) := by
  have hkind : imm.toNat / 32 = 0 ∨ imm.toNat / 32 = 1 ∨ imm.toNat / 32 = 2 := by omega
  rw [← shiftLeft_eq_ofNat, ← ushiftRight_eq_ofNat, ← sshiftRight_eq_ofInt]
  rcases hkind with hk | hk | hk <;> simp [shiOp, hk]

end

/-! ### A ready core runs a register, immediate or jump operation -/

section

variable {c : CoreId} {s : State} (hready : Ready c s)

include hready

theorem next_alu {d a b : BitVec 5} {f : Word → Word → Word} {v : Word} (hv : f (s.gpr c a) (s.gpr c b) = v) :
    (.next (s.alu c d a b f) : Host.Outcome State Fault Refusal) = .next (s.wrote c d v) := by
  rw [State.alu, issue_eq hready, result_eq _ _ hready, hv]

theorem next_alui {d a : BitVec 5} {f : Word → Word} {v : Word} (hv : f (s.gpr c a) = v) :
    (.next (s.alui c d a f) : Host.Outcome State Fault Refusal) = .next (s.wrote c d v) := by
  rw [State.alui, issue_eq hready, result_eq _ _ hready, hv]

theorem next_shi {d a : BitVec 5} {imm : BitVec 16} {v : Word} (himm : imm.toNat < 0x60)
    (hv : shiOp imm (s.gpr c a) = v) :
    (.next (s.shi c d a imm) : Host.Outcome State Fault Refusal) = .next (s.wrote c d v) := by
  rw [State.shi, issue_eq hready, if_pos himm, result_eq _ _ hready, hv]

end

/-- Settles O4: each instruction writes the value of its operation on the operands. -/
theorem arithmeticResults : Obligations.ArithmeticResults := by
  intro c d a b imm s hready x y n z k
  obtain ⟨m, hm, hlt, hle, hclz⟩ := clzWord_spec x
  exact ⟨next_alu hready rfl, next_alu hready rfl, next_alu hready rfl, next_alu hready rfl, next_alu hready rfl,
    next_alu hready (shiftLeft_eq_ofNat x n), next_alu hready (ushiftRight_eq_ofNat x n),
    next_alu hready (sshiftRight_eq_ofInt x n), next_alu hready (BitVec.mul_def ..), next_alu hready rfl,
    next_alu hready (ite_slt x y x y), next_alu hready (ite_slt y x x y), next_alu hready (flagWord_slt x y),
    next_alu hready (flagWord_ult x y), ⟨m, hm, hlt, hle, next_alui hready hclz⟩, next_alui hready rfl,
    next_alui hready rfl, next_alui hready rfl, next_alui hready rfl, next_alui hready (zext16_shiftLeft_eq_ofNat imm),
    fun himm => next_shi hready himm (shiOp_eq x himm)⟩

/-! ### Branches and jumps (R73, R78, R79) -/

theorem branchTo_eq (pc : Word) (off : BitVec 16) : branchTo pc off = pc + BitVec.ofInt 32 (4 * off.toInt) := by
  rw [branchTo, BitVec.ofInt_mul]
  rfl

theorem jumpTo_eq (pc : Word) (off : BitVec 26) : jumpTo pc off = pc + BitVec.ofInt 32 (4 * off.toInt) := by
  rw [jumpTo, BitVec.ofInt_mul]
  rfl

section

variable {c : CoreId} {s : State} (hready : Ready c s)

include hready

theorem next_branch {a b : BitVec 5} {off : BitVec 16} {f : Word → Word → Bool} {taken : Prop} [Decidable taken]
    (hf : f (s.gpr c a) (s.gpr c b) = true ↔ taken) :
    (.next (s.branch c a b off f) : Host.Outcome State Fault Refusal) =
      .next (s.moved c (if taken then s.pc c + BitVec.ofInt 32 (4 * off.toInt) else s.pc c + 4)) := by
  rw [State.branch, issue_eq hready, finish_eq _ hready, advance_eq hready, branchTo_eq]
  by_cases ht : taken
  · rw [if_pos (hf.2 ht), if_pos ht]
  · rw [if_neg (mt hf.1 ht), if_neg ht]

/-- CALL and JR write the return address and then move the PC, which is what a register write and a jump do in turn. -/
theorem finish_setGpr_eq (d : BitVec 5) (v pc : Word) :
    (s.upCore c fun k => k.setGpr d v).finish c pc = (s.wrote c d v).moved c pc := by
  rw [finish_eq _ (ready_upd _ hready (setGpr_flags _ d v))]
  unfold State.moved State.wrote State.upCore
  rw [State.updCore_updCore, State.updCore_updCore]

theorem exec_jmp (off : BitVec 26) :
    exec (.jmp c off) s = .next (s.moved c (s.pc c + BitVec.ofInt 32 (4 * off.toInt))) := by
  rw [← jumpTo_eq, ← finish_eq _ hready]
  exact congrArg _ (issue_eq hready _)

theorem exec_call (off : BitVec 26) : exec (.call c off) s =
    .next ((s.wrote c 31 (s.pc c + 4)).moved c (s.pc c + BitVec.ofInt 32 (4 * off.toInt))) := by
  rw [← jumpTo_eq, ← finish_setGpr_eq hready]
  exact congrArg _ (issue_eq hready _)

theorem exec_jr {d a : BitVec 5} (ha : (s.gpr c a).toNat % 4 = 0) :
    exec (.jr c d a) s = .next ((s.wrote c d (s.pc c + 4)).moved c (s.gpr c a)) := by
  rw [← finish_setGpr_eq hready]
  exact (congrArg _ (issue_eq hready _)).trans (congrArg _ (if_pos (beq_iff_eq.2 ha)))

end

/-- Settles O6: each branch moves the PC by its condition, each jump to its target, with the return address written. -/
theorem branchesAndJumps : Obligations.BranchesAndJumps := by
  intro c a b d off o s hready x y pc go far
  exact ⟨next_branch hready beq_iff_eq, next_branch hready bne_iff_ne,
    next_branch hready BitVec.slt_iff_toInt_lt, next_branch hready (by simp [BitVec.slt, x, y]),
    next_branch hready BitVec.ult_iff_toNat_lt, next_branch hready (by simp [BitVec.ult, x, y]),
    exec_jmp hready o, exec_call hready o, exec_jr hready⟩

end Sys2Proof.Machine
end

section
/-!
PROOFS. Training of the memory channels (O28): the statement on disabling the controller fails, since nothing in it holds
the port of a waiting request to the twelve that the controller has (R180).
-/

namespace Sys2Proof.Machine

open Sys2Proof

/-- A read in flight of a port that the controller does not have, 1 ns past its deadline. The late event of that port
has ID 0x45FF80, whose pending bit is bit 0 of the word at the address of DRC_CTRL, which is EN. -/
def strayRead : RdReq where
  unit := 0
  port := 0x45FD50
  chain := 0
  layer := none
  deadline := 0xFFFFFFFF
  entered := 0
  fwd := []
  data := []

/-- The sender runs with EN at 1, and its first channel has the stray read in flight. -/
def strayFlight : State :=
  (({ State.reset with sender := { Chip.reset .sender with phase := .up } }).wr .sender Reg.DRC_CTRL 1).updCh 0 fun c =>
    { c with flight := [strayRead] }

/-- The pending bit of the stray read's late event is EN. -/
theorem strayRead_late : Reg.EVT_PEND (Ev.DRC_LATE strayRead.port / 32) = Reg.DRC_CTRL ∧
    Ev.DRC_LATE strayRead.port % 32 = 0 := by
  decide

theorem strayFlight_enabled : strayFlight.alive .sender = true ∧ strayFlight.rd .sender Reg.DRC_CTRL = 1 := by
  decide +kernel

/-- The read completes late before power-down, and its event sets EN again, which the same write has cleared. -/
theorem strayFlight_disabled : (strayFlight.drcPut 0).rd .sender Reg.DRC_CTRL = 1 := by
  decide +kernel

/-- Refutes O28: the clause on disabling quantifies over every request in flight, with any number for its port.
Disabling `strayFlight` leaves 1 in DRC_CTRL, where the clause wants 0. -/
theorem not_dramTraining : ¬ Obligations.DramTraining := by
  rintro ⟨hcontrol, -⟩
  obtain ⟨halive, hctrl⟩ := strayFlight_enabled
  obtain ⟨-, -, hdisable, -⟩ := hcontrol strayFlight halive
  obtain ⟨t, hexec, hzero, -⟩ := hdisable (by rw [hctrl]; decide)
  have ht : strayFlight.drcPut (strayFlight.rd .sender Reg.DRC_CTRL &&& 2) = t :=
    (State.when'_pos halive).symm.trans (Host.Outcome.next.inj hexec)
  rw [hctrl] at ht hzero
  rw [← ht] at hzero
  exact absurd (strayFlight_disabled.symm.trans hzero) (by decide)

end Sys2Proof.Machine
end
